-- ==== Sys2Proof/Word.lean ====
section
/-! DEFINITION. The word types of the SV6412's register space (R28: every access is one aligned 32-bit word). -/

namespace Sys2Proof

/-- One register word. -/
abbrev Word := BitVec 32

/-- One byte of the non-volatile store, of a bus transfer or of a text line. -/
abbrev Byte := BitVec 8

end Sys2Proof
end

