-- ==== Sys2Proof/Syntax.lean ====
section
/-! DEFINITION. The commands of the SV6412: one constructor of `Instr` for each row of spec/opcode_table.json, with
the operands the row's rule speaks of. A command that stands for a register access carries its requester (R31). A
command that stands for a happening outside the digital state (a comparator, a timer, a converter, a bus partner)
carries what the happening brings. -/

namespace Sys2Proof

/-- Who makes a register access (the requester codes of chapter 2). -/
inductive Requester where
  | spi | i2c | uart | loader
  | engine (x : Fin 8)
deriving DecidableEq, Repr

/-- A level or an edge. -/
abbrev Level := Bool

/-- How a PMBus transaction issued by the hardware ends (R65). -/
inductive BusEnd where
  | good (data : List Byte)
  | nack | badPec | timeout
deriving DecidableEq, Repr

/-- What one tracking update sees of the mains (R80–R85): the frequency the filter gives at each bandwidth of TRKBW,
and while it narrows after lock; the phase error against angle 0 as R73 sets it; the amplitude of the three inputs,
and the one formed from the pair without input 0, 1 or 2; the peak amplitude of each input; the rotation it measures;
the mains angle before ANGOFS, and the mains frequency. DESIGN CHOICE, safe (log 12). -/
structure Sense where
  freqs : List (BitVec 32)
  narrow : BitVec 32
  phErr : BitVec 16
  amp : BitVec 12
  ampPair : List (BitVec 12)
  peak : List (BitVec 12)
  rotation : Bool
  mainsAngle : BitVec 16
  mainsFreq : BitVec 32
deriving DecidableEq, Repr

/-- What the converters integrate over the waypoint a boundary closes (R105, R121, R122): its duration in 5 ns ticks;
per precision chain the sum of raw code times ticks; per meter channel 0–15 the sum of raw current code times raw
voltage code times ticks over its voltage source; per port the same of IMON codes, VBS codes and their product; per
precision chain the sum of raw code times ticks over the part of the waypoint that a calibration conversion uses
(R114). -/
structure WpInputs where
  ticks : BitVec 32
  raw : List Int
  prod : List Int
  portI : List Int
  portV : List Int
  portP : List Int
  cal : List Int
deriving DecidableEq, Repr

/-- What a monitor step converts of one domain (R234), with what the controller senses of its gate: the current in
1/16 A, forward positive; the bus voltage, SRCn and OUTn in 10 mV; whether GATEn is at SRCn + 7 V or above, and below
SRCn + 1 V; whether the limit amplifier regulates. -/
structure MonIn where
  i : BitVec 16
  bus : BitVec 16
  src : BitVec 16
  out : BitVec 16
  gateHigh : Level
  gateLow : Level
  limiting : Level
deriving DecidableEq, Repr

/-- What is seen on a configuration channel (R259): nothing, Ra, Rd, or the partner's Rp with its advertisement as
TCSTAT.RPADV codes it. -/
inductive Term where
  | none | ra | rd
  | rp (adv : Fin 4)
deriving DecidableEq, Repr

/-- A PD message received with a good CRC and reassembled (R265): on SOP' or SOP, header, extended header and payload.
-/
structure PdMsg where
  sopp : Bool
  hdr : BitVec 16
  ext : BitVec 16
  data : List Byte
deriving DecidableEq, Repr

/-- What a guard comparator of a port sees (R283): the cause 1–3, less 1, VBSn in mV and the current in mA, positive
out of the port. DESIGN CHOICE, safe (log 12). -/
structure GuardSeen where
  cause : Fin 3
  mv : BitVec 16
  ma : BitVec 16
deriving DecidableEq, Repr

/-- What the window comparator of a rail sees (R331): the voltage as a SAR code, and for how long, in µs. DESIGN
CHOICE, safe (log 12). -/
structure RailSeen where
  code : BitVec 12
  us : BitVec 8
deriving DecidableEq, Repr

/-- How a transmission ends (R296). -/
inductive TxEnd where
  | sent | noGoodCrc | discarded
deriving DecidableEq, Repr


/-- The commands (spec/opcode_table.json), in the table's order. -/
inductive Instr where
  /-- REGISTER_WRITE (R43). A write to a register that has no row of its own: lock checks, field-wise RWL handling and
  W1C clearing. -/
  | registerWrite (r : Requester) (addr : BitVec 22) (v : Word)
  /-- RS_REGISTER_READ (R11). A read of a sticky-until-read register returns its value, and the clear that follows
  removes only what the read returned. -/
  | rsRegisterRead (r : Requester) (addr : BitVec 22)
  /-- CTRL_SOFTRST (R34). Writing 1 to CTRL.SOFTRST resets the page's registers, aborts any operation and acts on the
  unit's state as ENABLE = 0 does. -/
  | ctrlSoftrst (r : Requester) (page : Fin 64)
  /-- OPCMD_ABORT (R37). Writing OPCMD = 0 aborts the running long operation at its next safe point with reason 0x05. -/
  | opcmdAbort (r : Requester) (page : Fin 64)
  /-- LONG_OPERATION_END (R38). A long operation ends with DONE and PVALID or with ERR and a reason code, and discards
  the PART shadows. -/
  | longOperationEnd (page : Fin 64)
  /-- PART0_READ (R39). A read of PART0 copies PART0-PART5 and PVALID into the requester's shadow. -/
  | part0Read (r : Requester) (page : Fin 64)
  /-- KEY_WRITE (R40). A KEY write advances, completes, ends or fails the unlock sequence of a page for the requester.
  -/
  | keyWrite (r : Requester) (page : Fin 64) (v : Word)
  /-- UNLOCK_LAPSE (R41). An unlock lapses after 10 ms without an RWL write from its requester. -/
  | unlockLapse (r : Requester) (page : Fin 64)
  /-- KEY_BAR_EXPIRY (R42). The 1 s bar on a requester's KEY writes ends. -/
  | keyBarExpiry (r : Requester)
  /-- INT_REARM_PULSE_END (R46). In re-arm mode INT# is asserted again after its 2 us release. -/
  | intRearmPulseEnd
  /-- SWRST_WRITE (R47). Writing 0x0000_D1E5 to GLB.SWRST resets the chip as a software reset. -/
  | swrstWrite (r : Requester) (v : Word)
  /-- SPI_FRAME (R52). A 64-bit SPI request frame is received, CRC-checked and performed, and the response to the
  previous frame is shifted out. -/
  | spiFrame (w : BitVec 64)
  /-- SPI_PARTIAL_FRAME (R55). CS# rises inside a frame, and the partial frame is discarded and counted. -/
  | spiPartialFrame (nbits : BitVec 6)
  /-- I2C_WRITE (R58). An I2C write transaction is applied at STOP after its PEC checks, or discarded and counted. -/
  | i2cWrite (bytes : List Byte)
  /-- I2C_READ (R59). An I2C read transaction returns a word with PEC, stretching SCL up to 50 us, and its destructive
  side effects take effect at STOP. -/
  | i2cRead (bytes : List Byte) (ready : Bool)
  /-- I2C_SCL_TIMEOUT (R60). SCL held low for more than 25 ms resets the I2C state machine and writes code 0xA003. -/
  | i2cSclTimeout (received : BitVec 8)
  /-- UART_READ_LINE (R61). A debug UART read line returns the addressed word or an error number. -/
  | uartReadLine (line : List Byte)
  /-- UART_WRITE_LINE (R61). A debug UART write line performs the write if UARTWEN allows it, and answers ok or an
  error. -/
  | uartWriteLine (line : List Byte)
  /-- PMBUS_POLL_ROUND (R65). Every POLLDIV waypoints a PMBus port starts a poll round over its active contexts. -/
  | pmbusPollRound (port : Fin 2)
  /-- PMBUS_TRANSACTION_END (R65). A hardware-issued PMBus transaction completes or fails, with one retry, a miss
  count or good telemetry. -/
  | pmbusTransactionEnd (e : BusEnd) (port : Fin 2)
  /-- PMBUS_SDA_STUCK (R65). SDA held low for more than 35 ms makes the port clock SCL nine times and send STOP, with
  code 0xA012. -/
  | pmbusSdaStuck (port : Fin 2)
  /-- SMBALERT_SERVICE (R66). SMBALERT# low makes the port read the Alert Response Address and the STATUS_WORD of the
  alerting context. -/
  | smbalertService (port : Fin 2) (target : BitVec 7) (acked : Bool)
  /-- PMB_RAW_TRANSACTION (R67). OPCMD 0x01 on a PMBn page runs a raw PMBus transaction. -/
  | pmbRawTransaction (r : Requester) (port : Fin 2) (arg : Word)
  /-- PMBUS_SNOOP_RESPONSE (R68). A standby updates its own contexts from each master read response with a correct
  PEC. -/
  | pmbusSnoopResponse (port : Fin 2) (ctx : Fin 128) (cmd : BitVec 8) (data : List Byte)
  /-- CTX_ENTRY0_WRITE (R71). A write of CTX ENTRY0 allocates or frees a context, or is dropped with WRREF. -/
  | ctxEntry0Write (r : Requester) (v : Word)
  /-- TRACKING_UPDATE (R84). Every 20.48 us the tracking filter updates the frequency, and the Timetable tests its
  state transitions. -/
  | trackingUpdate (x : Sense) (cut : WpInputs)
  /-- HOLDOVER_EXPIRY (R84). HOLDCYC complete holdover cycles pass and the Timetable enters FREERUN at the next cycle
  boundary. -/
  | holdoverExpiry
  /-- TTB_ENABLE_WRITE (R84). Writing TTB.CTRL.ENABLE enters ACQUIRE from OFF or returns to OFF. -/
  | ttbEnableWrite (r : Requester) (en : Bool)
  /-- NOMF_WRITE (R91). A write of NOMF starts a new slew in FREERUN or OFF, or is stored for the next entry. -/
  | nomfWrite (r : Requester) (v : Word)
  /-- STMPC_READ (R78). A read of STMPC returns the cycle and copies angle and flags into the requester's STMPA
  shadow. -/
  | stmpcRead (r : Requester)
  /-- TICKLO_READ (R78). A read of TICKLO copies the high tick word into the requester's TICKHI shadow. -/
  | tickloRead (r : Requester)
  /-- WAYPOINT_BOUNDARY (R15). At each waypoint boundary the controller runs stages 1 to 8 in order. -/
  | waypointBoundary (x : WpInputs)
  /-- CYCLE_BOUNDARY (R93). At each angle wrap the cycle count advances and the cycle line is issued before the
  waypoint line. -/
  | cycleBoundary
  /-- CYCADJ_WRITE (R96). A write of CYCADJ sets ADJP and arms an adjustment for the next cycle boundary. -/
  | cycadjWrite (r : Requester) (v : Word)
  /-- SLOT_FIRE (R94). A slot fires when the angle reaches its match angle in an eligible cycle and asserts its line. -/
  | slotFire (n : Fin 16)
  /-- FAST_SAMPLE (R102). Every 5.12 us each precision chain delivers a fast sample to loops, integrators and tests. -/
  | fastSample (raw : List (BitVec 32))
  /-- SAR_CONVERSION (R111). The SAR converter completes a conversion of a supervision, phase-current or port input. -/
  | sarConversion (input : Fin 56) (code : BitVec 12) (gap : BitVec 16)
  /-- CAL_ROUND_START (R115). Every 2^CALPER cycles a continuous calibration round starts, or when the previous one
  ends. -/
  | calRoundStart
  /-- CAL_STALE (R118). A chain without a conversion pair within 4 x 2^CALPER cycles becomes STALE with code 0x1012. -/
  | calStale (chain : Fin 24)
  /-- CAL_ROUND_ALL (R119). CAL OPCMD 0x01 calibrates every present chain once. -/
  | calRoundAll (r : Requester)
  /-- CAL_ONE_CHAIN (R119). CAL OPCMD 0x02 calibrates one chain. -/
  | calOneChain (r : Requester) (arg : Word)
  /-- CHGF_LO_READ (R126). A read of CHGF_LO copies the selected channel's eight live words into the requester's
  shadow. -/
  | chgfLoRead (r : Requester)
  /-- MET_CLEAR_ACCUMULATORS (R127). MET OPCMD 0x01 clears the selected channels' accumulators at the next waypoint
  boundary. -/
  | metClearAccumulators (r : Requester) (mask : Word)
  /-- SNAPCTL_WRITE (R130). A write of SNAPCTL arms a snapshot, marking it late when its target is already past. -/
  | snapctlWrite (r : Requester) (v : Word)
  /-- SNAPREL_WRITE (R128). A write of SNAPREL frees the named snapshot banks. -/
  | snaprelWrite (r : Requester) (v : Word)
  /-- LOOP_FRAME (R137). At each PWM frame boundary a loop takes its inputs, commits mode requests and computes its
  duty. -/
  | loopFrame (x : Fin 4) (net : Option (BitVec 16))
  /-- FEEDBACK_LOST (R161). No fast sample for 20.48 us or four saturated samples move an AUTO loop to MANUAL with
  FBFLT. -/
  | feedbackLost (x : Fin 4)
  /-- RIPPLE_TABLE_CLEAR (R167). MARx OPCMD 0x01 clears the ripple table and RFCNT at the next cycle boundary. -/
  | rippleTableClear (r : Requester) (x : Fin 4)
  /-- MODECMD_AUTO (R160). MODECMD AUTO requests a transfer from MANUAL to AUTO with a state preset. -/
  | modecmdAuto (r : Requester) (x : Fin 4)
  /-- MODECMD_MANUAL (R160). MODECMD MANUAL requests a transfer from AUTO to MANUAL keeping the duty. -/
  | modecmdManual (r : Requester) (x : Fin 4)
  /-- MODECMD_RELOAD (R142). MODECMD.RELOAD reloads the working string with a state preset at the next frame boundary.
  -/
  | modecmdReload (r : Requester) (x : Fin 4)
  /-- LOOP_ENABLE_WRITE (R160). Writing MARx.CTRL.ENABLE moves the loop into or out of OFF, or is refused while
  Hold-up or protection owns it. -/
  | loopEnableWrite (r : Requester) (x : Fin 4) (en : Bool)
  /-- LPER_WRITE (R169). A write of LPERx sets the frame period by mode, or refuses a PERIOD change while the loop
  runs. -/
  | lperWrite (r : Requester) (x : Fin 4) (v : Word)
  /-- PHCFG_LOOP_WRITE (R176). A write of PHCFGj.LOOP reassigns a phase while both loops are OFF or STANDBY, or is
  refused. -/
  | phcfgLoopWrite (r : Requester) (k : Fin 16) (v : Word)
  /-- HOLDOFF_EXPIRY (R182). The 256-frame shed hold-off ends. -/
  | holdoffExpiry (x : Fin 4)
  /-- DERATE_REQUEST_RELEASE (R189). The derate request ends after 256 frames at or below the limit. -/
  | derateRequestRelease (x : Fin 4)
  /-- PHASE_READMIT_TIMEOUT (R190). An open phase of a first or second detection becomes available again after 65 536
  frame periods. -/
  | phaseReadmitTimeout (k : Fin 16)
  /-- PHCLR_WRITE (R190). A host write of PHCLR clears open or failed-sense removals and latches, or is refused from
  engines and the loader. -/
  | phclrWrite (r : Requester) (v : Word)
  /-- OV_LATCH_SET (R192). The analogue over-voltage comparator sets the loop's latch, drives its phases LOW and trips
  the loop. -/
  | ovLatchSet (x : Fin 4) (above : Level)
  /-- OVCLR_WRITE (R193). A host write of OVCLR clears an over-voltage latch while the condition is absent, or is
  refused. -/
  | ovclrWrite (r : Requester) (v : Word)
  /-- VSEL_INVALID (R194). VSEL without an accepted value for 1 ms, or changing too often, is reported invalid. -/
  | vselInvalid
  /-- SETA_BLOCK (R195). Every 64 us a block of 64 SETA conversions gives a new fraction and validity. -/
  | setaBlock (sum : BitVec 18) (isOver : Level)
  /-- SETP_PERIOD (R196). A complete SETP input period gives a new fraction. -/
  | setpPeriod (thigh period : BitVec 32)
  /-- SETP_TIMEOUT (R196). SETP without an edge for 1 ms is reported invalid. -/
  | setpTimeout
  /-- SHARE_ENABLE_WRITE (R202). Writing SHR.CTRL.ENABLE enters FALLBACK or OFF, releasing ISHARE and queueing zero
  trims. -/
  | shareEnableWrite (r : Requester) (en : Bool)
  /-- SHARE_CADENCE (R204). At each cadence boundary Share updates its trims, queues VOUT_TRIM writes and moves
  between FALLBACK and ACTIVE. -/
  | shareCadence
  /-- LGRID_READ (R210). A read of CAP.LGRID copies LGRID to LANG into the requester's shadow. -/
  | lgridRead (r : Requester)
  /-- GRIDE_LO_READ (R210). A read of GRIDE_LO copies the four Ledger energy words into the requester's shadow. -/
  | grideLoRead (r : Requester)
  /-- CAP_STEP_ADVANCE (R212). Cap enters the next ladder step when the step reaches its end or Over stays positive
  for STEPWP waypoints. -/
  | capStepAdvance
  /-- CAP_STEP_RELEASE (R212). After RELWP waypoints below the release level Cap gives back the highest step. -/
  | capStepRelease
  /-- CAP_SURPLUS (R219). LSURP positive for SURPWP waypoints raises charging targets or sets SURPLUS and recovery
  allowances. -/
  | capSurplus
  /-- CAP_DERATE_NORESP (R215). A cassette not following its derate within DRESP waypoints is marked NORESP and its
  share passes to step 4. -/
  | capDerateNoresp (ctx : Fin 128)
  /-- CAP_ENABLE_WRITE (R211). Writing CAP.CTRL.ENABLE to 0 releases every applied step and writes back kept limits. -/
  | capEnableWrite (r : Requester) (en : Bool)
  /-- HOLDUP_ENABLE_WRITE (R221). Writing HLD.CTRL.ENABLE enters ARMED, NOTREADY or OFF, handing back owned loops. -/
  | holdupEnableWrite (r : Requester) (en : Bool)
  /-- HOLDUP_RETURN_START (R221). After RETDLY, SAGHOLD or the test count Hold-up enters RETURN and begins the
  rectifier ramp. -/
  | holdupReturnStart
  /-- HOLDUP_RAMP_STEP (R223). Every RAMPDIV waypoints in RETURN the rectifier command rises by RAMPSTEP. -/
  | holdupRampStep
  /-- HOLDUP_RAMPLO_REPEAT (R223). Every 256 waypoints in CARRY RAMPLO is written again to rectifiers whose last write
  failed. -/
  | holdupRamploRepeat
  /-- HOLDUP_RETURN_TIMEOUT (R221). RETURN without completion for RETTO waypoints goes back to CARRY with RETTO. -/
  | holdupReturnTimeout
  /-- HOLDUP_TEST (R225). HLD OPCMD 0x01 tests the transfer with mains present by a cause 3 trigger. -/
  | holdupTest (r : Requester) (arg : Word)
  /-- MONITOR_STEP (R234). Every 2 us each domain takes a monitor step: thermal model, ramp control, limits and
  thermal trip. -/
  | monitorStep (n : Fin 12) (x : MonIn)
  /-- PRESENCE_GAINED (R237). Sixteen low PRSn samples gain presence and start the insertion delay. -/
  | presenceGained (n : Fin 12)
  /-- PRESENCE_LOST (R237). Sixteen high PRSn samples lose presence and move the domain to EMPTY. -/
  | presenceLost (n : Fin 12)
  /-- INSERTION_DELAY_END (R238). The insertion delay ends and the domain enters RAMP. -/
  | insertionDelayEnd (n : Fin 12)
  /-- GATE_OFF_WAIT_END (R239). The 1 ms with the gate off ends and the domain enters INSERT. -/
  | gateOffWaitEnd (n : Fin 12)
  /-- DOMAIN_SHORT_CIRCUIT (R241). The short-circuit comparator pulls the gate down within 200 ns and trips the domain
  with cause 1. -/
  | domainShortCircuit (n : Fin 12) (since : BitVec 9)
  /-- DOMAIN_REVERSE_SHORT (R241). The reverse-short comparator trips the domain with cause 6. -/
  | domainReverseShort (n : Fin 12) (since : BitVec 9)
  /-- DOMAIN_BREAKER_TRIP (R241). Forward current at or above BRKLVL for BRKT trips the domain with cause 2. -/
  | domainBreakerTrip (n : Fin 12)
  /-- DOMAIN_LIMIT_TIMEOUT (R241). The limit amplifier regulating for LIMT trips the domain with cause 3. -/
  | domainLimitTimeout (n : Fin 12)
  /-- DOMAIN_RAMP_TIMEOUT (R240). A ramp not ended within its timeout trips the domain with cause 5. -/
  | domainRampTimeout (n : Fin 12)
  /-- DOMAIN_RETRY_START (R245). After the off-time and with the model cooled, the domain retries into RAMP or stays
  waiting. -/
  | domainRetryStart (n : Fin 12)
  /-- DOMAIN_RCNT_RESET (R245). Ten seconds of continuous ON return RCNT to 0. -/
  | domainRcntReset (n : Fin 12)
  /-- DOMAIN_REVERSE_BLOCK (R247). Reverse current above RBLK turns the gate off and sets BLOCK with code 0x300A. -/
  | domainReverseBlock (n : Fin 12) (cur : BitVec 16)
  /-- DOMAIN_REVERSE_REENABLE (R247). OUTn below the bus less RDV for 4 monitor steps re-enhances the gate and clears
  BLOCK. -/
  | domainReverseReenable (n : Fin 12)
  /-- DOMAIN_DAMAGED_FET (R248). SRCn or OUTn above DMGLVL for 64 steps with the gate off sets DAMAGED. -/
  | domainDamagedFet (n : Fin 12)
  /-- DOMAIN_CLEAR_LATCH (R249). A host write of DCLR.CLRL clears LATCHED and RCNT. -/
  | domainClearLatch (r : Requester) (n : Fin 12)
  /-- DOMAIN_CLEAR_DAMAGE (R249). A host write of DCLR.CLRD clears DAMAGED and restarts the test delay. -/
  | domainClearDamage (r : Requester) (n : Fin 12)
  /-- DOMAIN_EN_WRITE (R250). A write of GCTLn.EN enables or disables the domain, or is refused or held against
  protection. -/
  | domainEnWrite (r : Requester) (n : Fin 12) (en : Bool)
  /-- DOMAIN_LEVEL_WRITE (R235). A level write takes effect at the next monitor step or sets CFGERR. -/
  | domainLevelWrite (r : Requester) (n : Fin 12) (which : Fin 3) (v : Word)
  /-- DOM_PAGE_ENABLE_WRITE (R236). Writing a DOM page's CTRL.ENABLE to 0 puts its domains in OFF with gates
  high-impedance. -/
  | domPageEnableWrite (r : Requester) (p : Fin 3) (en : Bool)
  /-- PORT_ENABLE_WRITE (R259). Writing PDn.CTRL.ENABLE leaves or enters DISABLED. -/
  | portEnableWrite (r : Requester) (n : Fin 8) (en : Bool)
  /-- CC_TERMINATION_CHANGE (R259). A change of the terminations seen on CC moves the Type-C state machine. -/
  | ccTerminationChange (n : Fin 8) (cc1 cc2 : Term)
  /-- TCC_DEBOUNCE_EXPIRY (R260). tCCDebounce ends with the termination stable, attaching the port. -/
  | tccDebounceExpiry (n : Fin 8)
  /-- TPD_DEBOUNCE_EXPIRY (R260). tPDDebounce ends with the termination lost, returning the port to unattached. -/
  | tpdDebounceExpiry (n : Fin 8)
  /-- TTRYCC_DEBOUNCE_EXPIRY (R260). tTryCCDebounce ends in a try state, attaching the port. -/
  | ttryccDebounceExpiry (n : Fin 8)
  /-- TDRP_TOGGLE (R260). The Rp or Rd phase of tDRP ends and a DRP port toggles. -/
  | tdrpToggle (n : Fin 8)
  /-- TDRPTRY_EXPIRY (R260). tDRPTry ends in a try state. -/
  | tdrptryExpiry (n : Fin 8)
  /-- ERROR_RECOVERY_END (R260). tErrorRecovery ends and the port enters an unattached state. -/
  | errorRecoveryEnd (n : Fin 8)
  /-- SRC_DISCONNECT_EXPIRY (R260). Rd absent for tSRCDisconnect detaches a source. -/
  | srcDisconnectExpiry (n : Fin 8)
  /-- SINK_DETACH (R261). VBSn below the disconnect level detaches a sink. -/
  | sinkDetach (n : Fin 8)
  /-- VCONN_FAULT (R263). VCONN current above VCLIM opens the switch and sets VCFLT with code 0x4012. -/
  | vconnFault (n : Fin 8) (cur : BitVec 8)
  /-- PORT_INSERTION_DELAY_END (R264). PINSDLY ends and the port enters PRIME with the stage at 5 V and the guard off.
  -/
  | portInsertionDelayEnd (n : Fin 8)
  /-- PRIME_END (R264). PRIME ends and the guard closes, raising VBUS at 5 V/ms. -/
  | primeEnd (n : Fin 8)
  /-- GUARD_DAMAGE_DETECT (R286). VBSn above DMGLVL for 64 conversions in PRIME enters DAMAGED with code 0x4008. -/
  | guardDamageDetect (n : Fin 8)
  /-- PD_MESSAGE_RECEIVED (R266). A received PD message is answered by CP2, consumed by a sequence or passed to E2
  with DECIDE. -/
  | pdMessageReceived (n : Fin 8) (x : PdMsg)
  /-- HARD_RESET_RECEIVED (R280). Received Hard Reset signalling starts the hard reset sequence. -/
  | hardResetReceived (n : Fin 8)
  /-- HARD_RESET_STEP (R280). A timed step of the hard reset sequence turns the stage and VCONN off or restores them. -/
  | hardResetStep (n : Fin 8)
  /-- POLICY_TIMEOUT (R267). E2 not answering within POLTO makes CP2 send the auto-reply with code 0x400E. -/
  | policyTimeout (n : Fin 8)
  /-- TXCTL_GO (R268). TXCTL.GO sends TXBUF on SOP or SOP', or is refused. -/
  | txctlGo (r : Requester) (n : Fin 8) (sopp : Bool)
  /-- TXCTL_HARD_RESET (R280). TXCTL.HRST sends a Hard Reset. -/
  | txctlHardReset (r : Requester) (n : Fin 8)
  /-- TXCTL_FRS (R279). TXCTL.FRS sends the Fast Role Swap signal as armed initial source, or is refused. -/
  | txctlFrs (r : Requester) (n : Fin 8)
  /-- PD_TRANSMIT_END (R265). A transmission ends sent, without GoodCRC after retries, or discarded. -/
  | pdTransmitEnd (n : Fin 8) (e : TxEnd)
  /-- RXCTL_POP (R296). RXCTL.POP drops the head of the receive queue. -/
  | rxctlPop (r : Requester) (n : Fin 8)
  /-- CABLE_DISCOVER_ATTEMPT (R272). CP2 sends Discover Identity on SOP' and stores the cable result from an ACK. -/
  | cableDiscoverAttempt (n : Fin 8) (ack : Option Word)
  /-- EPR_KEEPALIVE_SEND (R274). In EPR Mode as sink CP2 sends EPR_KeepAlive every 375 ms. -/
  | eprKeepaliveSend (n : Fin 8)
  /-- EPR_KEEPALIVE_TIMEOUT (R274). No EPR_KeepAlive for 900 ms makes a source exit EPR Mode by Hard Reset. -/
  | eprKeepaliveTimeout (n : Fin 8)
  /-- SRC_TRANSITION_START (R275). tSrcTransition after Accept ends and VSET moves toward the new target. -/
  | srcTransitionStart (n : Fin 8)
  /-- SRC_TRANSITION_SETTLED (R275). VBSn within 5 % for 100 us sends PS_RDY and updates CONTRACT. -/
  | srcTransitionSettled (n : Fin 8)
  /-- SRC_TRANSITION_TIMEOUT (R275). VBSn not in band in time makes CP2 send Hard Reset with code 0x4004. -/
  | srcTransitionTimeout (n : Fin 8)
  /-- SWAP_SEQUENCE_STEP (R276). A timed or awaited step of a PR_Swap, DR_Swap or VCONN_Swap sequence is performed. -/
  | swapSequenceStep (n : Fin 8)
  /-- SWAP_TIMEOUT (R276). A swap sequence missing PS_RDY or vSafe0V in time sends Hard Reset. -/
  | swapTimeout (n : Fin 8)
  /-- SOURCE_CAPS_DELAY_END (R276). 20 ms after its PS_RDY a new source sends Source_Capabilities. -/
  | sourceCapsDelayEnd (n : Fin 8)
  /-- FRS_SIGNAL_DETECTED (R278). The active CC below 0.52 V for 45 us is detected as the FRS signal. -/
  | frsSignalDetected (n : Fin 8)
  /-- FRS_VBUS_DROP (R278). After FRS detection VBSn below 4.75 V switches the stage to source at 5 V and sends
  FR_Swap. -/
  | frsVbusDrop (n : Fin 8)
  /-- FRS_ACCEPT_TIMEOUT (R278). No Accept within 30 ms of FR_Swap enters ERRREC. -/
  | frsAcceptTimeout (n : Fin 8)
  /-- FRS_SWAP_TIMEOUT (R279). No FR_Swap within 15 ms of the FRS signal enters ERRREC. -/
  | frsSwapTimeout (n : Fin 8)
  /-- GUARD_TRIP (R283). A guard comparator opens the guard within 1 us, turns the stage off and enters RETRY. -/
  | guardTrip (n : Fin 8) (x : GuardSeen)
  /-- PORT_PRESENCE_LOST (R283). No termination for 2 x tDRP in RETRY or LATCHED loses presence, clearing the latch. -/
  | portPresenceLost (n : Fin 8)
  /-- GUARD_RETRY_END (R284). RETRY ends, RCNT rises and the port re-attaches through ERRREC, or latches. -/
  | guardRetryEnd (n : Fin 8)
  /-- GUARD_RCNT_RESET (R284). Ten seconds of explicit contract without a trip return RCNT to 0. -/
  | guardRcntReset (n : Fin 8)
  /-- PORT_CLEAR_LATCH (R287). A host write of CLR.CLRL clears LATCHED and RCNT and enters ERRREC. -/
  | portClearLatch (r : Requester) (n : Fin 8)
  /-- PORT_CLEAR_DAMAGE (R287). A host write of CLR.CLRD clears DAMAGED and enters ERRREC. -/
  | portClearDamage (r : Requester) (n : Fin 8)
  /-- PORT_CLEAR_VCONN (R287). A host write of CLR.CLRV clears VCFLT. -/
  | portClearVconn (r : Requester) (n : Fin 8)
  /-- STATUS_POLL (R290). Every SPOLL cycles in an explicit contract CP2 sends Get_Status. -/
  | statusPoll (n : Fin 8)
  /-- STATUS_POLL_MISS (R290). A Get_Status without Status within 27 ms counts one miss for the port context. -/
  | statusPollMiss (n : Fin 8)
  /-- REST_QUALIFIED (R308). A rest of RESTT minutes qualifies and may re-anchor the charge count. -/
  | restQualified (n : Fin 4)
  /-- ESTIMATOR_START (R305). Once the store and record are read and a clean waypoint arrives, the estimator sets Q
  from vcomp with LOWCONF. -/
  | estimatorStart (n : Fin 4)
  /-- BATTERY_ENABLE_WRITE (R301). Writing BATn.CTRL.ENABLE enters STARTUP or OFF, or is refused on an invalid
  configuration. -/
  | batteryEnableWrite (r : Requester) (n : Fin 4) (en : Bool)
  /-- SVC_REQ_TEST (R301). Writing SVC.REQ TEST enters the TEST service. -/
  | svcReqTest (r : Requester) (n : Fin 4)
  /-- SVC_REQ_NORMAL (R301). Writing SVC.REQ NORMAL leaves TEST for STARTUP, RECOVERY or NORMAL. -/
  | svcReqNormal (r : Requester) (n : Fin 4)
  /-- CAPACITY_TEST (R319). BAT OPCMD 0x01 runs a capacity test through a learning cycle. -/
  | capacityTest (r : Requester) (n : Fin 4)
  /-- SET_LEARNED_CAPACITY (R324). BAT OPCMD 0x02 sets QLRN and writes the record. -/
  | setLearnedCapacity (r : Requester) (n : Fin 4) (arg : Word)
  /-- PENDING_RECORD_COMMIT (R322). VIN above the brown-out level for 100 ms issues the pending learned-value record
  write. -/
  | pendingRecordCommit (n : Fin 4)
  /-- RAIL_FAULT (R331). The window comparator latches a rail fault and acts by FACT. -/
  | railFault (n : Fin 24) (x : RailSeen)
  /-- RAIL_FAULT_CLEAR (R334). A host write of FCLR clears a fault latch while the rail is inside the window, or is
  refused. -/
  | railFaultClear (r : Requester) (v : BitVec 24) (codes : List (BitVec 12))
  /-- SEQ_STEP_TIMEOUT (R336). A step's PGTO, DISTO or WAITEV timeout expires, failing or completing it. -/
  | seqStepTimeout
  /-- INPUT_LOSS_QUALIFIED (R338). INLOSS waypoints without the input good qualify input loss. -/
  | inputLossQualified
  /-- INPUT_RETURN_QUALIFIED (R338). INRET waypoints with the input good qualify input return. -/
  | inputReturnQualified
  /-- SEQ_CMD_UP (R339). SEQ CMD up starts power-up from DOWN or FAILED. -/
  | seqCmdUp (r : Requester)
  /-- SEQ_CMD_DOWN (R339). SEQ CMD down starts power-down or returns to DOWN. -/
  | seqCmdDown (r : Requester)
  /-- SEQ_ENABLE_WRITE (R339). Writing SEQ.CTRL.ENABLE enters DOWN or OFF. -/
  | seqEnableWrite (r : Requester) (en : Bool)
  /-- SEQ_RETRY_DELAY_END (R339). RETRYDLY in RETRYWAIT ends and power-up starts again with the input good. -/
  | seqRetryDelayEnd
  /-- TEMP_CONVERSION (R343). The diode sensor converts every 1 ms, or reports a sensor fault. -/
  | tempConversion (t : BitVec 16) (fault : Bool)
  /-- TEMP_SAMPLE (R344). Every 64 ms TEMP updates, and the throttle level, rate check, warning and NVMOK are
  re-judged. -/
  | tempSample
  /-- ADD (R361). rd takes ra + rb modulo 2^32. -/
  | add (x : Fin 8) (f : BitVec 26)
  /-- SUB (R361). rd takes ra - rb. -/
  | sub (x : Fin 8) (f : BitVec 26)
  /-- AND (R361). rd takes ra AND rb. -/
  | and (x : Fin 8) (f : BitVec 26)
  /-- OR (R361). rd takes ra OR rb. -/
  | or (x : Fin 8) (f : BitVec 26)
  /-- XOR (R361). rd takes ra XOR rb. -/
  | xor (x : Fin 8) (f : BitVec 26)
  /-- SHL (R361). rd takes ra shifted left by rb[4:0]. -/
  | shl (x : Fin 8) (f : BitVec 26)
  /-- SHR (R361). rd takes ra shifted right by rb[4:0] with zeros in. -/
  | shr (x : Fin 8) (f : BitVec 26)
  /-- ASR (R361). rd takes ra shifted right by rb[4:0] with sign in. -/
  | asr (x : Fin 8) (f : BitVec 26)
  /-- MUL (R361). rd takes the low 32 bits of ra x rb. -/
  | mul (x : Fin 8) (f : BitVec 26)
  /-- MULH (R361). rd takes the high 32 bits of the signed product. -/
  | mulh (x : Fin 8) (f : BitVec 26)
  /-- MULHU (R361). rd takes the high 32 bits of the unsigned product. -/
  | mulhu (x : Fin 8) (f : BitVec 26)
  /-- MIN (R361). rd takes the signed minimum of ra and rb. -/
  | min (x : Fin 8) (f : BitVec 26)
  /-- MAX (R361). rd takes the signed maximum of ra and rb. -/
  | max (x : Fin 8) (f : BitVec 26)
  /-- ADDS (R361). rd takes ra + rb saturated to signed 32 bits. -/
  | adds (x : Fin 8) (f : BitVec 26)
  /-- SUBS (R361). rd takes ra - rb saturated. -/
  | subs (x : Fin 8) (f : BitVec 26)
  /-- DIV (R361). rd takes ra / rb truncated, signed or unsigned, with defined results for zero divisors. -/
  | div (x : Fin 8) (f : BitVec 26)
  /-- ADDI (R361). rd takes ra + sign-extended imm14. -/
  | addi (x : Fin 8) (f : BitVec 26)
  /-- ANDI (R361). rd takes ra AND zero-extended imm14. -/
  | andi (x : Fin 8) (f : BitVec 26)
  /-- ORI (R361). rd takes ra OR zero-extended imm14. -/
  | ori (x : Fin 8) (f : BitVec 26)
  /-- XORI (R361). rd takes ra XOR zero-extended imm14. -/
  | xori (x : Fin 8) (f : BitVec 26)
  /-- SHLI (R361). rd takes ra shifted left by imm14[4:0]. -/
  | shli (x : Fin 8) (f : BitVec 26)
  /-- SHRI (R361). rd takes ra shifted right by imm14[4:0] with zeros in. -/
  | shri (x : Fin 8) (f : BitVec 26)
  /-- ASRI (R361). rd takes ra shifted right by imm14[4:0] with sign in. -/
  | asri (x : Fin 8) (f : BitVec 26)
  /-- MOVL (R361). rd takes imm16 zero-extended. -/
  | movl (x : Fin 8) (f : BitVec 26)
  /-- MOVH (R361). rd[31:16] takes imm16 and rd[15:0] is kept. -/
  | movh (x : Fin 8) (f : BitVec 26)
  /-- CMP (R362). pd takes the condition of ra against rb. -/
  | cmp (x : Fin 8) (f : BitVec 26)
  /-- CMPI (R362). pd takes the condition of ra against imm10. -/
  | cmpi (x : Fin 8) (f : BitVec 26)
  /-- PSET (R361). pd takes a logic combination of pa and pb. -/
  | pset (x : Fin 8) (f : BitVec 26)
  /-- PRD (R361). rd takes the predicates p7 to p0. -/
  | prd (x : Fin 8) (f : BitVec 26)
  /-- PWR (R361). p7 to p1 take ra[7:1]. -/
  | pwr (x : Fin 8) (f : BitVec 26)
  /-- MFS (R370). rd takes a special register. -/
  | mfs (x : Fin 8) (f : BitVec 26)
  /-- MTS (R370). A writable special register takes ra. -/
  | mts (x : Fin 8) (f : BitVec 26)
  /-- LDW (R355). rd takes the word at ra + imm14 through the engine's data map. -/
  | ldw (x : Fin 8) (f : BitVec 26)
  /-- LDH (R355). rd takes a zero-extended half from RAM. -/
  | ldh (x : Fin 8) (f : BitVec 26)
  /-- LDHS (R355). rd takes a sign-extended half from RAM. -/
  | ldhs (x : Fin 8) (f : BitVec 26)
  /-- LDB (R355). rd takes a zero-extended byte from RAM. -/
  | ldb (x : Fin 8) (f : BitVec 26)
  /-- LDBS (R355). rd takes a sign-extended byte from RAM. -/
  | ldbs (x : Fin 8) (f : BitVec 26)
  /-- STW (R357). The word at ra + imm14 takes rd, through the write buffer for register space and NVM. -/
  | stw (x : Fin 8) (f : BitVec 26)
  /-- STH (R357). The half at ra + imm14 takes rd by read-modify-write. -/
  | sth (x : Fin 8) (f : BitVec 26)
  /-- STB (R357). The byte at ra + imm14 takes rd by read-modify-write. -/
  | stb (x : Fin 8) (f : BitVec 26)
  /-- SWAP (R361). The RAM word at ra and rd are exchanged atomically. -/
  | swap (x : Fin 8) (f : BitVec 26)
  /-- CAS (R361). The RAM word at ra takes rd if it equals rb, and rd takes the old word. -/
  | cas (x : Fin 8) (f : BitVec 26)
  /-- RGET (R361). rd takes the general register named by ra[3:0]. -/
  | rget (x : Fin 8) (f : BitVec 26)
  /-- RPUT (R361). The general register named by ra[3:0] takes rb. -/
  | rput (x : Fin 8) (f : BitVec 26)
  /-- BR (R361). PC moves by simm22 words. -/
  | br (x : Fin 8) (f : BitVec 26)
  /-- CALL (R361). g15 takes PC + 1 and PC moves by simm22 words. -/
  | call (x : Fin 8) (f : BitVec 26)
  /-- JR (R361). PC takes ra[11:0]. -/
  | jr (x : Fin 8) (f : BitVec 26)
  /-- UNDEFINED_OPCODE (R361). Opcode 0x2F traps with cause 3. -/
  | undefinedOpcode (x : Fin 8) (f : BitVec 26)
  /-- RESERVED_OPCODE (R369). Opcodes 0x38 to 0x3B trap with cause 1. -/
  | reservedOpcode (x : Fin 8) (op : Fin 4) (f : BitVec 26)
  /-- WFE (R364). The engine takes an awaited pending event bit or waits for one. -/
  | wfe (x : Fin 8) (f : BitVec 26)
  /-- WFE_WAKE (R364). A delivery sets an awaited bit and the waiting engine resumes with the line number. -/
  | wfeWake (x : Fin 8)
  /-- WFE_TIMEOUT (R364). A WFE wait ends after rb ticks with 0x100 in rd. -/
  | wfeTimeout (x : Fin 8)
  /-- SEV (R365). The engine pulses one of its software event lines. -/
  | sev (x : Fin 8) (f : BitVec 26)
  /-- WAITA (R366). The engine waits until the stamp reaches a target angle stamp. -/
  | waita (x : Fin 8) (f : BitVec 26)
  /-- WAITA_END (R366). An angle wait ends at its target, at a deferral or at a forward step, with flags in rd. -/
  | waitaEnd (x : Fin 8)
  /-- WAITT (R367). The engine waits until the tick counter reaches a target. -/
  | waitt (x : Fin 8) (f : BitVec 26)
  /-- WAITT_END (R367). A tick wait ends at its target. -/
  | waittEnd (x : Fin 8)
  /-- RDT (R368). rd takes the cycle, tick or shadowed angle and tick words. -/
  | rdt (x : Fin 8) (f : BitVec 26)
  /-- HALT (R374). The engine halts. -/
  | halt (x : Fin 8) (f : BitVec 26)
  /-- TRAP (R369). The TRAP instruction traps with cause 5. -/
  | trap (x : Fin 8) (f : BitVec 26)
  /-- ERET (R370). PC takes TEPC + 1 and HANDLER clears. -/
  | eret (x : Fin 8) (f : BitVec 26)
  /-- CP0_RD (R372). rd takes a MARx register. -/
  | cp0Rd (x : Fin 8) (f : BitVec 26)
  /-- CP0_WR (R372). A MARx register takes rb. -/
  | cp0Wr (x : Fin 8) (f : BitVec 26)
  /-- CP0_SNAP (R372). Four registers take INTEG, DUTY, ERR and ILOOP of one frame. -/
  | cp0Snap (x : Fin 8) (f : BitVec 26)
  /-- CP0_ACCUM (R372). A signed value is added to one ripple-table entry. -/
  | cp0Accum (x : Fin 8) (f : BitVec 26)
  /-- CP1_RD (R372). rd takes a MET register. -/
  | cp1Rd (x : Fin 8) (f : BitVec 26)
  /-- CP1_WR (R372). A MET register takes rb. -/
  | cp1Wr (x : Fin 8) (f : BitVec 26)
  /-- CP1_LIVE (R372). Two registers take both words of a live accumulator from one clock. -/
  | cp1Live (x : Fin 8) (f : BitVec 26)
  /-- CP1_SNAPRD (R372). Two registers take both words of an accumulator from a snapshot bank. -/
  | cp1Snaprd (x : Fin 8) (f : BitVec 26)
  /-- CP2_RD (R372). rd takes a PDn register. -/
  | cp2Rd (x : Fin 8) (f : BitVec 26)
  /-- CP2_WR (R372). A PDn register takes rb. -/
  | cp2Wr (x : Fin 8) (f : BitVec 26)
  /-- CP2_GO (R372). CP2 sends TXBUF, a Hard Reset or the FRS signal as the TXCTL write does. -/
  | cp2Go (x : Fin 8) (f : BitVec 26)
  /-- CP2_POP (R372). CP2 drops the head of the port's receive queue. -/
  | cp2Pop (x : Fin 8) (f : BitVec 26)
  /-- CP3_RD (R372). rd takes a CAP register. -/
  | cp3Rd (x : Fin 8) (f : BitVec 26)
  /-- CP3_WR (R372). A CAP register takes rb. -/
  | cp3Wr (x : Fin 8) (f : BitVec 26)
  /-- CP3_LDG (R372). Four registers take one group of the latest Ledger evaluation. -/
  | cp3Ldg (x : Fin 8) (f : BitVec 26)
  /-- CP3_TELEM (R373). Engine-fed telemetry sets HEALTH of a BUS 4 context as good telemetry. -/
  | cp3Telem (x : Fin 8) (f : BitVec 26)
  /-- CP3_TELEMB (R373). As TELEM, and PACKT and PACKV are written on every BAT page naming the context. -/
  | cp3Telemb (x : Fin 8) (f : BitVec 26)
  /-- STALL_END (R374). A stalled access, coprocessor or Depot put completes and the engine returns to RUN. -/
  | stallEnd (x : Fin 8)
  /-- ENGINE_ENABLE_WRITE (R374). Writing ENGx.CTRL.ENABLE starts the engine from OFF or stops it. -/
  | engineEnableWrite (r : Requester) (x : Fin 8) (en : Bool)
  /-- PDATA_ACCESS (R375). A PDATA read or write accesses program word PADDR and increments PADDR. -/
  | pdataAccess (r : Requester) (x : Fin 8) (wr : Option Word)
  /-- DDATA_ACCESS (R375). A DDATA read or write accesses data word DADDR and increments DADDR. -/
  | ddataAccess (r : Requester) (x : Fin 8) (wr : Option Word)
  /-- ENGINE_PROGRAM_LOAD (R376). ENG OPCMD 0x01 loads program RAM from the NVM window. -/
  | engineProgramLoad (r : Requester) (x : Fin 8) (arg : Word)
  /-- EVENT_LINE_EDGE (R382). A rising edge of an event line is delivered to its routed targets and latched. -/
  | eventLineEdge (n : BitVec 8)
  /-- GPIO_LEVEL_CHANGE (R384). A new GPIO level accepted after two samples drives its event line. -/
  | gpioLevelChange (k : Fin 32) (lvl : Level)
  /-- HSEV_WRITE (R385). Writing HSEV pulses the host event lines. -/
  | hsevWrite (r : Requester) (v : BitVec 8)
  /-- PUTTAG_WRITE (R390). A PUTTAG write makes an entry in the requester's source, stalling an engine whose queue is
  full. -/
  | puttagWrite (r : Requester) (tag : BitVec 8)
  /-- TAKE0_READ (R394). A TAKE0 read removes or reserves the selected head and shadows its words. -/
  | take0Read (r : Requester)
  /-- TAKE_RESERVATION_LAPSE (R395). A reservation not taken within 10 ms returns the entry with code 0xA032. -/
  | takeReservationLapse (r : Requester)
  /-- DEPOT_FLUSH (R396). DEP OPCMD 0x01 discards the entries of the selected sources. -/
  | depotFlush (r : Requester) (arg : Word)
  /-- NVM_WINDOW_WRITE (R410). A window write merges into the write buffer or page latch, or is refused. -/
  | nvmWindowWrite (r : Requester) (off : BitVec 19) (v : Word)
  /-- NVM_COMMIT (R411). NVM OPCMD 0x01 commits the write buffer page by page. -/
  | nvmCommit (r : Requester)
  /-- NVM_DISCARD (R412). NVM OPCMD 0x02 discards the write buffer. -/
  | nvmDiscard (r : Requester)
  /-- NVM_SEAL (R416). NVM OPCMD 0x03 writes a seal entry to the journal. -/
  | nvmSeal (r : Requester)
  /-- NVM_RECORD_WRITE (R421). NVM OPCMD 0x04 writes a two-bank record from RECBUF. -/
  | nvmRecordWrite (r : Requester) (arg : Word)
  /-- NVM_RECORD_READ (R420). NVM OPCMD 0x05 reads a two-bank record into RECBUF. -/
  | nvmRecordRead (r : Requester) (arg : Word)
  /-- NVM_RECALL_SCAN (R418). NVM OPCMD 0x06 runs the recall scan on demand. -/
  | nvmRecallScan (r : Requester)
  /-- NVM_SET_REGION (R403). NVM OPCMD 0x07 changes a region of the region table. -/
  | nvmSetRegion (r : Requester) (arg : Word)
  /-- NVM_SET_PASSWORD (R406). NVM OPCMD 0x08 sets a region password. -/
  | nvmSetPassword (r : Requester) (arg : Word)
  /-- NVM_WORD_WRITE_END (R411). A storage word write completes and the writing operation starts its next word or
  page. -/
  | nvmWordWriteEnd
  /-- BROWNOUT_FALL (R407). VIN below BOWLVL stops new word writes and writes a brown-out seal when idle. -/
  | brownoutFall (vin : BitVec 16)
  /-- BROWNOUT_RECOVER (R407). VIN rising to BOWLVL + HYS permits writes again and resumes waiting operations. -/
  | brownoutRecover (vin : BitVec 16)
  /-- RECALL_SCAN_END (R417). The recall scan ends, the store becomes READY and ev106 pulses with code 0x8001. -/
  | recallScanEnd
  /-- PWD_WRITE (R406). A PWD write opens, closes or fails a region password for the requester. -/
  | pwdWrite (r : Requester) (v : Word)
  /-- PASSWORD_BAR_EXPIRY (R406). The 1 s password bar on a requester ends. -/
  | passwordBarExpiry (r : Requester)
  /-- NVM_MODE_WRITE (R423). A write of NVM.CFG.MODE switches the interface when buffer and latch are empty, or is
  dropped. -/
  | nvmModeWrite (r : Requester) (v : Word)
  /-- CPCMD_GO (R424). CPCMD.GO starts a compatibility page write, or sets CPSTAT.ERR. -/
  | cpcmdGo (r : Requester) (page : BitVec 11)
  /-- OVL_SWCTL_ARM (R428). Writing OVL.SWCTL with ARM preloads an overlay for a mode switch. -/
  | ovlSwctlArm (r : Requester) (v : Word)
  /-- OVERLAY_PRELOAD_END (R428). The overlay preload check completes, setting PRELOADED or CRCERR. -/
  | overlayPreloadEnd
  /-- SCRUB_WORD (R442). Every INTV us the scrubber reads one word and writes back a corrected one. -/
  | scrubWord (upset : BitVec 120) (stuck : Bool)
  /-- ECC_LOG_EMPTY (R439). ECC OPCMD 0x01 empties the correction log. -/
  | eccLogEmpty (r : Requester)
  /-- ECC_CLEAR_WORD (R441). ECC OPCMD 0x02 writes zero data with valid check bytes to one word. -/
  | eccClearWord (r : Requester) (arg : Word)
  /-- SCRUB_PASS (R448). SCB OPCMD 0x01 runs one scrub pass. -/
  | scrubPass (r : Requester) (arg : Word)
  /-- ADD_SOFT_SPARE (R445). SCB OPCMD 0x02 moves a row to a spare and writes the soft map. -/
  | addSoftSpare (r : Requester) (arg : Word)
  /-- RECORD_WRITE (R457). A queued record is written into the next slot between page writes, stopping the recorder
  when full. -/
  | recordWrite
  /-- RATE_LIMIT_REFILL (R455). A rate-limit bucket gains one token every REFILL x 10 ms. -/
  | rateLimitRefill (code : BitVec 16)
  /-- RECORDER_START (R459). Once the store is READY and ENABLE is 1 the recorder reads its header, finds its end and
  writes code 0x8030. -/
  | recorderStart
  /-- RECORDER_HEADER_WRITE (R460). Every 1/16 h the recorder writes its header with operating hours. -/
  | recorderHeaderWrite
  /-- RECORDER_ENABLE_WRITE (R459). Writing REC.CTRL.ENABLE holds or resumes record writing. -/
  | recorderEnableWrite (r : Requester) (en : Bool)
  /-- RECORDER_CLEAR (R462). REC OPCMD 0x02 clears the records and writes code 0x8031. -/
  | recorderClear (r : Requester)
  /-- RECORDER_SEARCH (R464). REC OPCMD 0x01 searches for the first record matching the filter. -/
  | recorderSearch (r : Requester) (arg : Word)
  /-- RD0_READ (R463). A read of RD0 copies the indexed record into the requester's shadow. -/
  | rd0Read (r : Requester)
  /-- PUTCODE_WRITE (R465). A PUTCODE write records a software record, or is refused. -/
  | putcodeWrite (r : Requester) (v : Word)
  /-- BBX_TRIG_GO (R470). Writing BBX.TRIG.GO gives a software capture trigger. -/
  | bbxTrigGo (r : Requester)
  /-- BBX_SLOT_WRITE_END (R473). A frozen capture's slot write completes with ev111 and code 0x8033. -/
  | bbxSlotWriteEnd
  /-- BBX_ENABLE_WRITE (R469). Writing BBX.CTRL.ENABLE enters FILL or OFF. -/
  | bbxEnableWrite (r : Requester) (en : Bool)
  /-- BBX_SLOTREL_WRITE (R474). A host write of SLOTREL writes the slots' headers free. -/
  | bbxSlotrelWrite (r : Requester) (v : BitVec 8)
  /-- BBX_CHCFG_WRITE (R468). A write of CHCFGc sets a channel source, or is refused. -/
  | bbxChcfgWrite (r : Requester) (c : Fin 16) (v : Word)
  /-- BBX_SLOT_INFO (R478). BBX OPCMD 0x01 returns a slot's capture information. -/
  | bbxSlotInfo (r : Requester) (arg : Word)
  /-- BBX_SLOT_CHANNEL_MAP (R478). BBX OPCMD 0x02 returns a slot's channel map and sequence. -/
  | bbxSlotChannelMap (r : Requester) (arg : Word)
  /-- HEARTBEAT_RECEIVED (R483). A good heartbeat is taken, bringing the link up and evaluating the mastership rule
  and cycle alignment. -/
  | heartbeatReceived (payload : List Byte) (skew : BitVec 32) (pmsi : Level)
  /-- UTTIA_BAD_FRAME (R481). A frame with a code, CRC, type or length error is discarded and counted. -/
  | uttiaBadFrame (type : BitVec 8)
  /-- HEARTBEAT_LOST (R483). No heartbeat for HBTO makes the link down with code 0x9002. -/
  | heartbeatLost (pmsi : Level)
  /-- MIRROR_SEND (R490). Every 100 us the master captures and sends a mirror frame. -/
  | mirrorSend
  /-- MIRROR_RECEIVED (R491). A mirror frame is taken and MCNT and MVALID are updated. -/
  | mirrorReceived (payload : List Byte)
  /-- AUTO_HANDOVER_START (R487). With AUTOHO a master starts a handover after the partner's score exceeds its own by
  2 for 1 s. -/
  | autoHandoverStart
  /-- CLAIM_DELAY_EXPIRY (R488). A standby without any heartbeat becomes master once PMSI has stayed low for CLAIMDLY.
  -/
  | claimDelayExpiry
  /-- DUAL_MASTERSHIP (R489). A master seeing PMSI high for 4 us with the link down resolves the dual mastership by
  PPOS. -/
  | dualMastership
  /-- PMSI_FALL_TAKEOVER (R493). PMSI low for 2 us makes a standby master by cause 1. -/
  | pmsiFallTakeover
  /-- ACTIVITY_WINDOW_END (R493). ACTWIN after heartbeat loss with PMSI high ends in a cause 3 takeover or a link
  fault. -/
  | activityWindowEnd
  /-- HANDOVER (R498). PAIR OPCMD 0x01 hands mastership to the partner. -/
  | handover (r : Requester)
  /-- HANDOVER_FRAME_RECEIVED (R499). A standby receiving the handover frame sends the acknowledge. -/
  | handoverFrameReceived (payload : List Byte)
  /-- HANDOVER_ACK_RECEIVED (R499). The master receiving the acknowledge changes to standby and completes the
  handover. -/
  | handoverAckReceived
  /-- HANDOVER_ACK_TIMEOUT (R499). No acknowledge within 1 ms ends the handover with reason 0x14 and code 0x9008. -/
  | handoverAckTimeout
  /-- HANDOVER_PMSI_TIMEOUT (R499). A standby whose PMSI does not fall within 10 us of its acknowledge stays standby. -/
  | handoverPmsiTimeout
  /-- POWER_ON_RESET (R503). VIN below the POR threshold resets the chip. -/
  | powerOnReset
  /-- PIN_RESET (R503). RST# low for at least 200 ns resets the chip. -/
  | pinReset
  /-- CLOCK_FAIL_RESET (R503). No reference edge for 1 us resets the chip. -/
  | clockFailReset
  /-- CORE_FAULT_RESET (R503). The core supply below 0.81 V for 2 us resets the chip. -/
  | coreFaultReset
  /-- THERMAL_SHUTDOWN (R503). Tj at or above 155 C resets the chip until it cools below 135 C. -/
  | thermalShutdown
  /-- RESET_RELEASE (R505). At reset release the causes are recorded, straps sampled, the tick counter started and the
  journal read. -/
  | resetRelease (straps : BitVec 5)
  /-- STORE_READY (R417). A clean store becomes READY and the soft spare map is applied. -/
  | storeReady
  /-- BASE_CONFIG_APPLY (R426). The configuration loader applies the base configuration entries in order. -/
  | baseConfigApply
  /-- STARTMODE_OVERLAY_APPLY (R507). In boot phase 4 the loader checks and writes overlay STARTMODE at once. -/
  | startmodeOverlayApply
  /-- RUN_ENTRY (R508). Run is entered: the output hold is released, Pairing is released and a solo controller takes
  its role. -/
  | runEntry
  /-- VSEL_VALUE_ACCEPTED (R194). Sixteen identical 1 us samples of VSEL2:VSEL0 accept a value n, changing the
  set-point used by every loop with SPSRC = 01 and restoring VALID. -/
  | vselValueAccepted (n : Fin 8) (run : BitVec 8)
  /-- MIRROR_TIMEOUT (R491). No good mirror within 150 us of the previous one sets MCNT to 0 and clears MVALID. -/
  | mirrorTimeout
deriving DecidableEq, Repr

end Sys2Proof
end

