-- ==== Sys2Proof/WellFormed.lean ====
section
/-! DEFINITION. Which commands are well formed: lists have the length that what they list gives, addresses are those of
words, a coprocessor row's word carries the row's function, a line's first letter is its row's. The meanings are defined
on every command; a sender sends well-formed ones. -/

namespace Sys2Proof

/-- The integrals of a waypoint: 24 chains, 16 channels with a voltage source, 8 ports, and the 24 chains'
conversions. DESIGN CHOICE, safe (log 12). -/
def WpInputs.wf (x : WpInputs) : Bool :=
  x.raw.length == 24 && x.prod.length == 16 && x.portI.length == 8 && x.portV.length == 8 && x.portP.length == 8 &&
    x.cal.length == 24

/-- What a tracking update sees: a frequency for each of the four bandwidths, and the three inputs. DESIGN CHOICE,
safe (log 12). -/
def Sense.wf (x : Sense) : Bool := x.freqs.length == 4 && x.ampPair.length == 3 && x.peak.length == 3

/-- FN of a coprocessor word is the row's own (R371). DEDUCED, safe (log 72). -/
def fnIs (f : BitVec 26) (n : Nat) : Bool := f.toNat / 16 % 64 == n

/-- FN of a coprocessor word is 0, or one that the block of `count` functions does not have (R371). DEDUCED, safe (log
72). -/
def fnReads (f : BitVec 26) (count : Nat) : Bool := fnIs f 0 || decide (count ≤ f.toNat / 16 % 64)

/-- How a transaction ends: data of at most 24 bytes (R67). -/
def BusEnd.wf : BusEnd → Bool
  | .good data => decide (data.length ≤ 24)
  | _ => true

/-- The check of a command's operands. DEDUCED, safe (log 7); DEDUCED, safe (log 72); DESIGN CHOICE, safe (log 93). -/
def Instr.wf : Instr → Bool
  | .registerWrite _ addr _ => addr.toNat % 4 == 0
  | .rsRegisterRead _ addr => addr.toNat % 4 == 0 && decide (addr.toNat < 0x10000)
  | .nvmWindowWrite _ off _ => off.toNat % 4 == 0
  | .spiPartialFrame nbits => nbits != 0
  | .i2cWrite bytes => !bytes.isEmpty
  | .i2cRead bytes _ => bytes.length == 5
  | .uartReadLine line => line.head? != some 0x77
  | .uartWriteLine line => line.head? == some 0x77
  | .pmbusTransactionEnd e _ => e.wf
  | .pmbusSnoopResponse _ _ _ data => decide (data.length ≤ 24)
  | .trackingUpdate x cut => x.wf && cut.wf
  | .waypointBoundary x => x.wf
  | .fastSample raw => raw.length == 24
  | .railFaultClear _ _ codes => codes.length == 24
  | .setpPeriod thigh period => decide (thigh.toNat ≤ period.toNat)
  | .pdMessageReceived _ x => decide (x.data.length ≤ 260)
  | .cp0Rd _ f => fnReads f 4
  | .cp0Wr _ f => fnIs f 1
  | .cp0Snap _ f => fnIs f 2
  | .cp0Accum _ f => fnIs f 3
  | .cp1Rd _ f => fnReads f 4
  | .cp1Wr _ f => fnIs f 1
  | .cp1Live _ f => fnIs f 2
  | .cp1Snaprd _ f => fnIs f 3
  | .cp2Rd _ f => fnReads f 4
  | .cp2Wr _ f => fnIs f 1
  | .cp2Go _ f => fnIs f 2
  | .cp2Pop _ f => fnIs f 3
  | .cp3Rd _ f => fnReads f 5
  | .cp3Wr _ f => fnIs f 1
  | .cp3Ldg _ f => fnIs f 2
  | .cp3Telem _ f => fnIs f 3
  | .cp3Telemb _ f => fnIs f 4
  | _ => true

end Sys2Proof
end

