-- ==== Sys2Proof/Config.lean ====
section
/-! DEFINITION. What the spec leaves open for the hardware to fill: constants without a body, applied to the fresh
number a step takes from the state. Nothing in Lean can evaluate them. -/

namespace Sys2Proof.Config

/-- A free 32-bit value (log 3): used where the spec gives a command its effect and states no value. DESIGN CHOICE,
safe (log 3). -/
opaque freeWord : Nat → BitVec 32

/-- The factory reference curve (R113): the factor in 2⁻³⁰ by which a chain's gain is scaled at a die temperature in
1/16 °C. The spec does not give the curve. DESIGN CHOICE, safe (log 9). -/
opaque gainCurve : Nat → Int → Nat

/-- The place of a unit's data that a storage word of the arrays 0x11–0x17 holds, numbered as `Chip.unitLost` numbers
them: the spec gives the arrays and their sizes, and not how a unit lays its data out in them. DESIGN CHOICE, unsafe
(log 58). -/
opaque ramWord : Nat → Nat → Nat

/-- The word of `PMBn.BUSSTAT` (R68) for a busy bus, a stuck SDA and a low SMBALERT#: the spec gives the register's
contents and not the places of its bits. DESIGN CHOICE, safe (log 26). -/
opaque busStat : Bool → Bool → Bool → BitVec 32

/-- The word of `PMBn.ERRCNT` (R68) for counts of NACKs, PEC mismatches and timeouts: the spec gives the register's
contents and not the places of its bits. DESIGN CHOICE, safe (log 26). -/
opaque errCnt : Nat → Nat → Nat → BitVec 32

end Sys2Proof.Config
end

