-- ==== Sys2Proof/Machine/Bits.lean ====
section
/-! DEFINITION. Bit-field, sign and rounding helpers, the access types of R11, the description of one register field,
and the canonical sparse map that holds the register file and every memory. -/

namespace Sys2Proof.Machine

/-- Bits `[lo + wd - 1 : lo]` of a natural number. -/
def bitsOf (n lo wd : Nat) : Nat := (n >>> lo) % 2 ^ wd

/-- `n` with bits `[lo + wd - 1 : lo]` replaced by `v`. -/
def setBits (n lo wd v : Nat) : Nat :=
  n - (bitsOf n lo wd) <<< lo + (v % 2 ^ wd) <<< lo

/-- Bit `i` of a natural number. -/
def bit (n i : Nat) : Bool := n.testBit i

/-- A number with bit `i` set, the others kept. -/
def setBit (n i : Nat) : Nat := n ||| (1 <<< i)

/-- A number with bit `i` cleared, the others kept. -/
def clearBit (n i : Nat) : Nat := if n.testBit i then n - 1 <<< i else n

/-- A Boolean as 1 or 0. -/
def b2n (b : Bool) : Nat := if b then 1 else 0

/-- The two's complement reading of the low `wd` bits. -/
def sx (wd n : Nat) : Int :=
  let r := n % 2 ^ wd
  if r < 2 ^ (wd - 1) then (r : Int) else (r : Int) - (2 ^ wd : Nat)

/-- The low `wd` bits of an integer in two's complement. -/
def ux (wd : Nat) (x : Int) : Nat := (x % ((2 ^ wd : Nat) : Int)).toNat

/-- `x` limited to `lo … hi`. -/
def clampI (lo hi x : Int) : Int := if x < lo then lo else if hi < x then hi else x

/-- `x` limited to `lo … hi`. -/
def clampN (lo hi x : Nat) : Nat := if x < lo then lo else if hi < x then hi else x

/-- `x` limited to the signed `wd`-bit range. -/
def satS (wd : Nat) (x : Int) : Int :=
  clampI (-((2 ^ (wd - 1) : Nat) : Int)) (((2 ^ (wd - 1) : Nat) : Int) - 1) x

/-- A count of `wd` bits that saturates at its largest value. -/
def satInc (wd n : Nat) : Nat := if n + 1 < 2 ^ wd then n + 1 else 2 ^ wd - 1

/-- A sum limited to `wd` unsigned bits. -/
def satU (wd n : Nat) : Nat := if n < 2 ^ wd then n else 2 ^ wd - 1

/-- Absolute value as a natural number. -/
def absI (x : Int) : Nat := x.natAbs

/-- The larger of two integers. -/
def maxI (a b : Int) : Int := if a < b then b else a

/-- The smaller of two integers. -/
def minI (a b : Int) : Int := if a < b then a else b

/-- Division of integers rounded toward minus infinity, with 0 for a zero divisor. DESIGN CHOICE, unsafe (log 36). -/
def divFloor (a b : Int) : Int := Int.fdiv a b

/-- Division of integers rounded to nearest, halves away from zero, with 0 for a zero divisor. DESIGN CHOICE, unsafe
(log 36). -/
def divNear (a : Int) (b : Nat) : Int :=
  if b = 0 then 0
  else if 0 ≤ a then (a * 2 + b) / (2 * b) else -((-a * 2 + b) / (2 * b))

/-- The bits set in a mask below `n`, ascending. -/
def bitsUp (mask n : Nat) : List Nat := (List.range n).filter (fun i => mask.testBit i)

/-- The lowest bit set in a mask below `n`. -/
def lowBit (mask n : Nat) : Option Nat := (bitsUp mask n).head?

/-- Number of bits set in a mask below `n`. -/
def popCount (mask n : Nat) : Nat := (bitsUp mask n).length

/-- Replace the element at index `i` of a list. -/
def setAt {α : Type} (l : List α) (i : Nat) (v : α) : List α := l.set i v

/-- The access types of R11. `wol` is WO on a register that only an unlocked requester writes (WO, RWL). -/
inductive Acc where
  | ro | rw | rwl | w1c | wo | wol | rs
deriving DecidableEq, Repr

/-- One field of the field tables: byte offset of its register in the page, number of instances and their stride,
lowest bit, width, access type and reset value. -/
structure Fld where
  off : Nat
  cnt : Nat
  stride : Nat
  lo : Nat
  wd : Nat
  acc : Acc
  reset : Nat
deriving DecidableEq, Repr

/-- Does the field lie in the register at byte offset `o` of its page? -/
def Fld.covers (f : Fld) (o : Nat) : Bool :=
  decide (f.off ≤ o) && decide ((o - f.off) % f.stride = 0) && decide ((o - f.off) / f.stride < f.cnt)

/-- The field's bits as a mask. -/
def Fld.mask (f : Fld) : Nat := (2 ^ f.wd - 1) <<< f.lo

/-! ### Sparse maps in canonical form -/

/-- The entry of a key. -/
def Sparse.find {α : Type} : List (Nat × α) → Nat → Option α
  | [], _ => none
  | (k, v) :: t, a => if k = a then some v else Sparse.find t a

/-- Put an entry at its place in a list of strictly rising keys. -/
def Sparse.put {α : Type} : List (Nat × α) → Nat → α → List (Nat × α)
  | [], a, v => [(a, v)]
  | (k, w) :: t, a, v =>
    if a < k then (a, v) :: (k, w) :: t
    else if k = a then (a, v) :: t
    else (k, w) :: Sparse.put t a v

/-- Remove every entry of a key. -/
def Sparse.drop {α : Type} : List (Nat × α) → Nat → List (Nat × α)
  | [], _ => []
  | (k, w) :: t, a => if k = a then Sparse.drop t a else (k, w) :: Sparse.drop t a

/-- What a key reads as: its entry, or the default of an unlisted key. -/
def Sparse.get {α : Type} (d : Nat → α) (l : List (Nat × α)) (a : Nat) : α :=
  (Sparse.find l a).getD (d a)

/-- Write a key: a value equal to the default removes the entry, so equal maps are equal lists. -/
def Sparse.set {α : Type} [DecidableEq α] (d : Nat → α) (l : List (Nat × α)) (a : Nat) (v : α) : List (Nat × α) :=
  if v = d a then Sparse.drop l a else Sparse.put l a v

/-- All keys are above `b` and strictly rising. -/
def Sparse.risingFrom {α : Type} : Nat → List (Nat × α) → Bool
  | _, [] => true
  | b, (k, _) :: t => decide (b ≤ k) && Sparse.risingFrom (k + 1) t

/-- The canonical form: keys strictly rising and no entry equal to what an unlisted key reads as. -/
def Sparse.wf {α : Type} [DecidableEq α] (d : Nat → α) (l : List (Nat × α)) : Bool :=
  Sparse.risingFrom 0 l && l.all (fun e => decide (e.2 ≠ d e.1))

/-- Add to a list what is not in it. -/
def addOnce {α : Type} [BEq α] (l : List α) (x : α) : List α := if l.contains x then l else l ++ [x]

/-- Remove an element from a list. -/
def dropAll {α : Type} [BEq α] (l : List α) (x : α) : List α := l.filter (fun y => !(y == x))

/-- Put an element before the first that has its key or a higher one. -/
def insertBy {α : Type} (key : α → Nat) (x : α) : List α → List α
  | [] => [x]
  | y :: t => if key x ≤ key y then x :: y :: t else y :: insertBy key x t

/-- The elements of a list in ascending key, those of one key in their old order. -/
def sortBy {α : Type} (key : α → Nat) (l : List α) : List α := l.foldr (insertBy key) []

end Sys2Proof.Machine
end

