-- ==== Sys2Proof/Machine/RegMap.lean ====
section
/-! DEFINITION. The register map: every field of every register page, as the field tables of the chapters give
it (offset, instances, stride, lowest bit, width, access type of R11, reset value), and the header every page
starts with (R33). -/

namespace Sys2Proof.Machine

/-- The header of every page (R33). -/
def HDR_CTRL_SOFTRST : Fld := ⟨0x008, 1, 4, 1, 1, .wol, 0⟩
def HDR_CTRL_ENABLE : Fld := ⟨0x008, 1, 4, 0, 1, .rw, 0⟩
def HDR_STATUS_BLK : Fld := ⟨0x00C, 1, 4, 16, 16, .ro, 0⟩
def HDR_STATUS_PROGRESS : Fld := ⟨0x00C, 1, 4, 8, 8, .ro, 0⟩
def HDR_STATUS_PVALID : Fld := ⟨0x00C, 1, 4, 3, 1, .ro, 0⟩
def HDR_STATUS_ERR : Fld := ⟨0x00C, 1, 4, 2, 1, .ro, 0⟩
def HDR_STATUS_DONE : Fld := ⟨0x00C, 1, 4, 1, 1, .ro, 0⟩
def HDR_STATUS_BUSY : Fld := ⟨0x00C, 1, 4, 0, 1, .ro, 0⟩
def HDR_IRQ_RAW_BITS : Fld := ⟨0x010, 1, 4, 0, 32, .w1c, 0⟩
def HDR_IRQ_EN_BITS : Fld := ⟨0x014, 1, 4, 0, 32, .rw, 0⟩
def HDR_OPCMD_OPCMD : Fld := ⟨0x020, 1, 4, 0, 32, .rw, 0⟩
def HDR_OPARG_OPARG : Fld := ⟨0x024, 1, 4, 0, 32, .rw, 0⟩

/-- The header fields that hold storage (R33). -/
def hdrFields : List Fld :=
  [HDR_CTRL_SOFTRST, HDR_CTRL_ENABLE, HDR_STATUS_BLK, HDR_STATUS_PROGRESS, HDR_STATUS_PVALID, HDR_STATUS_ERR, HDR_STATUS_DONE, HDR_STATUS_BUSY, HDR_IRQ_RAW_BITS, HDR_IRQ_EN_BITS, HDR_OPCMD_OPCMD, HDR_OPARG_OPARG]

/-! ### GLB (page 0x00; 02_registers_host.md, R47) -/

/-- Number of the one page of the unit. -/
def PG_GLB : Nat := 0x00

def GLB_PARTID_PART : Fld := ⟨0x040, 1, 4, 16, 16, .ro, 0⟩
def GLB_PARTID_REV : Fld := ⟨0x040, 1, 4, 8, 8, .ro, 0x10⟩
def GLB_UIDLO_UID : Fld := ⟨0x044, 1, 4, 0, 32, .ro, 0⟩
def GLB_UIDHI_UID : Fld := ⟨0x048, 1, 4, 0, 32, .ro, 0⟩
def GLB_ABSENT_REQ : Fld := ⟨0x050, 1, 4, 16, 4, .ro, 0⟩
def GLB_ABSENT_PAGE : Fld := ⟨0x050, 1, 4, 8, 8, .ro, 0⟩
def GLB_ABSENT_HIT : Fld := ⟨0x050, 1, 4, 0, 1, .w1c, 0⟩
def GLB_ERRS_KEYBLK : Fld := ⟨0x054, 1, 4, 4, 1, .w1c, 0⟩
def GLB_ERRS_DECODE : Fld := ⟨0x054, 1, 4, 3, 1, .w1c, 0⟩
def GLB_ERRS_KEYFAIL : Fld := ⟨0x054, 1, 4, 2, 1, .w1c, 0⟩
def GLB_ERRS_LOCKWR : Fld := ⟨0x054, 1, 4, 1, 1, .w1c, 0⟩
def GLB_IRQSUM0_SUM : Fld := ⟨0x060, 1, 4, 0, 32, .ro, 0⟩
def GLB_IRQSUM1_SUM : Fld := ⟨0x064, 1, 4, 0, 32, .ro, 0⟩
def GLB_INTEN0_EN : Fld := ⟨0x068, 1, 4, 0, 32, .rw, 0⟩
def GLB_INTEN1_EN : Fld := ⟨0x06C, 1, 4, 0, 32, .rw, 0⟩
def GLB_INTCFG_MODE : Fld := ⟨0x070, 1, 4, 0, 1, .rw, 0⟩
def GLB_SWRST_CMD : Fld := ⟨0x078, 1, 4, 0, 32, .wol, 0⟩
def GLB_SCRATCH_DATA : Fld := ⟨0x07C, 1, 4, 0, 32, .rw, 0⟩

def fieldsGLB : List Fld :=
  [GLB_PARTID_PART, GLB_PARTID_REV, GLB_UIDLO_UID, GLB_UIDHI_UID,
   GLB_ABSENT_REQ, GLB_ABSENT_PAGE, GLB_ABSENT_HIT, GLB_ERRS_KEYBLK,
   GLB_ERRS_DECODE, GLB_ERRS_KEYFAIL, GLB_ERRS_LOCKWR, GLB_IRQSUM0_SUM,
   GLB_IRQSUM1_SUM, GLB_INTEN0_EN, GLB_INTEN1_EN, GLB_INTCFG_MODE,
   GLB_SWRST_CMD, GLB_SCRATCH_DATA]

/-! ### CLK (page 0x01; 18_startup.md, R515) -/

/-- Number of the one page of the unit. -/
def PG_CLK : Nat := 0x01

def CLK_STAT_XSEL : Fld := ⟨0x040, 1, 4, 3, 1, .ro, 0⟩
def CLK_STAT_COREOK : Fld := ⟨0x040, 1, 4, 2, 1, .ro, 1⟩
def CLK_STAT_PLLLOCK : Fld := ⟨0x040, 1, 4, 1, 1, .ro, 1⟩
def CLK_STAT_XOK : Fld := ⟨0x040, 1, 4, 0, 1, .ro, 1⟩
def CLK_RSTC_CAUSE : Fld := ⟨0x044, 1, 4, 0, 6, .ro, 0⟩
def CLK_RSTHIST_CAUSE : Fld := ⟨0x048, 1, 4, 0, 6, .w1c, 0⟩
def CLK_RSTCNT_COUNT : Fld := ⟨0x04C, 1, 4, 0, 16, .ro, 1⟩
def CLK_BOOT_TIME : Fld := ⟨0x050, 1, 4, 16, 16, .ro, 0⟩
def CLK_BOOT_LASTPH : Fld := ⟨0x050, 1, 4, 0, 3, .ro, 5⟩

def fieldsCLK : List Fld :=
  [CLK_STAT_XSEL, CLK_STAT_COREOK, CLK_STAT_PLLLOCK, CLK_STAT_XOK,
   CLK_RSTC_CAUSE, CLK_RSTHIST_CAUSE, CLK_RSTCNT_COUNT, CLK_BOOT_TIME,
   CLK_BOOT_LASTPH]

/-! ### TTB (page 0x02; 03_timetable.md, R100) -/

/-- Number of the one page of the unit. -/
def PG_TTB : Nat := 0x02

def TTB_STAT_STATE : Fld := ⟨0x040, 1, 4, 16, 3, .ro, 0⟩
def TTB_STAT_ROTREV : Fld := ⟨0x040, 1, 4, 11, 1, .ro, 0⟩
def TTB_STAT_PHOK : Fld := ⟨0x040, 1, 4, 8, 3, .ro, 0⟩
def TTB_STAT_ACQSLOW : Fld := ⟨0x040, 1, 4, 7, 1, .ro, 0⟩
def TTB_STAT_ADJP : Fld := ⟨0x040, 1, 4, 6, 1, .ro, 0⟩
def TTB_STAT_SLEW : Fld := ⟨0x040, 1, 4, 5, 1, .ro, 0⟩
def TTB_STAT_MPRES : Fld := ⟨0x040, 1, 4, 4, 1, .ro, 0⟩
def TTB_STAT_SYN : Fld := ⟨0x040, 1, 4, 2, 1, .ro, 1⟩
def TTB_STAT_PROV : Fld := ⟨0x040, 1, 4, 1, 1, .ro, 0⟩
def TTB_STAT_LOCK : Fld := ⟨0x040, 1, 4, 0, 1, .ro, 0⟩
def TTB_CFG_ANGOFS : Fld := ⟨0x044, 1, 4, 16, 16, .rwl, 0⟩
def TTB_CFG_AMPNOM : Fld := ⟨0x044, 1, 4, 4, 12, .rwl, 0x99a⟩
def TTB_CFG_TRKBW : Fld := ⟨0x044, 1, 4, 1, 2, .rwl, 2⟩
def TTB_CFG_ROTEXP : Fld := ⟨0x044, 1, 4, 0, 1, .rwl, 0⟩
def TTB_NOMF_NOMF : Fld := ⟨0x048, 1, 4, 0, 16, .rwl, 0x3200⟩
def TTB_LOSS_LOSSWIN : Fld := ⟨0x04C, 1, 4, 16, 5, .rwl, 0x10⟩
def TTB_LOSS_RETLVL : Fld := ⟨0x04C, 1, 4, 8, 8, .rwl, 0xcc⟩
def TTB_LOSS_LOSSLVL : Fld := ⟨0x04C, 1, 4, 0, 8, .rwl, 0x80⟩
def TTB_HOLD_RETWIN : Fld := ⟨0x050, 1, 4, 16, 4, .rwl, 2⟩
def TTB_HOLD_SLEW : Fld := ⟨0x050, 1, 4, 8, 8, .rwl, 0x14⟩
def TTB_HOLD_HOLDCYC : Fld := ⟨0x050, 1, 4, 0, 8, .rwl, 0xa⟩
def TTB_FREQ_FREQ : Fld := ⟨0x054, 1, 4, 0, 32, .ro, 0⟩
def TTB_PHERR_AMPL : Fld := ⟨0x058, 1, 4, 20, 12, .ro, 0⟩
def TTB_PHERR_PHERR : Fld := ⟨0x058, 1, 4, 0, 16, .ro, 0⟩
def TTB_STMPC_CYCLE : Fld := ⟨0x060, 1, 4, 0, 32, .ro, 0⟩
def TTB_STMPA_FLAGS : Fld := ⟨0x064, 1, 4, 16, 3, .ro, 4⟩
def TTB_STMPA_ANGLE : Fld := ⟨0x064, 1, 4, 0, 16, .ro, 0⟩
def TTB_TICKLO_TICK : Fld := ⟨0x068, 1, 4, 0, 32, .ro, 0⟩
def TTB_TICKHI_TICK : Fld := ⟨0x06C, 1, 4, 0, 32, .ro, 0⟩
def TTB_CYCADJ_CYC : Fld := ⟨0x070, 1, 4, 0, 32, .rwl, 0⟩
def TTB_LOSSC_CYCLE : Fld := ⟨0x078, 1, 4, 0, 32, .ro, 0⟩
def TTB_LOSSA_CAUSE : Fld := ⟨0x07C, 1, 4, 24, 3, .ro, 0⟩
def TTB_LOSSA_FLAGS : Fld := ⟨0x07C, 1, 4, 16, 3, .ro, 0⟩
def TTB_LOSSA_ANGLE : Fld := ⟨0x07C, 1, 4, 0, 16, .ro, 0⟩
def TTB_SLOTCFG_EN : Fld := ⟨0x080, 16, 4, 31, 1, .rw, 0⟩
def TTB_SLOTCFG_ONCE : Fld := ⟨0x080, 16, 4, 30, 1, .rw, 0⟩
def TTB_SLOTCFG_LOCKREQ : Fld := ⟨0x080, 16, 4, 29, 1, .rw, 0⟩
def TTB_SLOTCFG_LATE : Fld := ⟨0x080, 16, 4, 28, 1, .w1c, 0⟩
def TTB_SLOTCFG_DIV : Fld := ⟨0x080, 16, 4, 24, 4, .rw, 0⟩
def TTB_SLOTCFG_ANGLE : Fld := ⟨0x080, 16, 4, 0, 16, .rw, 0⟩
def TTB_SLOTCYC_CYC : Fld := ⟨0x0C0, 16, 4, 0, 32, .rw, 0⟩

def fieldsTTBa : List Fld :=
  [TTB_STAT_STATE, TTB_STAT_ROTREV, TTB_STAT_PHOK, TTB_STAT_ACQSLOW,
   TTB_STAT_ADJP, TTB_STAT_SLEW, TTB_STAT_MPRES, TTB_STAT_SYN,
   TTB_STAT_PROV, TTB_STAT_LOCK, TTB_CFG_ANGOFS, TTB_CFG_AMPNOM,
   TTB_CFG_TRKBW, TTB_CFG_ROTEXP, TTB_NOMF_NOMF, TTB_LOSS_LOSSWIN,
   TTB_LOSS_RETLVL, TTB_LOSS_LOSSLVL, TTB_HOLD_RETWIN, TTB_HOLD_SLEW,
   TTB_HOLD_HOLDCYC, TTB_FREQ_FREQ, TTB_PHERR_AMPL, TTB_PHERR_PHERR,
   TTB_STMPC_CYCLE, TTB_STMPA_FLAGS, TTB_STMPA_ANGLE, TTB_TICKLO_TICK,
   TTB_TICKHI_TICK, TTB_CYCADJ_CYC, TTB_LOSSC_CYCLE, TTB_LOSSA_CAUSE,
   TTB_LOSSA_FLAGS, TTB_LOSSA_ANGLE, TTB_SLOTCFG_EN, TTB_SLOTCFG_ONCE,
   TTB_SLOTCFG_LOCKREQ, TTB_SLOTCFG_LATE, TTB_SLOTCFG_DIV, TTB_SLOTCFG_ANGLE]

def fieldsTTBb : List Fld :=
  [TTB_SLOTCYC_CYC]

def fieldsTTB : List Fld := fieldsTTBa ++ fieldsTTBb

/-! ### MEA (page 0x03; 04_measurement.md, R132) -/

/-- Number of the one page of the unit. -/
def PG_MEA : Nat := 0x03

def MEA_CHCFG_EN : Fld := ⟨0x040, 24, 4, 31, 1, .rw, 1⟩
def MEA_CHCFG_INV : Fld := ⟨0x040, 24, 4, 30, 1, .rw, 0⟩
def MEA_CHCFG_WIN : Fld := ⟨0x040, 24, 4, 24, 3, .rw, 4⟩
def MEA_RES_SEQ : Fld := ⟨0x0A0, 24, 4, 30, 2, .ro, 0⟩
def MEA_WP_SEQ : Fld := ⟨0x100, 24, 4, 30, 2, .ro, 0⟩
def MEA_RES_HELD : Fld := ⟨0x0A0, 24, 4, 29, 1, .ro, 0⟩
def MEA_WP_HELD : Fld := ⟨0x100, 24, 4, 29, 1, .ro, 0⟩
def MEA_RES_SHORT : Fld := ⟨0x0A0, 24, 4, 28, 1, .ro, 0⟩
def MEA_WP_SHORT : Fld := ⟨0x100, 24, 4, 28, 1, .ro, 0⟩
def MEA_RES_OVR : Fld := ⟨0x0A0, 24, 4, 27, 1, .ro, 0⟩
def MEA_WP_OVR : Fld := ⟨0x100, 24, 4, 27, 1, .ro, 0⟩
def MEA_RES_FLAGS : Fld := ⟨0x0A0, 24, 4, 24, 3, .ro, 4⟩
def MEA_WP_FLAGS : Fld := ⟨0x100, 24, 4, 24, 3, .ro, 4⟩
def MEA_RES_CODE : Fld := ⟨0x0A0, 24, 4, 0, 24, .ro, 0⟩
def MEA_WP_CODE : Fld := ⟨0x100, 24, 4, 0, 24, .ro, 0⟩
def MEA_OVRSTAT_OVR : Fld := ⟨0x160, 1, 4, 0, 24, .w1c, 0⟩
def MEA_DISCCNT_COUNT : Fld := ⟨0x164, 1, 4, 0, 32, .rs, 0⟩
def MEA_SUPRES_SEQ : Fld := ⟨0x200, 24, 4, 16, 8, .ro, 0⟩
def MEA_IPHRES_SEQ : Fld := ⟨0x260, 16, 4, 16, 8, .ro, 0⟩
def MEA_PMONRES_SEQ : Fld := ⟨0x2A0, 16, 4, 16, 8, .ro, 0⟩
def MEA_SUPRES_CODE : Fld := ⟨0x200, 24, 4, 0, 12, .ro, 0⟩
def MEA_IPHRES_CODE : Fld := ⟨0x260, 16, 4, 0, 12, .ro, 0⟩
def MEA_PMONRES_CODE : Fld := ⟨0x2A0, 16, 4, 0, 12, .ro, 0⟩
def MEA_SARSTAT_MAXGAP : Fld := ⟨0x2E0, 1, 4, 0, 16, .rs, 0⟩

def fieldsMEA : List Fld :=
  [MEA_CHCFG_EN, MEA_CHCFG_INV, MEA_CHCFG_WIN, MEA_RES_SEQ,
   MEA_WP_SEQ, MEA_RES_HELD, MEA_WP_HELD, MEA_RES_SHORT,
   MEA_WP_SHORT, MEA_RES_OVR, MEA_WP_OVR, MEA_RES_FLAGS,
   MEA_WP_FLAGS, MEA_RES_CODE, MEA_WP_CODE, MEA_OVRSTAT_OVR,
   MEA_DISCCNT_COUNT, MEA_SUPRES_SEQ, MEA_IPHRES_SEQ, MEA_PMONRES_SEQ,
   MEA_SUPRES_CODE, MEA_IPHRES_CODE, MEA_PMONRES_CODE, MEA_SARSTAT_MAXGAP]

/-! ### MET (page 0x04; 04_measurement.md, R134) -/

/-- Number of the one page of the unit. -/
def PG_MET : Nat := 0x04

def MET_VSRC0_VSRC : Fld := ⟨0x040, 1, 4, 0, 32, .rwl, 0⟩
def MET_VSRC1_VSRC : Fld := ⟨0x044, 1, 4, 0, 32, .rwl, 0x65430000⟩
def MET_SEL_CH : Fld := ⟨0x048, 1, 4, 0, 5, .rw, 0⟩
def MET_CHGF_LO_DATA : Fld := ⟨0x050, 1, 4, 0, 32, .ro, 0⟩
def MET_CHGF_HI_DATA : Fld := ⟨0x054, 1, 4, 0, 32, .ro, 0⟩
def MET_CHGR_LO_DATA : Fld := ⟨0x058, 1, 4, 0, 32, .ro, 0⟩
def MET_CHGR_HI_DATA : Fld := ⟨0x05C, 1, 4, 0, 32, .ro, 0⟩
def MET_ENGF_LO_DATA : Fld := ⟨0x060, 1, 4, 0, 32, .ro, 0⟩
def MET_ENGF_HI_DATA : Fld := ⟨0x064, 1, 4, 0, 32, .ro, 0⟩
def MET_ENGR_LO_DATA : Fld := ⟨0x068, 1, 4, 0, 32, .ro, 0⟩
def MET_ENGR_HI_DATA : Fld := ⟨0x06C, 1, 4, 0, 32, .ro, 0⟩
def MET_LIVEST_BAD : Fld := ⟨0x070, 1, 4, 3, 1, .w1c, 0⟩
def MET_LIVEST_NOSCALE : Fld := ⟨0x070, 1, 4, 2, 1, .ro, 1⟩
def MET_LIVEST_WRAPE : Fld := ⟨0x070, 1, 4, 1, 1, .w1c, 0⟩
def MET_LIVEST_WRAPC : Fld := ⟨0x070, 1, 4, 0, 1, .w1c, 0⟩
def MET_SNAPCTL_ARM : Fld := ⟨0x080, 1, 4, 31, 1, .rw, 0⟩
def MET_SNAPCTL_PER : Fld := ⟨0x080, 1, 4, 30, 1, .rw, 0⟩
def MET_SNAPCTL_NEXT : Fld := ⟨0x080, 1, 4, 29, 1, .rw, 0⟩
def MET_SNAPCTL_LOCKREQ : Fld := ⟨0x080, 1, 4, 28, 1, .rw, 0⟩
def MET_SNAPCTL_DIV : Fld := ⟨0x080, 1, 4, 24, 4, .rw, 0⟩
def MET_SNAPCTL_TGTWP : Fld := ⟨0x080, 1, 4, 0, 8, .rw, 0⟩
def MET_SNAPCYC_CYC : Fld := ⟨0x084, 1, 4, 0, 32, .rw, 0⟩
def MET_SNAPSTAT_SEQ : Fld := ⟨0x088, 1, 4, 24, 8, .ro, 0⟩
def MET_SNAPSTAT_SKIP : Fld := ⟨0x088, 1, 4, 16, 8, .rs, 0⟩
def MET_SNAPSTAT_LATEST : Fld := ⟨0x088, 1, 4, 2, 1, .ro, 0⟩
def MET_SNAPSTAT_FREEB : Fld := ⟨0x088, 1, 4, 1, 1, .ro, 1⟩
def MET_SNAPSTAT_FREEA : Fld := ⟨0x088, 1, 4, 0, 1, .ro, 1⟩
def MET_SNAPREL_REL : Fld := ⟨0x08C, 1, 4, 0, 2, .wo, 0⟩
def MET_SNAPBANK_BANK : Fld := ⟨0x090, 1, 4, 0, 1, .rw, 0⟩
def MET_SNAPW_DATA : Fld := ⟨0x094, 8, 4, 0, 32, .ro, 0⟩
def MET_SNAPCYCR_CYCLE : Fld := ⟨0x0B4, 1, 4, 0, 32, .ro, 0⟩
def MET_SNAPANG_DEFER : Fld := ⟨0x0B8, 1, 4, 20, 1, .ro, 0⟩
def MET_SNAPANG_LATE : Fld := ⟨0x0B8, 1, 4, 19, 1, .ro, 0⟩
def MET_SNAPANG_FLAGS : Fld := ⟨0x0B8, 1, 4, 16, 3, .ro, 0⟩
def MET_SNAPANG_ANGLE : Fld := ⟨0x0B8, 1, 4, 0, 16, .ro, 0⟩
def MET_SNAPTKLO_TICK : Fld := ⟨0x0BC, 1, 4, 0, 32, .ro, 0⟩
def MET_SNAPTKHI_TICK : Fld := ⟨0x0C0, 1, 4, 0, 32, .ro, 0⟩

def fieldsMET : List Fld :=
  [MET_VSRC0_VSRC, MET_VSRC1_VSRC, MET_SEL_CH, MET_CHGF_LO_DATA,
   MET_CHGF_HI_DATA, MET_CHGR_LO_DATA, MET_CHGR_HI_DATA, MET_ENGF_LO_DATA,
   MET_ENGF_HI_DATA, MET_ENGR_LO_DATA, MET_ENGR_HI_DATA, MET_LIVEST_BAD,
   MET_LIVEST_NOSCALE, MET_LIVEST_WRAPE, MET_LIVEST_WRAPC, MET_SNAPCTL_ARM,
   MET_SNAPCTL_PER, MET_SNAPCTL_NEXT, MET_SNAPCTL_LOCKREQ, MET_SNAPCTL_DIV,
   MET_SNAPCTL_TGTWP, MET_SNAPCYC_CYC, MET_SNAPSTAT_SEQ, MET_SNAPSTAT_SKIP,
   MET_SNAPSTAT_LATEST, MET_SNAPSTAT_FREEB, MET_SNAPSTAT_FREEA, MET_SNAPREL_REL,
   MET_SNAPBANK_BANK, MET_SNAPW_DATA, MET_SNAPCYCR_CYCLE, MET_SNAPANG_DEFER,
   MET_SNAPANG_LATE, MET_SNAPANG_FLAGS, MET_SNAPANG_ANGLE, MET_SNAPTKLO_TICK,
   MET_SNAPTKHI_TICK]

/-! ### CAL (page 0x05; 04_measurement.md, R133) -/

/-- Number of the one page of the unit. -/
def PG_CAL : Nat := 0x05

def CAL_CFG_CALPER : Fld := ⟨0x040, 1, 4, 20, 4, .rwl, 4⟩
def CAL_CFG_CALAVG : Fld := ⟨0x040, 1, 4, 16, 4, .rwl, 2⟩
def CAL_CFG_QSTEP : Fld := ⟨0x040, 1, 4, 8, 8, .rwl, 8⟩
def CAL_CFG_CALPAR : Fld := ⟨0x040, 1, 4, 0, 2, .rwl, 1⟩
def CAL_STAT_STALE : Fld := ⟨0x044, 1, 4, 0, 24, .ro, 0⟩
def CAL_FAILM_FAIL : Fld := ⟨0x048, 1, 4, 0, 24, .w1c, 0⟩
def CAL_REJCNT_COUNT : Fld := ⟨0x04C, 1, 4, 0, 32, .rs, 0⟩
def CAL_QMASK_QUIET : Fld := ⟨0x050, 8, 4, 0, 32, .rwl, 0⟩
def CAL_OFS_OFS : Fld := ⟨0x070, 24, 4, 0, 24, .ro, 0⟩
def CAL_GAIN_GAIN : Fld := ⟨0x0D0, 24, 4, 0, 32, .ro, 0⟩
def CAL_SCALE_SCALE : Fld := ⟨0x130, 24, 4, 0, 32, .rwl, 0⟩
def CAL_TEMP_TJ : Fld := ⟨0x190, 1, 4, 0, 16, .ro, 0⟩

def fieldsCAL : List Fld :=
  [CAL_CFG_CALPER, CAL_CFG_CALAVG, CAL_CFG_QSTEP, CAL_CFG_CALPAR,
   CAL_STAT_STALE, CAL_FAILM_FAIL, CAL_REJCNT_COUNT, CAL_QMASK_QUIET,
   CAL_OFS_OFS, CAL_GAIN_GAIN, CAL_SCALE_SCALE, CAL_TEMP_TJ]

/-! ### MAR (page 0x06; 05_marionette.md, R167) -/

/-- Number of the first page of the unit. -/
def PG_MAR : Nat := 0x06

def MAR_CFG_TKAUTO : Fld := ⟨0x040, 1, 4, 28, 1, .rwl, 0⟩
def MAR_CFG_MANFF : Fld := ⟨0x040, 1, 4, 27, 1, .rwl, 0⟩
def MAR_CFG_MSRC : Fld := ⟨0x040, 1, 4, 26, 1, .rwl, 0⟩
def MAR_CFG_SPSRC : Fld := ⟨0x040, 1, 4, 24, 2, .rw, 0⟩
def MAR_CFG_CLPOL : Fld := ⟨0x040, 1, 4, 21, 1, .rwl, 0⟩
def MAR_CFG_NEG : Fld := ⟨0x040, 1, 4, 20, 1, .rwl, 0⟩
def MAR_CFG_FBCH : Fld := ⟨0x040, 1, 4, 0, 5, .rwl, 0x10⟩
def MAR_MODECMD_RELOAD : Fld := ⟨0x044, 1, 4, 2, 1, .wo, 0⟩
def MAR_MODECMD_CMD : Fld := ⟨0x044, 1, 4, 0, 2, .wo, 0⟩
def MAR_STAT_MODE : Fld := ⟨0x048, 1, 4, 29, 3, .ro, 0⟩
def MAR_STAT_OWNER : Fld := ⟨0x048, 1, 4, 27, 2, .ro, 0⟩
def MAR_STAT_STR : Fld := ⟨0x048, 1, 4, 24, 3, .ro, 0⟩
def MAR_STAT_REGION : Fld := ⟨0x048, 1, 4, 19, 5, .ro, 0⟩
def MAR_STAT_CLIM : Fld := ⟨0x048, 1, 4, 18, 1, .ro, 0⟩
def MAR_STAT_SLEWING : Fld := ⟨0x048, 1, 4, 17, 1, .ro, 0⟩
def MAR_STAT_SPFLT : Fld := ⟨0x048, 1, 4, 16, 1, .ro, 0⟩
def MAR_STAT_RFRDY : Fld := ⟨0x048, 1, 4, 15, 1, .ro, 0⟩
def MAR_STAT_BADSTR : Fld := ⟨0x048, 1, 4, 14, 1, .w1c, 0⟩
def MAR_STAT_SCHHELD : Fld := ⟨0x048, 1, 4, 13, 1, .ro, 0⟩
def MAR_STAT_SAT : Fld := ⟨0x048, 1, 4, 12, 1, .ro, 0⟩
def MAR_STAT_TOV : Fld := ⟨0x048, 1, 4, 11, 1, .ro, 0⟩
def MAR_STAT_TNOPH : Fld := ⟨0x048, 1, 4, 10, 1, .ro, 0⟩
def MAR_STAT_FORCED : Fld := ⟨0x048, 1, 4, 9, 1, .ro, 0⟩
def MAR_STAT_FBFLT : Fld := ⟨0x048, 1, 4, 8, 1, .ro, 0⟩
def MAR_SPREG_SP : Fld := ⟨0x04C, 1, 4, 0, 24, .rw, 0⟩
def MAR_SPEFF_SP : Fld := ⟨0x050, 1, 4, 0, 24, .ro, 0⟩
def MAR_SPMIN_SP : Fld := ⟨0x058, 1, 4, 0, 24, .rwl, 0x800000⟩
def MAR_SPMAX_SP : Fld := ⟨0x05C, 1, 4, 0, 24, .rwl, 0x7fffff⟩
def MAR_SPBASE_VAL : Fld := ⟨0x060, 1, 4, 0, 24, .rwl, 0⟩
def MAR_SPSPAN_VAL : Fld := ⟨0x064, 1, 4, 0, 24, .rwl, 0⟩
def MAR_SPV_SP : Fld := ⟨0x068, 8, 4, 0, 24, .rwl, 0⟩
def MAR_SCHSP_SP : Fld := ⟨0x0D4, 1, 4, 0, 24, .rw, 0⟩
def MAR_SPSLEW_RATE : Fld := ⟨0x054, 1, 4, 0, 24, .rwl, 0x100⟩
def MAR_MDUTY_DUTY : Fld := ⟨0x088, 1, 4, 0, 16, .rw, 0⟩
def MAR_DLIM_DMAX : Fld := ⟨0x08C, 1, 4, 16, 16, .rwl, 0xf000⟩
def MAR_DLIM_DMIN : Fld := ⟨0x08C, 1, 4, 0, 16, .rwl, 0⟩
def MAR_ILIM_ILIMN : Fld := ⟨0x090, 1, 4, 16, 16, .rwl, 0xffff⟩
def MAR_ILIMEFF_ILIMN : Fld := ⟨0x094, 1, 4, 16, 16, .ro, 0xffff⟩
def MAR_ILIM_ILIMP : Fld := ⟨0x090, 1, 4, 0, 16, .rwl, 0xffff⟩
def MAR_ILIMEFF_ILIMP : Fld := ⟨0x094, 1, 4, 0, 16, .ro, 0xffff⟩
def MAR_KLIM_KLIM : Fld := ⟨0x098, 1, 4, 0, 16, .rwl, 0x100⟩
def MAR_LBTA_LBT2 : Fld := ⟨0x09C, 1, 4, 16, 16, .rwl, 0xffff⟩
def MAR_LBTA_LBT1 : Fld := ⟨0x09C, 1, 4, 0, 16, .rwl, 0xffff⟩
def MAR_LBTB_HYS : Fld := ⟨0x0A0, 1, 4, 16, 16, .rwl, 0x50⟩
def MAR_LBTB_LBT3 : Fld := ⟨0x0A0, 1, 4, 0, 16, .rwl, 0xffff⟩
def MAR_PCB_PC3 : Fld := ⟨0x0A4, 1, 4, 16, 5, .rwl, 8⟩
def MAR_PCB_PC2 : Fld := ⟨0x0A4, 1, 4, 8, 5, .rwl, 4⟩
def MAR_PCB_PC1 : Fld := ⟨0x0A4, 1, 4, 0, 5, .rwl, 2⟩
def MAR_RMAP_MAP : Fld := ⟨0x0A8, 4, 4, 0, 32, .rwl, 0⟩
def MAR_RFCFG_ADAPT : Fld := ⟨0x0B8, 1, 4, 31, 1, .rwl, 1⟩
def MAR_RFCFG_FFEN : Fld := ⟨0x0B8, 1, 4, 30, 1, .rwl, 1⟩
def MAR_RFCFG_LEAD : Fld := ⟨0x0B8, 1, 4, 20, 8, .rwl, 2⟩
def MAR_RFCFG_RFLEAK : Fld := ⟨0x0B8, 1, 4, 16, 4, .rwl, 0xc⟩
def MAR_RFCFG_RFMU : Fld := ⟨0x0B8, 1, 4, 0, 16, .rwl, 0x800⟩
def MAR_RFLIM_FADEWP : Fld := ⟨0x0BC, 1, 4, 16, 8, .rwl, 0x20⟩
def MAR_RFLIM_RFMAX : Fld := ⟨0x0BC, 1, 4, 0, 16, .rwl, 0x800⟩
def MAR_TRIM_TRIMCH : Fld := ⟨0x0C0, 1, 4, 24, 5, .rwl, 0xc⟩
def MAR_TRIM_TRIMMAX : Fld := ⟨0x0C0, 1, 4, 16, 8, .rwl, 0x10⟩
def MAR_TRIM_KTRIM : Fld := ⟨0x0C0, 1, 4, 0, 16, .rwl, 0⟩
def MAR_TRIMTGT_TGT : Fld := ⟨0x0C4, 1, 4, 0, 24, .rw, 0⟩
def MAR_OBW_WIDTH : Fld := ⟨0x0C8, 1, 4, 0, 16, .rwl, 0x50⟩
def MAR_SCHCTL_ARM : Fld := ⟨0x0CC, 1, 4, 31, 1, .rw, 0⟩
def MAR_SCHCTL_SETSP : Fld := ⟨0x0CC, 1, 4, 30, 1, .rw, 0⟩
def MAR_SCHCTL_SETSTR : Fld := ⟨0x0CC, 1, 4, 29, 1, .rw, 0⟩
def MAR_SCHCTL_LOCKREQ : Fld := ⟨0x0CC, 1, 4, 28, 1, .rw, 0⟩
def MAR_SCHCTL_FORCE : Fld := ⟨0x0CC, 1, 4, 27, 1, .rw, 0⟩
def MAR_SCHCTL_FSTR : Fld := ⟨0x0CC, 1, 4, 24, 3, .rw, 0⟩
def MAR_SCHCTL_LATE : Fld := ⟨0x0CC, 1, 4, 23, 1, .w1c, 0⟩
def MAR_SCHCTL_TGTWP : Fld := ⟨0x0CC, 1, 4, 0, 8, .rw, 0⟩
def MAR_SCHCYC_CYC : Fld := ⟨0x0D0, 1, 4, 0, 32, .rw, 0⟩
def MAR_INTEG_I : Fld := ⟨0x0D8, 1, 4, 0, 32, .ro, 0⟩
def MAR_DUTY_FF : Fld := ⟨0x0DC, 1, 4, 16, 16, .ro, 0⟩
def MAR_DUTY_D : Fld := ⟨0x0DC, 1, 4, 0, 16, .ro, 0⟩
def MAR_ERR_X : Fld := ⟨0x0E0, 1, 4, 0, 25, .ro, 0⟩
def MAR_ILOOP_I : Fld := ⟨0x0E4, 1, 4, 0, 16, .ro, 0⟩
def MAR_MDMEAS_MDVALID : Fld := ⟨0x0E8, 1, 4, 16, 1, .ro, 0⟩
def MAR_MDMEAS_D : Fld := ⟨0x0E8, 1, 4, 0, 16, .ro, 0⟩
def MAR_RFSTAT_RFCNT : Fld := ⟨0x0EC, 1, 4, 16, 7, .ro, 0⟩
def MAR_RFSTAT_FADE : Fld := ⟨0x0EC, 1, 4, 8, 8, .ro, 0⟩
def MAR_RFSTAT_SATN : Fld := ⟨0x0EC, 1, 4, 0, 8, .ro, 0⟩
def MAR_CNT_XFER : Fld := ⟨0x0F0, 1, 4, 16, 16, .rs, 0⟩
def MAR_CNT_CLIMN : Fld := ⟨0x0F0, 1, 4, 0, 16, .rs, 0⟩
def MAR_STRB0_B : Fld := ⟨0x100, 8, 24, 0, 24, .rwl, 0⟩
def MAR_STRB1_B : Fld := ⟨0x104, 8, 24, 0, 24, .rwl, 0⟩
def MAR_STRB2_B : Fld := ⟨0x108, 8, 24, 0, 24, .rwl, 0⟩
def MAR_STRA1_A : Fld := ⟨0x10C, 8, 24, 0, 24, .rwl, 0⟩
def MAR_STRA2_A : Fld := ⟨0x110, 8, 24, 0, 24, .rwl, 0⟩
def MAR_STRKI_ESH : Fld := ⟨0x114, 8, 24, 24, 4, .rwl, 0⟩
def MAR_STRKI_KI : Fld := ⟨0x114, 8, 24, 0, 24, .rwl, 0⟩
def MAR_OT_HI : Fld := ⟨0x1C0, 16, 4, 16, 16, .rwl, 0⟩
def MAR_OT_LO : Fld := ⟨0x1C0, 16, 4, 0, 16, .rwl, 0⟩
def MAR_RF_HI : Fld := ⟨0x200, 128, 4, 16, 16, .rw, 0⟩
def MAR_RF_LO : Fld := ⟨0x200, 128, 4, 0, 16, .rw, 0⟩

def fieldsMARa : List Fld :=
  [MAR_CFG_TKAUTO, MAR_CFG_MANFF, MAR_CFG_MSRC, MAR_CFG_SPSRC,
   MAR_CFG_CLPOL, MAR_CFG_NEG, MAR_CFG_FBCH, MAR_MODECMD_RELOAD,
   MAR_MODECMD_CMD, MAR_STAT_MODE, MAR_STAT_OWNER, MAR_STAT_STR,
   MAR_STAT_REGION, MAR_STAT_CLIM, MAR_STAT_SLEWING, MAR_STAT_SPFLT,
   MAR_STAT_RFRDY, MAR_STAT_BADSTR, MAR_STAT_SCHHELD, MAR_STAT_SAT,
   MAR_STAT_TOV, MAR_STAT_TNOPH, MAR_STAT_FORCED, MAR_STAT_FBFLT,
   MAR_SPREG_SP, MAR_SPEFF_SP, MAR_SPMIN_SP, MAR_SPMAX_SP,
   MAR_SPBASE_VAL, MAR_SPSPAN_VAL, MAR_SPV_SP, MAR_SCHSP_SP,
   MAR_SPSLEW_RATE, MAR_MDUTY_DUTY, MAR_DLIM_DMAX, MAR_DLIM_DMIN,
   MAR_ILIM_ILIMN, MAR_ILIMEFF_ILIMN, MAR_ILIM_ILIMP, MAR_ILIMEFF_ILIMP]

def fieldsMARb : List Fld :=
  [MAR_KLIM_KLIM, MAR_LBTA_LBT2, MAR_LBTA_LBT1, MAR_LBTB_HYS,
   MAR_LBTB_LBT3, MAR_PCB_PC3, MAR_PCB_PC2, MAR_PCB_PC1,
   MAR_RMAP_MAP, MAR_RFCFG_ADAPT, MAR_RFCFG_FFEN, MAR_RFCFG_LEAD,
   MAR_RFCFG_RFLEAK, MAR_RFCFG_RFMU, MAR_RFLIM_FADEWP, MAR_RFLIM_RFMAX,
   MAR_TRIM_TRIMCH, MAR_TRIM_TRIMMAX, MAR_TRIM_KTRIM, MAR_TRIMTGT_TGT,
   MAR_OBW_WIDTH, MAR_SCHCTL_ARM, MAR_SCHCTL_SETSP, MAR_SCHCTL_SETSTR,
   MAR_SCHCTL_LOCKREQ, MAR_SCHCTL_FORCE, MAR_SCHCTL_FSTR, MAR_SCHCTL_LATE,
   MAR_SCHCTL_TGTWP, MAR_SCHCYC_CYC, MAR_INTEG_I, MAR_DUTY_FF,
   MAR_DUTY_D, MAR_ERR_X, MAR_ILOOP_I, MAR_MDMEAS_MDVALID,
   MAR_MDMEAS_D, MAR_RFSTAT_RFCNT, MAR_RFSTAT_FADE, MAR_RFSTAT_SATN]

def fieldsMARc : List Fld :=
  [MAR_CNT_XFER, MAR_CNT_CLIMN, MAR_STRB0_B, MAR_STRB1_B,
   MAR_STRB2_B, MAR_STRA1_A, MAR_STRA2_A, MAR_STRKI_ESH,
   MAR_STRKI_KI, MAR_OT_HI, MAR_OT_LO, MAR_RF_HI,
   MAR_RF_LO]

def fieldsMAR : List Fld := fieldsMARa ++ fieldsMARb ++ fieldsMARc

/-! ### PWM (page 0x0A; 06_phases.md, R199) -/

/-- Number of the first page of the unit. -/
def PG_PWM : Nat := 0x0A

def PWM_TIMING_TMINON : Fld := ⟨0x040, 1, 4, 8, 8, .rwl, 8⟩
def PWM_TIMING_TMINOFF : Fld := ⟨0x040, 1, 4, 0, 8, .rwl, 0x10⟩
def PWM_PHCFG_SMP : Fld := ⟨0x060, 8, 4, 8, 1, .rwl, 0⟩
def PWM_PHCFG_LOOP : Fld := ⟨0x060, 8, 4, 0, 3, .rwl, 7⟩
def PWM_PHCAL_IGAIN : Fld := ⟨0x080, 8, 4, 16, 16, .rwl, 0x1000⟩
def PWM_PHCAL_IOFS : Fld := ⟨0x080, 8, 4, 0, 12, .rwl, 0x800⟩
def PWM_PHST_I : Fld := ⟨0x0A0, 8, 4, 16, 16, .ro, 0⟩
def PWM_PHST_OPNCNT : Fld := ⟨0x0A0, 8, 4, 8, 2, .ro, 0⟩
def PWM_PHST_IMB : Fld := ⟨0x0A0, 8, 4, 4, 1, .ro, 0⟩
def PWM_PHST_STATE : Fld := ⟨0x0A0, 8, 4, 0, 4, .ro, 0⟩
def PWM_PHD_TRIM : Fld := ⟨0x0C0, 8, 4, 16, 16, .ro, 0⟩
def PWM_PHD_DUTY : Fld := ⟨0x0C0, 8, 4, 0, 16, .ro, 0⟩

def fieldsPWM : List Fld :=
  [PWM_TIMING_TMINON, PWM_TIMING_TMINOFF, PWM_PHCFG_SMP, PWM_PHCFG_LOOP,
   PWM_PHCAL_IGAIN, PWM_PHCAL_IOFS, PWM_PHST_I, PWM_PHST_OPNCNT,
   PWM_PHST_IMB, PWM_PHST_STATE, PWM_PHD_TRIM, PWM_PHD_DUTY]

/-! ### PHM (page 0x0C; 06_phases.md, R200) -/

/-- Number of the one page of the unit. -/
def PG_PHM : Nat := 0x0C

def PHM_LPER_DCMTH : Fld := ⟨0x040, 4, 4, 16, 16, .rwl, 0⟩
def PHM_LPER_DEM : Fld := ⟨0x040, 4, 4, 15, 1, .rwl, 0⟩
def PHM_LPER_PERIOD : Fld := ⟨0x040, 4, 4, 0, 13, .rwl, 0x3e8⟩
def PHM_ADSHA_ADDTH : Fld := ⟨0x050, 4, 4, 16, 16, .rwl, 0xffff⟩
def PHM_ADSHA_SHEDTH : Fld := ⟨0x050, 4, 4, 0, 16, .rwl, 0⟩
def PHM_ADSHB_AUTO : Fld := ⟨0x060, 4, 4, 31, 1, .rwl, 0⟩
def PHM_ADSHB_MINPH : Fld := ⟨0x060, 4, 4, 24, 5, .rwl, 1⟩
def PHM_ADSHB_ADDDLY : Fld := ⟨0x060, 4, 4, 16, 8, .rwl, 2⟩
def PHM_ADSHB_SHEDDLY : Fld := ⟨0x060, 4, 4, 0, 16, .rwl, 0x1000⟩
def PHM_STEP_STEPDI : Fld := ⟨0x070, 4, 4, 16, 16, .rwl, 0x20⟩
def PHM_STEP_STEPDV : Fld := ⟨0x070, 4, 4, 0, 16, .rwl, 0⟩
def PHM_BAL_BALMAX : Fld := ⟨0x080, 4, 4, 24, 8, .rwl, 0x40⟩
def PHM_BAL_KBAL : Fld := ⟨0x080, 4, 4, 0, 16, .rwl, 0x10⟩
def PHM_IMB_IMBREL : Fld := ⟨0x090, 4, 4, 24, 8, .rwl, 0x40⟩
def PHM_IMB_IMBMIN : Fld := ⟨0x090, 4, 4, 12, 12, .rwl, 0x50⟩
def PHM_IMB_IMBABS : Fld := ⟨0x090, 4, 4, 0, 12, .rwl, 0xa0⟩
def PHM_FLT_OPENTH : Fld := ⟨0x0A0, 4, 4, 16, 16, .rwl, 0x10⟩
def PHM_FLT_SENSMIN : Fld := ⟨0x0A0, 4, 4, 0, 16, .rwl, 0x50⟩
def PHM_LIM_IPHMAX : Fld := ⟨0x0B0, 4, 4, 16, 16, .rwl, 0xffff⟩
def PHM_LIM_LTCH : Fld := ⟨0x0B0, 4, 4, 0, 5, .rwl, 0x1f⟩
def PHM_ACT_ASSIGNED : Fld := ⟨0x0C0, 4, 4, 16, 16, .ro, 0⟩
def PHM_ACT_ACTIVE : Fld := ⟨0x0C0, 4, 4, 0, 16, .ro, 0⟩
def PHM_DRQ_ASSERTED : Fld := ⟨0x0D0, 4, 4, 31, 1, .ro, 0⟩
def PHM_DRQ_EXCESS : Fld := ⟨0x0D0, 4, 4, 0, 16, .ro, 0⟩
def PHM_REMOV_SENSE : Fld := ⟨0x0E0, 1, 4, 16, 16, .ro, 0⟩
def PHM_REMOV_OPEN : Fld := ⟨0x0E0, 1, 4, 0, 16, .ro, 0⟩
def PHM_OPNLAT_LATCHED : Fld := ⟨0x0E4, 1, 4, 0, 16, .ro, 0⟩
def PHM_PHCLR_CLRS : Fld := ⟨0x0E8, 1, 4, 16, 16, .wol, 0⟩
def PHM_PHCLR_CLRO : Fld := ⟨0x0E8, 1, 4, 0, 16, .wol, 0⟩
def PHM_OVSTAT_PRESENT : Fld := ⟨0x0EC, 1, 4, 8, 4, .ro, 0⟩
def PHM_OVSTAT_ANALOG : Fld := ⟨0x0EC, 1, 4, 4, 4, .ro, 0⟩
def PHM_OVSTAT_LATCH : Fld := ⟨0x0EC, 1, 4, 0, 4, .ro, 0⟩
def PHM_OVCLR_CLR : Fld := ⟨0x0F0, 1, 4, 0, 4, .wol, 0⟩
def PHM_OVCFG_ANEN : Fld := ⟨0x100, 4, 4, 31, 1, .rwl, 1⟩
def PHM_OVCFG_DIGEN : Fld := ⟨0x100, 4, 4, 30, 1, .rwl, 0⟩
def PHM_OVCFG_OVLVL : Fld := ⟨0x100, 4, 4, 0, 24, .rwl, 0x7fffff⟩
def PHM_VSEL_VALID : Fld := ⟨0x110, 1, 4, 31, 1, .ro, 0⟩
def PHM_VSEL_N : Fld := ⟨0x110, 1, 4, 0, 3, .ro, 0⟩
def PHM_SETA_VALID : Fld := ⟨0x114, 1, 4, 31, 1, .ro, 0⟩
def PHM_SETP_VALID : Fld := ⟨0x11C, 1, 4, 31, 1, .ro, 0⟩
def PHM_SETA_X : Fld := ⟨0x114, 1, 4, 0, 16, .ro, 0⟩
def PHM_SETP_X : Fld := ⟨0x11C, 1, 4, 0, 16, .ro, 0⟩
def PHM_SETPCFG_MODE : Fld := ⟨0x118, 1, 4, 31, 1, .rwl, 0⟩
def PHM_SETPCFG_FS : Fld := ⟨0x118, 1, 4, 0, 20, .rwl, 0x186a0⟩
def PHM_CNT_ABORTS : Fld := ⟨0x120, 1, 4, 16, 16, .rs, 0⟩
def PHM_CNT_REMOVALS : Fld := ⟨0x120, 1, 4, 0, 16, .rs, 0⟩
def PHM_LSTAT_CFGERR : Fld := ⟨0x124, 1, 4, 8, 4, .ro, 0⟩
def PHM_LSTAT_HOLDOFF : Fld := ⟨0x124, 1, 4, 4, 4, .ro, 0⟩
def PHM_LSTAT_CM : Fld := ⟨0x124, 1, 4, 0, 4, .ro, 0⟩

def fieldsPHMa : List Fld :=
  [PHM_LPER_DCMTH, PHM_LPER_DEM, PHM_LPER_PERIOD, PHM_ADSHA_ADDTH,
   PHM_ADSHA_SHEDTH, PHM_ADSHB_AUTO, PHM_ADSHB_MINPH, PHM_ADSHB_ADDDLY,
   PHM_ADSHB_SHEDDLY, PHM_STEP_STEPDI, PHM_STEP_STEPDV, PHM_BAL_BALMAX,
   PHM_BAL_KBAL, PHM_IMB_IMBREL, PHM_IMB_IMBMIN, PHM_IMB_IMBABS,
   PHM_FLT_OPENTH, PHM_FLT_SENSMIN, PHM_LIM_IPHMAX, PHM_LIM_LTCH,
   PHM_ACT_ASSIGNED, PHM_ACT_ACTIVE, PHM_DRQ_ASSERTED, PHM_DRQ_EXCESS,
   PHM_REMOV_SENSE, PHM_REMOV_OPEN, PHM_OPNLAT_LATCHED, PHM_PHCLR_CLRS,
   PHM_PHCLR_CLRO, PHM_OVSTAT_PRESENT, PHM_OVSTAT_ANALOG, PHM_OVSTAT_LATCH,
   PHM_OVCLR_CLR, PHM_OVCFG_ANEN, PHM_OVCFG_DIGEN, PHM_OVCFG_OVLVL,
   PHM_VSEL_VALID, PHM_VSEL_N, PHM_SETA_VALID, PHM_SETP_VALID]

def fieldsPHMb : List Fld :=
  [PHM_SETA_X, PHM_SETP_X, PHM_SETPCFG_MODE, PHM_SETPCFG_FS,
   PHM_CNT_ABORTS, PHM_CNT_REMOVALS, PHM_LSTAT_CFGERR, PHM_LSTAT_HOLDOFF,
   PHM_LSTAT_CM]

def fieldsPHM : List Fld := fieldsPHMa ++ fieldsPHMb

/-! ### DOM (page 0x0D; 08_domains.md, R255) -/

/-- Number of the first page of the unit. -/
def PG_DOM : Nat := 0x0D

def DOM_DCLR_CLRD : Fld := ⟨0x040, 1, 4, 4, 4, .wol, 0⟩
def DOM_DCLR_CLRL : Fld := ⟨0x040, 1, 4, 0, 4, .wol, 0⟩
def DOM_PRS_PRES : Fld := ⟨0x044, 1, 4, 0, 4, .ro, 0⟩
def DOM_EFF_REVEFF : Fld := ⟨0x050, 4, 4, 16, 16, .ro, 0x200⟩
def DOM_EFF_FWDEFF : Fld := ⟨0x050, 4, 4, 0, 16, .ro, 0x2d0⟩
def DOM_GCTL_PRSEN : Fld := ⟨0x100, 4, 64, 3, 1, .rwl, 1⟩
def DOM_GCTL_REVEN : Fld := ⟨0x100, 4, 64, 2, 1, .rwl, 0⟩
def DOM_GCTL_ADOPT : Fld := ⟨0x100, 4, 64, 1, 1, .rwl, 1⟩
def DOM_GCTL_EN : Fld := ⟨0x100, 4, 64, 0, 1, .rw, 0⟩
def DOM_DCFG_INSDLY : Fld := ⟨0x104, 4, 64, 24, 8, .rwl, 0xa⟩
def DOM_DCFG_PGVDS : Fld := ⟨0x104, 4, 64, 16, 8, .rwl, 0x32⟩
def DOM_DCFG_DVDT : Fld := ⟨0x104, 4, 64, 0, 9, .rwl, 0x32⟩
def DOM_FWD_BRKLVL : Fld := ⟨0x108, 4, 64, 16, 16, .rwl, 0x240⟩
def DOM_FWD_ILIM : Fld := ⟨0x108, 4, 64, 0, 16, .rwl, 0x2d0⟩
def DOM_SC_RSCLVL : Fld := ⟨0x10C, 4, 64, 16, 16, .rwl, 0x3c0⟩
def DOM_SC_SCLVL : Fld := ⟨0x10C, 4, 64, 0, 16, .rwl, 0x500⟩
def DOM_REV_RDV : Fld := ⟨0x110, 4, 64, 24, 8, .rwl, 0xa⟩
def DOM_REV_RBLK : Fld := ⟨0x110, 4, 64, 16, 8, .rwl, 8⟩
def DOM_REV_REVLIM : Fld := ⟨0x110, 4, 64, 0, 16, .rwl, 0x200⟩
def DOM_TIM_RDUTY : Fld := ⟨0x114, 4, 64, 28, 4, .rwl, 7⟩
def DOM_TIM_RETRYN : Fld := ⟨0x114, 4, 64, 24, 4, .rwl, 3⟩
def DOM_TIM_RETRYT : Fld := ⟨0x114, 4, 64, 16, 8, .rwl, 0x64⟩
def DOM_TIM_LIMT : Fld := ⟨0x114, 4, 64, 8, 8, .rwl, 5⟩
def DOM_TIM_BRKT : Fld := ⟨0x114, 4, 64, 0, 8, .rwl, 0xa⟩
def DOM_THA_TAU1 : Fld := ⟨0x118, 4, 64, 16, 16, .rwl, 0x2710⟩
def DOM_THA_RTH1 : Fld := ⟨0x118, 4, 64, 0, 16, .rwl, 0x12c⟩
def DOM_THB_TAU2 : Fld := ⟨0x11C, 4, 64, 16, 16, .rwl, 0x1388⟩
def DOM_THB_RTH2 : Fld := ⟨0x11C, 4, 64, 0, 16, .rwl, 0x4b0⟩
def DOM_THC_TAU3 : Fld := ⟨0x120, 4, 64, 16, 16, .rwl, 0x1770⟩
def DOM_THC_RTH3 : Fld := ⟨0x120, 4, 64, 0, 16, .rwl, 0x2ee0⟩
def DOM_TJ_TAMB : Fld := ⟨0x124, 4, 64, 24, 8, .rwl, 0x3c⟩
def DOM_TJ_TJWARN : Fld := ⟨0x124, 4, 64, 16, 8, .rwl, 0x82⟩
def DOM_TJ_TJCOOL : Fld := ⟨0x124, 4, 64, 8, 8, .rwl, 0x64⟩
def DOM_TJ_TJTRIP : Fld := ⟨0x124, 4, 64, 0, 8, .rwl, 0x96⟩
def DOM_DMG_VSRC : Fld := ⟨0x128, 4, 64, 16, 16, .ro, 0⟩
def DOM_DMG_DMGDLY : Fld := ⟨0x128, 4, 64, 8, 8, .rwl, 0x64⟩
def DOM_DMG_DMGLVL : Fld := ⟨0x128, 4, 64, 0, 8, .rwl, 0x28⟩
def DOM_ST_STATE : Fld := ⟨0x12C, 4, 64, 28, 4, .ro, 0⟩
def DOM_ST_CAUSE : Fld := ⟨0x12C, 4, 64, 24, 4, .ro, 0⟩
def DOM_ST_RCNT : Fld := ⟨0x12C, 4, 64, 20, 4, .ro, 0⟩
def DOM_ST_HELD : Fld := ⟨0x12C, 4, 64, 18, 1, .ro, 0⟩
def DOM_ST_LATCHED : Fld := ⟨0x12C, 4, 64, 17, 1, .ro, 0⟩
def DOM_ST_DAMAGED : Fld := ⟨0x12C, 4, 64, 16, 1, .ro, 0⟩
def DOM_ST_DMGC : Fld := ⟨0x12C, 4, 64, 14, 2, .ro, 0⟩
def DOM_ST_TWARN : Fld := ⟨0x12C, 4, 64, 13, 1, .ro, 0⟩
def DOM_ST_CAPLIM : Fld := ⟨0x12C, 4, 64, 12, 1, .ro, 0⟩
def DOM_ST_LIMIT : Fld := ⟨0x12C, 4, 64, 11, 1, .ro, 0⟩
def DOM_ST_BLOCK : Fld := ⟨0x12C, 4, 64, 10, 1, .ro, 0⟩
def DOM_ST_REVON : Fld := ⟨0x12C, 4, 64, 9, 1, .ro, 0⟩
def DOM_ST_CFGERR : Fld := ⟨0x12C, 4, 64, 8, 1, .ro, 0⟩
def DOM_MON_VOUT : Fld := ⟨0x130, 4, 64, 16, 16, .ro, 0⟩
def DOM_MON_I : Fld := ⟨0x130, 4, 64, 0, 16, .ro, 0⟩
def DOM_MON2_TJM : Fld := ⟨0x134, 4, 64, 16, 16, .ro, 0x3c0⟩
def DOM_MON2_VBUS : Fld := ⟨0x134, 4, 64, 0, 16, .ro, 0⟩
def DOM_INRE_E : Fld := ⟨0x138, 4, 64, 0, 32, .ro, 0⟩
def DOM_CNT_TRIPS : Fld := ⟨0x13C, 4, 64, 16, 16, .rs, 0⟩
def DOM_CNT_RETRIES : Fld := ⟨0x13C, 4, 64, 8, 8, .rs, 0⟩
def DOM_CNT_BLOCKS : Fld := ⟨0x13C, 4, 64, 0, 8, .rs, 0⟩

def fieldsDOMa : List Fld :=
  [DOM_DCLR_CLRD, DOM_DCLR_CLRL, DOM_PRS_PRES, DOM_EFF_REVEFF,
   DOM_EFF_FWDEFF, DOM_GCTL_PRSEN, DOM_GCTL_REVEN, DOM_GCTL_ADOPT,
   DOM_GCTL_EN, DOM_DCFG_INSDLY, DOM_DCFG_PGVDS, DOM_DCFG_DVDT,
   DOM_FWD_BRKLVL, DOM_FWD_ILIM, DOM_SC_RSCLVL, DOM_SC_SCLVL,
   DOM_REV_RDV, DOM_REV_RBLK, DOM_REV_REVLIM, DOM_TIM_RDUTY,
   DOM_TIM_RETRYN, DOM_TIM_RETRYT, DOM_TIM_LIMT, DOM_TIM_BRKT,
   DOM_THA_TAU1, DOM_THA_RTH1, DOM_THB_TAU2, DOM_THB_RTH2,
   DOM_THC_TAU3, DOM_THC_RTH3, DOM_TJ_TAMB, DOM_TJ_TJWARN,
   DOM_TJ_TJCOOL, DOM_TJ_TJTRIP, DOM_DMG_VSRC, DOM_DMG_DMGDLY,
   DOM_DMG_DMGLVL, DOM_ST_STATE, DOM_ST_CAUSE, DOM_ST_RCNT]

def fieldsDOMb : List Fld :=
  [DOM_ST_HELD, DOM_ST_LATCHED, DOM_ST_DAMAGED, DOM_ST_DMGC,
   DOM_ST_TWARN, DOM_ST_CAPLIM, DOM_ST_LIMIT, DOM_ST_BLOCK,
   DOM_ST_REVON, DOM_ST_CFGERR, DOM_MON_VOUT, DOM_MON_I,
   DOM_MON2_TJM, DOM_MON2_VBUS, DOM_INRE_E, DOM_CNT_TRIPS,
   DOM_CNT_RETRIES, DOM_CNT_BLOCKS]

def fieldsDOM : List Fld := fieldsDOMa ++ fieldsDOMb

/-! ### PD (page 0x10; 09_pd_ports.md, R296) -/

/-- Number of the first page of the unit. -/
def PG_PD : Nat := 0x10

def PD_CFG_AUTOCAP : Fld := ⟨0x040, 1, 4, 11, 1, .rwl, 1⟩
def PD_CFG_FRSEN : Fld := ⟨0x040, 1, 4, 10, 1, .rwl, 0⟩
def PD_CFG_VCONNEN : Fld := ⟨0x040, 1, 4, 9, 1, .rwl, 1⟩
def PD_CFG_EPREN : Fld := ⟨0x040, 1, 4, 8, 1, .rwl, 0⟩
def PD_CFG_RPSEL : Fld := ⟨0x040, 1, 4, 6, 2, .rwl, 2⟩
def PD_CFG_TRY : Fld := ⟨0x040, 1, 4, 4, 2, .rwl, 1⟩
def PD_CFG_PWRROLE : Fld := ⟨0x040, 1, 4, 2, 2, .rwl, 2⟩
def PD_CTXCFG_CLASS : Fld := ⟨0x044, 1, 4, 8, 8, .rwl, 3⟩
def PD_CTXCFG_CTX : Fld := ⟨0x044, 1, 4, 0, 7, .rwl, 0⟩
def PD_TCSTAT_STATE : Fld := ⟨0x048, 1, 4, 28, 4, .ro, 0⟩
def PD_TCSTAT_POL : Fld := ⟨0x048, 1, 4, 27, 1, .ro, 0⟩
def PD_TCSTAT_PROLE : Fld := ⟨0x048, 1, 4, 26, 1, .ro, 0⟩
def PD_TCSTAT_DROLE : Fld := ⟨0x048, 1, 4, 25, 1, .ro, 0⟩
def PD_TCSTAT_VCSRC : Fld := ⟨0x048, 1, 4, 24, 1, .ro, 0⟩
def PD_TCSTAT_RPADV : Fld := ⟨0x048, 1, 4, 22, 2, .ro, 0⟩
def PD_TCSTAT_CONTR : Fld := ⟨0x048, 1, 4, 20, 2, .ro, 0⟩
def PD_TCSTAT_TRANS : Fld := ⟨0x048, 1, 4, 19, 1, .ro, 0⟩
def PD_TCSTAT_SWAP : Fld := ⟨0x048, 1, 4, 18, 1, .ro, 0⟩
def PD_TCSTAT_PPSCL : Fld := ⟨0x048, 1, 4, 17, 1, .ro, 0⟩
def PD_TCSTAT_FRSARM : Fld := ⟨0x048, 1, 4, 16, 1, .ro, 0⟩
def PD_CONTRACT_POS : Fld := ⟨0x04C, 1, 4, 28, 4, .ro, 0⟩
def PD_CONTRACT_IOP : Fld := ⟨0x04C, 1, 4, 16, 12, .ro, 0⟩
def PD_CONTRACT_VOP : Fld := ⟨0x04C, 1, 4, 0, 16, .ro, 0⟩
def PD_STG_VSKV : Fld := ⟨0x050, 1, 4, 16, 16, .rwl, 0⟩
def PD_STG_VSKI : Fld := ⟨0x050, 1, 4, 0, 16, .rwl, 0⟩
def PD_IMCAL_IMGAIN : Fld := ⟨0x054, 1, 4, 16, 16, .rwl, 0⟩
def PD_IMCAL_IMOFS : Fld := ⟨0x054, 1, 4, 0, 12, .rwl, 0x800⟩
def PD_STGLIM_VMAX : Fld := ⟨0x058, 1, 4, 16, 16, .rwl, 0xabe⟩
def PD_STGLIM_IMAX : Fld := ⟨0x058, 1, 4, 0, 16, .rwl, 0x1f4⟩
def PD_RAMP_PSLEW : Fld := ⟨0x05C, 1, 4, 16, 16, .rwl, 0xc8⟩
def PD_RAMP_ISLEW : Fld := ⟨0x05C, 1, 4, 0, 16, .rwl, 0x64⟩
def PD_GCFG_OCLVL : Fld := ⟨0x060, 1, 4, 16, 16, .rwl, 0x258⟩
def PD_GCFG_RCLVL : Fld := ⟨0x060, 1, 4, 0, 16, .rwl, 0x32⟩
def PD_GTIM_GRETRYT : Fld := ⟨0x064, 1, 4, 24, 8, .rwl, 0x64⟩
def PD_GTIM_GRETRYN : Fld := ⟨0x064, 1, 4, 20, 4, .rwl, 3⟩
def PD_GTIM_DMGLVL : Fld := ⟨0x064, 1, 4, 8, 8, .rwl, 0x14⟩
def PD_GTIM_PINSDLY : Fld := ⟨0x064, 1, 4, 0, 8, .rwl, 5⟩
def PD_GSTAT_GSTATE : Fld := ⟨0x068, 1, 4, 28, 4, .ro, 0⟩
def PD_GSTAT_CAUSE : Fld := ⟨0x068, 1, 4, 24, 4, .ro, 0⟩
def PD_GSTAT_RCNT : Fld := ⟨0x068, 1, 4, 20, 4, .ro, 0⟩
def PD_GSTAT_LATCHED : Fld := ⟨0x068, 1, 4, 19, 1, .ro, 0⟩
def PD_GSTAT_DAMAGED : Fld := ⟨0x068, 1, 4, 18, 1, .ro, 0⟩
def PD_GSTAT_VCFLT : Fld := ⟨0x068, 1, 4, 17, 1, .ro, 0⟩
def PD_GSTAT_CTXERR : Fld := ⟨0x068, 1, 4, 16, 1, .ro, 0⟩
def PD_CLR_CLRV : Fld := ⟨0x06C, 1, 4, 2, 1, .wol, 0⟩
def PD_CLR_CLRD : Fld := ⟨0x06C, 1, 4, 1, 1, .wol, 0⟩
def PD_CLR_CLRL : Fld := ⟨0x06C, 1, 4, 0, 1, .wol, 0⟩
def PD_ALLOW_CAPSHARE : Fld := ⟨0x070, 1, 4, 16, 16, .ro, 0xffff⟩
def PD_ALLOW_RADV : Fld := ⟨0x070, 1, 4, 15, 1, .ro, 0⟩
def PD_ALLOW_RECEN : Fld := ⟨0x070, 1, 4, 14, 1, .rw, 0⟩
def PD_ALLOW_ALWEXC : Fld := ⟨0x070, 1, 4, 13, 1, .ro, 0⟩
def PD_ALLOW_ISINK : Fld := ⟨0x070, 1, 4, 0, 12, .ro, 0⟩
def PD_DRIVE_PSDIR : Fld := ⟨0x074, 1, 4, 17, 1, .ro, 0⟩
def PD_DRIVE_PSEN : Fld := ⟨0x074, 1, 4, 16, 1, .ro, 0⟩
def PD_DRIVE_VSET : Fld := ⟨0x074, 1, 4, 0, 12, .ro, 0⟩
def PD_MON_I : Fld := ⟨0x078, 1, 4, 16, 16, .ro, 0⟩
def PD_MON_VBUS : Fld := ⟨0x078, 1, 4, 0, 16, .ro, 0⟩
def PD_PEVT_EV : Fld := ⟨0x07C, 1, 4, 0, 15, .w1c, 0⟩
def PD_PEVTEN_EV : Fld := ⟨0x080, 1, 4, 0, 15, .rw, 0⟩
def PD_POL_POLTO : Fld := ⟨0x084, 1, 4, 24, 8, .rwl, 0xa⟩
def PD_POL_SPOLL : Fld := ⟨0x084, 1, 4, 16, 8, .rwl, 0x32⟩
def PD_CABLE_VALID : Fld := ⟨0x088, 1, 4, 31, 1, .ro, 0⟩
def PD_CABLE_EPR : Fld := ⟨0x088, 1, 4, 30, 1, .ro, 0⟩
def PD_CABLE_IMAX : Fld := ⟨0x088, 1, 4, 28, 2, .ro, 0⟩
def PD_CABLE_VMAX : Fld := ⟨0x088, 1, 4, 26, 2, .ro, 0⟩
def PD_CABLEVDO_VDO : Fld := ⟨0x08C, 1, 4, 0, 32, .ro, 0⟩
def PD_PARTNER_SRCCAP : Fld := ⟨0x090, 1, 4, 31, 1, .ro, 0⟩
def PD_PARTNER_EPRCAP : Fld := ⟨0x090, 1, 4, 30, 1, .ro, 0⟩
def PD_PARTNER_DRP : Fld := ⟨0x090, 1, 4, 29, 1, .ro, 0⟩
def PD_PARTNER_FRSCUR : Fld := ⟨0x090, 1, 4, 27, 2, .ro, 0⟩
def PD_CNT_HRST : Fld := ⟨0x094, 1, 4, 24, 8, .rs, 0⟩
def PD_CNT_GTRIPS : Fld := ⟨0x094, 1, 4, 16, 8, .rs, 0⟩
def PD_CNT_NOTSUP : Fld := ⟨0x094, 1, 4, 8, 8, .rs, 0⟩
def PD_CNT_POLTO : Fld := ⟨0x094, 1, 4, 0, 8, .rs, 0⟩
def PD_TXCTL_GO : Fld := ⟨0x098, 1, 4, 31, 1, .wo, 0⟩
def PD_TXCTL_SOPP : Fld := ⟨0x098, 1, 4, 28, 1, .wo, 0⟩
def PD_TXCTL_HRST : Fld := ⟨0x098, 1, 4, 27, 1, .wo, 0⟩
def PD_TXCTL_FRS : Fld := ⟨0x098, 1, 4, 26, 1, .wo, 0⟩
def PD_TXSTAT_REASON : Fld := ⟨0x09C, 1, 4, 8, 8, .ro, 0⟩
def PD_TXSTAT_RESULT : Fld := ⟨0x09C, 1, 4, 0, 4, .ro, 0⟩
def PD_RXCTL_POP : Fld := ⟨0x0A0, 1, 4, 31, 1, .wo, 0⟩
def PD_RXCTL_OVF : Fld := ⟨0x0A0, 1, 4, 7, 1, .w1c, 0⟩
def PD_RXCTL_SOP : Fld := ⟨0x0A0, 1, 4, 4, 2, .ro, 0⟩
def PD_RXCTL_COUNT : Fld := ⟨0x0A0, 1, 4, 0, 3, .ro, 0⟩
def PD_RXCYC_CYCLE : Fld := ⟨0x0A4, 1, 4, 0, 32, .ro, 0⟩
def PD_RXANG_FLAGS : Fld := ⟨0x0A8, 1, 4, 16, 3, .ro, 0⟩
def PD_RXANG_ANGLE : Fld := ⟨0x0A8, 1, 4, 0, 16, .ro, 0⟩
def PD_SRCPDO_PDO : Fld := ⟨0x0C0, 11, 4, 0, 32, .rwl, 0⟩
def PD_SNKPDO_PDO : Fld := ⟨0x100, 11, 4, 0, 32, .rwl, 0⟩
def PD_TXBUF_EXTHDR : Fld := ⟨0x1B0, 1, 4, 16, 16, .rw, 0⟩
def PD_RXBUF_EXTHDR : Fld := ⟨0x2C0, 1, 4, 16, 16, .ro, 0⟩
def PD_TXBUF_HDR : Fld := ⟨0x1B0, 1, 4, 0, 16, .rw, 0⟩
def PD_RXBUF_HDR : Fld := ⟨0x2C0, 1, 4, 0, 16, .ro, 0⟩
def PD_TXBUF_DATA : Fld := ⟨0x1B0, 66, 4, 0, 32, .rw, 0⟩
def PD_RXBUF_DATA : Fld := ⟨0x2C0, 66, 4, 0, 32, .ro, 0⟩

def fieldsPDa : List Fld :=
  [PD_CFG_AUTOCAP, PD_CFG_FRSEN, PD_CFG_VCONNEN, PD_CFG_EPREN,
   PD_CFG_RPSEL, PD_CFG_TRY, PD_CFG_PWRROLE, PD_CTXCFG_CLASS,
   PD_CTXCFG_CTX, PD_TCSTAT_STATE, PD_TCSTAT_POL, PD_TCSTAT_PROLE,
   PD_TCSTAT_DROLE, PD_TCSTAT_VCSRC, PD_TCSTAT_RPADV, PD_TCSTAT_CONTR,
   PD_TCSTAT_TRANS, PD_TCSTAT_SWAP, PD_TCSTAT_PPSCL, PD_TCSTAT_FRSARM,
   PD_CONTRACT_POS, PD_CONTRACT_IOP, PD_CONTRACT_VOP, PD_STG_VSKV,
   PD_STG_VSKI, PD_IMCAL_IMGAIN, PD_IMCAL_IMOFS, PD_STGLIM_VMAX,
   PD_STGLIM_IMAX, PD_RAMP_PSLEW, PD_RAMP_ISLEW, PD_GCFG_OCLVL,
   PD_GCFG_RCLVL, PD_GTIM_GRETRYT, PD_GTIM_GRETRYN, PD_GTIM_DMGLVL,
   PD_GTIM_PINSDLY, PD_GSTAT_GSTATE, PD_GSTAT_CAUSE, PD_GSTAT_RCNT]

def fieldsPDb : List Fld :=
  [PD_GSTAT_LATCHED, PD_GSTAT_DAMAGED, PD_GSTAT_VCFLT, PD_GSTAT_CTXERR,
   PD_CLR_CLRV, PD_CLR_CLRD, PD_CLR_CLRL, PD_ALLOW_CAPSHARE,
   PD_ALLOW_RADV, PD_ALLOW_RECEN, PD_ALLOW_ALWEXC, PD_ALLOW_ISINK,
   PD_DRIVE_PSDIR, PD_DRIVE_PSEN, PD_DRIVE_VSET, PD_MON_I,
   PD_MON_VBUS, PD_PEVT_EV, PD_PEVTEN_EV, PD_POL_POLTO,
   PD_POL_SPOLL, PD_CABLE_VALID, PD_CABLE_EPR, PD_CABLE_IMAX,
   PD_CABLE_VMAX, PD_CABLEVDO_VDO, PD_PARTNER_SRCCAP, PD_PARTNER_EPRCAP,
   PD_PARTNER_DRP, PD_PARTNER_FRSCUR, PD_CNT_HRST, PD_CNT_GTRIPS,
   PD_CNT_NOTSUP, PD_CNT_POLTO, PD_TXCTL_GO, PD_TXCTL_SOPP,
   PD_TXCTL_HRST, PD_TXCTL_FRS, PD_TXSTAT_REASON, PD_TXSTAT_RESULT]

def fieldsPDc : List Fld :=
  [PD_RXCTL_POP, PD_RXCTL_OVF, PD_RXCTL_SOP, PD_RXCTL_COUNT,
   PD_RXCYC_CYCLE, PD_RXANG_FLAGS, PD_RXANG_ANGLE, PD_SRCPDO_PDO,
   PD_SNKPDO_PDO, PD_TXBUF_DATA, PD_RXBUF_DATA]

def fieldsPD : List Fld := fieldsPDa ++ fieldsPDb ++ fieldsPDc

/-! ### PDC (page 0x18; 09_pd_ports.md, R297) -/

/-- Number of the one page of the unit. -/
def PG_PDC : Nat := 0x18

def PDC_IDENT_PID : Fld := ⟨0x040, 1, 4, 16, 16, .rwl, 0⟩
def PDC_IDENT_VID : Fld := ⟨0x040, 1, 4, 0, 16, .rwl, 0⟩
def PDC_VDM_VDMEN : Fld := ⟨0x044, 1, 4, 31, 1, .rwl, 0⟩
def PDC_VDM_SVID : Fld := ⟨0x044, 1, 4, 0, 16, .rwl, 0⟩
def PDC_VCONN_VCLIM : Fld := ⟨0x048, 1, 4, 0, 8, .rwl, 0x3c⟩
def PDC_SUM_RECOV : Fld := ⟨0x04C, 1, 4, 24, 8, .ro, 0⟩
def PDC_SUM_SRC : Fld := ⟨0x04C, 1, 4, 16, 8, .ro, 0⟩
def PDC_SUM_CONTR : Fld := ⟨0x04C, 1, 4, 8, 8, .ro, 0⟩
def PDC_SUM_ATT : Fld := ⟨0x04C, 1, 4, 0, 8, .ro, 0⟩

def fieldsPDC : List Fld :=
  [PDC_IDENT_PID, PDC_IDENT_VID, PDC_VDM_VDMEN, PDC_VDM_SVID,
   PDC_VCONN_VCLIM, PDC_SUM_RECOV, PDC_SUM_SRC, PDC_SUM_CONTR,
   PDC_SUM_ATT]

/-! ### BAT (page 0x19; 10_battery.md, R328) -/

/-- Number of the first page of the unit. -/
def PG_BAT : Nat := 0x19

def BAT_CFG_CEFF : Fld := ⟨0x040, 1, 4, 16, 16, .rwl, 0x8000⟩
def BAT_CFG_CELLEN : Fld := ⟨0x040, 1, 4, 15, 1, .rwl, 0⟩
def BAT_CFG_PMSCTX : Fld := ⟨0x040, 1, 4, 8, 7, .rwl, 0⟩
def BAT_CFG_TSTALE : Fld := ⟨0x040, 1, 4, 0, 8, .rwl, 0x40⟩
def BAT_QRATED_Q : Fld := ⟨0x044, 1, 4, 0, 32, .rwl, 0⟩
def BAT_RINT_R : Fld := ⟨0x048, 1, 4, 0, 32, .rwl, 0⟩
def BAT_SVC_REQ : Fld := ⟨0x04C, 1, 4, 0, 2, .wo, 0⟩
def BAT_EODW_HYS : Fld := ⟨0x050, 1, 4, 24, 8, .rwl, 2⟩
def BAT_EODW_W1 : Fld := ⟨0x050, 1, 4, 16, 8, .rwl, 0x14⟩
def BAT_EODW_W2 : Fld := ⟨0x050, 1, 4, 8, 8, .rwl, 0xa⟩
def BAT_EODW_W3 : Fld := ⟨0x050, 1, 4, 0, 8, .rwl, 5⟩
def BAT_EOCW_W1 : Fld := ⟨0x054, 1, 4, 16, 8, .rwl, 0x5a⟩
def BAT_EOCW_W2 : Fld := ⟨0x054, 1, 4, 8, 8, .rwl, 0x5f⟩
def BAT_EOCW_W3 : Fld := ⟨0x054, 1, 4, 0, 8, .rwl, 0x62⟩
def BAT_VEOD_V : Fld := ⟨0x058, 1, 4, 0, 24, .rwl, 0⟩
def BAT_VEOC_V : Fld := ⟨0x05C, 1, 4, 0, 24, .rwl, 0⟩
def BAT_VFCHK_V : Fld := ⟨0x060, 1, 4, 0, 24, .rwl, 0⟩
def BAT_OCV_V : Fld := ⟨0x064, 11, 4, 0, 24, .rwl, 0⟩
def BAT_REST_ANCTOL : Fld := ⟨0x090, 1, 4, 24, 8, .rwl, 5⟩
def BAT_REST_RESTT : Fld := ⟨0x090, 1, 4, 16, 8, .rwl, 0x1e⟩
def BAT_REST_RESTI : Fld := ⟨0x090, 1, 4, 0, 16, .rwl, 0x10⟩
def BAT_LRNA_LRNHI : Fld := ⟨0x094, 1, 4, 24, 8, .rwl, 0x5f⟩
def BAT_LRNA_LRNLO : Fld := ⟨0x094, 1, 4, 16, 8, .rwl, 0xa⟩
def BAT_LRNA_LRNSPAN : Fld := ⟨0x094, 1, 4, 8, 8, .rwl, 0x32⟩
def BAT_LRNA_LRNMAXD : Fld := ⟨0x094, 1, 4, 0, 8, .rwl, 0xa⟩
def BAT_LRNB_LRNTMAX : Fld := ⟨0x098, 1, 4, 24, 8, .rwl, 0x23⟩
def BAT_LRNB_LRNTMIN : Fld := ⟨0x098, 1, 4, 16, 8, .rwl, 0xf⟩
def BAT_LRNB_LRNCHG : Fld := ⟨0x098, 1, 4, 8, 8, .rwl, 2⟩
def BAT_LRNB_LRNAVG : Fld := ⟨0x098, 1, 4, 0, 4, .rwl, 1⟩
def BAT_LRNC_LRNIMAX : Fld := ⟨0x09C, 1, 4, 16, 16, .rwl, 0xc80⟩
def BAT_LRNC_LRNIMIN : Fld := ⟨0x09C, 1, 4, 0, 16, .rwl, 0xa0⟩
def BAT_LRND_LRNMAXH : Fld := ⟨0x0A0, 1, 4, 0, 8, .rwl, 0x18⟩
def BAT_TWIN_TCMAX : Fld := ⟨0x0A4, 1, 4, 24, 8, .rwl, 0x2d⟩
def BAT_TWIN_TCMIN : Fld := ⟨0x0A4, 1, 4, 16, 8, .rwl, 0⟩
def BAT_TWIN_THYS : Fld := ⟨0x0A4, 1, 4, 8, 8, .rwl, 2⟩
def BAT_CELL_CELLMAX : Fld := ⟨0x0A8, 1, 4, 16, 16, .rwl, 0xffff⟩
def BAT_CELL_CELLMIN : Fld := ⟨0x0A8, 1, 4, 0, 16, .rwl, 0⟩
def BAT_PACKT_T : Fld := ⟨0x0AC, 1, 4, 0, 16, .rw, 0⟩
def BAT_PACKV_VMAX : Fld := ⟨0x0B0, 1, 4, 16, 16, .rw, 0⟩
def BAT_PACKV_VMIN : Fld := ⟨0x0B0, 1, 4, 0, 16, .rw, 0⟩
def BAT_STAT_TUNK : Fld := ⟨0x0C0, 1, 4, 17, 1, .ro, 0⟩
def BAT_STAT_CHGINH : Fld := ⟨0x0C0, 1, 4, 16, 1, .ro, 0⟩
def BAT_STAT_LPEND : Fld := ⟨0x0C0, 1, 4, 15, 1, .ro, 0⟩
def BAT_STAT_LACT : Fld := ⟨0x0C0, 1, 4, 14, 1, .ro, 0⟩
def BAT_STAT_REST : Fld := ⟨0x0C0, 1, 4, 13, 1, .ro, 0⟩
def BAT_STAT_DISF : Fld := ⟨0x0C0, 1, 4, 12, 1, .ro, 0⟩
def BAT_STAT_DISE : Fld := ⟨0x0C0, 1, 4, 11, 1, .ro, 0⟩
def BAT_STAT_LOWCONF : Fld := ⟨0x0C0, 1, 4, 10, 1, .ro, 0⟩
def BAT_STAT_EODCUT : Fld := ⟨0x0C0, 1, 4, 9, 1, .ro, 0⟩
def BAT_STAT_CFGERR : Fld := ⟨0x0C0, 1, 4, 8, 1, .w1c, 0⟩
def BAT_STAT_EOCL : Fld := ⟨0x0C0, 1, 4, 6, 2, .ro, 0⟩
def BAT_STAT_EODL : Fld := ⟨0x0C0, 1, 4, 4, 2, .ro, 0⟩
def BAT_STAT_NOREC : Fld := ⟨0x0C0, 1, 4, 3, 1, .ro, 0⟩
def BAT_STAT_SVC : Fld := ⟨0x0C0, 1, 4, 0, 3, .ro, 0⟩
def BAT_SOC_SOH : Fld := ⟨0x0C4, 1, 4, 16, 16, .ro, 0⟩
def BAT_SOC_SOC : Fld := ⟨0x0C4, 1, 4, 0, 16, .ro, 0⟩
def BAT_Q_Q : Fld := ⟨0x0C8, 1, 4, 0, 32, .ro, 0⟩
def BAT_QLRN_Q : Fld := ⟨0x0CC, 1, 4, 0, 32, .ro, 0⟩
def BAT_QPEND_Q : Fld := ⟨0x0D0, 1, 4, 0, 32, .ro, 0⟩
def BAT_VCOMP_V : Fld := ⟨0x0D4, 1, 4, 0, 24, .ro, 0⟩
def BAT_IMEAN_I : Fld := ⟨0x0D8, 1, 4, 0, 16, .ro, 0⟩
def BAT_SOCOCV_SOC : Fld := ⟨0x0DC, 1, 4, 0, 16, .ro, 0⟩
def BAT_LRNST_LCOUNT : Fld := ⟨0x0E0, 1, 4, 16, 16, .ro, 0⟩
def BAT_LRNST_LSTART : Fld := ⟨0x0E0, 1, 4, 8, 8, .ro, 0⟩
def BAT_LRNST_LREASON : Fld := ⟨0x0E0, 1, 4, 0, 8, .ro, 0⟩
def BAT_LRNDQ_DQ : Fld := ⟨0x0E4, 1, 4, 0, 32, .ro, 0⟩
def BAT_LRNCYC_CYCLE : Fld := ⟨0x0E8, 1, 4, 0, 32, .ro, 0⟩
def BAT_RESTM_MIN : Fld := ⟨0x0EC, 1, 4, 0, 16, .ro, 0⟩
def BAT_CNT_ANCHORS : Fld := ⟨0x0F0, 1, 4, 16, 16, .rs, 0⟩
def BAT_CNT_DISQ : Fld := ⟨0x0F0, 1, 4, 0, 16, .rs, 0⟩
def BAT_RECPG_RECEN : Fld := ⟨0x0F4, 1, 4, 31, 1, .rwl, 0⟩
def BAT_RECPG_PAGE : Fld := ⟨0x0F4, 1, 4, 0, 11, .rwl, 0⟩

def fieldsBATa : List Fld :=
  [BAT_CFG_CEFF, BAT_CFG_CELLEN, BAT_CFG_PMSCTX, BAT_CFG_TSTALE,
   BAT_QRATED_Q, BAT_RINT_R, BAT_SVC_REQ, BAT_EODW_HYS,
   BAT_EODW_W1, BAT_EODW_W2, BAT_EODW_W3, BAT_EOCW_W1,
   BAT_EOCW_W2, BAT_EOCW_W3, BAT_VEOD_V, BAT_VEOC_V,
   BAT_VFCHK_V, BAT_OCV_V, BAT_REST_ANCTOL, BAT_REST_RESTT,
   BAT_REST_RESTI, BAT_LRNA_LRNHI, BAT_LRNA_LRNLO, BAT_LRNA_LRNSPAN,
   BAT_LRNA_LRNMAXD, BAT_LRNB_LRNTMAX, BAT_LRNB_LRNTMIN, BAT_LRNB_LRNCHG,
   BAT_LRNB_LRNAVG, BAT_LRNC_LRNIMAX, BAT_LRNC_LRNIMIN, BAT_LRND_LRNMAXH,
   BAT_TWIN_TCMAX, BAT_TWIN_TCMIN, BAT_TWIN_THYS, BAT_CELL_CELLMAX,
   BAT_CELL_CELLMIN, BAT_PACKT_T, BAT_PACKV_VMAX, BAT_PACKV_VMIN]

def fieldsBATb : List Fld :=
  [BAT_STAT_TUNK, BAT_STAT_CHGINH, BAT_STAT_LPEND, BAT_STAT_LACT,
   BAT_STAT_REST, BAT_STAT_DISF, BAT_STAT_DISE, BAT_STAT_LOWCONF,
   BAT_STAT_EODCUT, BAT_STAT_CFGERR, BAT_STAT_EOCL, BAT_STAT_EODL,
   BAT_STAT_NOREC, BAT_STAT_SVC, BAT_SOC_SOH, BAT_SOC_SOC,
   BAT_Q_Q, BAT_QLRN_Q, BAT_QPEND_Q, BAT_VCOMP_V,
   BAT_IMEAN_I, BAT_SOCOCV_SOC, BAT_LRNST_LCOUNT, BAT_LRNST_LSTART,
   BAT_LRNST_LREASON, BAT_LRNDQ_DQ, BAT_LRNCYC_CYCLE, BAT_RESTM_MIN,
   BAT_CNT_ANCHORS, BAT_CNT_DISQ, BAT_RECPG_RECEN, BAT_RECPG_PAGE]

def fieldsBAT : List Fld := fieldsBATa ++ fieldsBATb

/-! ### SHR (page 0x1D; 07_bus.md, R229) -/

/-- Number of the one page of the unit. -/
def PG_SHR : Nat := 0x1D

def SHR_CFG_CAD : Fld := ⟨0x040, 1, 4, 16, 8, .rwl, 0x40⟩
def SHR_CFG_STALEC : Fld := ⟨0x040, 1, 4, 12, 4, .rwl, 4⟩
def SHR_CFG_ISHEN : Fld := ⟨0x040, 1, 4, 0, 1, .rwl, 1⟩
def SHR_VREF_VCH : Fld := ⟨0x044, 1, 4, 24, 5, .rwl, 0x10⟩
def SHR_VREF_VREF : Fld := ⟨0x044, 1, 4, 0, 24, .rwl, 0x66ff30⟩
def SHR_GAIN_KV : Fld := ⟨0x048, 1, 4, 16, 16, .rwl, 0x40⟩
def SHR_GAIN_KSH : Fld := ⟨0x048, 1, 4, 0, 16, .rwl, 0x100⟩
def SHR_LIM_STEPMAX : Fld := ⟨0x04C, 1, 4, 16, 16, .rwl, 0x32⟩
def SHR_LIM_TRIMLIM : Fld := ⟨0x04C, 1, 4, 0, 16, .rwl, 0x1f4⟩
def SHR_VNOM_VNOM : Fld := ⟨0x050, 1, 4, 0, 16, .rwl, 0⟩
def SHR_STAT_NELIG : Fld := ⟨0x054, 1, 4, 24, 5, .ro, 0⟩
def SHR_STAT_OVRUN : Fld := ⟨0x054, 1, 4, 8, 16, .rs, 0⟩
def SHR_STAT_STATE : Fld := ⟨0x054, 1, 4, 0, 3, .ro, 0⟩
def SHR_IAVG_I : Fld := ⟨0x058, 1, 4, 0, 16, .ro, 0⟩
def SHR_CTRIM_TRIM : Fld := ⟨0x05C, 1, 4, 0, 16, .ro, 0⟩
def SHR_SLOT_ELIG : Fld := ⟨0x060, 24, 4, 31, 1, .ro, 0⟩
def SHR_SLOT_FROZEN : Fld := ⟨0x060, 24, 4, 30, 1, .ro, 0⟩
def SHR_SLOT_MODEERR : Fld := ⟨0x060, 24, 4, 29, 1, .ro, 0⟩
def SHR_SLOT_CTX : Fld := ⟨0x060, 24, 4, 16, 7, .ro, 0⟩
def SHR_SLOT_TRIM : Fld := ⟨0x060, 24, 4, 0, 16, .ro, 0⟩

def fieldsSHR : List Fld :=
  [SHR_CFG_CAD, SHR_CFG_STALEC, SHR_CFG_ISHEN, SHR_VREF_VCH,
   SHR_VREF_VREF, SHR_GAIN_KV, SHR_GAIN_KSH, SHR_LIM_STEPMAX,
   SHR_LIM_TRIMLIM, SHR_VNOM_VNOM, SHR_STAT_NELIG, SHR_STAT_OVRUN,
   SHR_STAT_STATE, SHR_IAVG_I, SHR_CTRIM_TRIM, SHR_SLOT_ELIG,
   SHR_SLOT_FROZEN, SHR_SLOT_MODEERR, SHR_SLOT_CTX, SHR_SLOT_TRIM]

/-! ### CAP (page 0x1E; 07_bus.md, R230) -/

/-- Number of the one page of the unit. -/
def PG_CAP : Nat := 0x1E

def CAP_CAPW_CAPW : Fld := ⟨0x040, 1, 4, 0, 20, .rw, 0xfffff⟩
def CAP_MARG_RELMARG : Fld := ⟨0x044, 1, 4, 16, 16, .rwl, 0x1f4⟩
def CAP_MARG_MARG : Fld := ⟨0x044, 1, 4, 0, 16, .rwl, 0x1f4⟩
def CAP_LAD_STEPEN : Fld := ⟨0x048, 1, 4, 28, 4, .rwl, 0xf⟩
def CAP_LAD_RELWP : Fld := ⟨0x048, 1, 4, 16, 8, .rwl, 0x40⟩
def CAP_LAD_STEPWP : Fld := ⟨0x048, 1, 4, 8, 8, .rwl, 0x10⟩
def CAP_LAD_DRESP : Fld := ⟨0x048, 1, 4, 0, 8, .rwl, 0x20⟩
def CAP_BATMAP_AUXEN : Fld := ⟨0x04C, 1, 4, 14, 1, .rwl, 0⟩
def CAP_BATMAP_AUXL : Fld := ⟨0x04C, 1, 4, 12, 2, .rwl, 1⟩
def CAP_BATMAP_GOV : Fld := ⟨0x04C, 1, 4, 0, 4, .rwl, 0⟩
def CAP_CHG_DISMAX : Fld := ⟨0x050, 1, 4, 16, 16, .rwl, 0⟩
def CAP_CHG_CHGMAX : Fld := ⟨0x050, 1, 4, 0, 16, .rwl, 0⟩
def CAP_RESSOC_SOC : Fld := ⟨0x054, 1, 4, 0, 8, .rwl, 0x32⟩
def CAP_FULLV_V : Fld := ⟨0x058, 1, 4, 0, 24, .rwl, 0x7fffff⟩
def CAP_RESV_V : Fld := ⟨0x05C, 1, 4, 0, 24, .rwl, 0x7fffff⟩
def CAP_EFF0_ETAREC : Fld := ⟨0x060, 1, 4, 16, 16, .rwl, 0x8000⟩
def CAP_EFF0_ETABAT : Fld := ⟨0x060, 1, 4, 0, 16, .rwl, 0x8000⟩
def CAP_EFF1_ETAPORT : Fld := ⟨0x064, 1, 4, 16, 16, .rwl, 0x8000⟩
def CAP_EFF1_ETAAUX : Fld := ⟨0x064, 1, 4, 0, 16, .rwl, 0x8000⟩
def CAP_SURP_SURPMARG : Fld := ⟨0x068, 1, 4, 16, 16, .rwl, 0xc8⟩
def CAP_SURP_SURPWP : Fld := ⟨0x068, 1, 4, 0, 8, .rwl, 4⟩
def CAP_STAT_NORESP : Fld := ⟨0x06C, 1, 4, 7, 1, .w1c, 0⟩
def CAP_STAT_CFGERR : Fld := ⟨0x06C, 1, 4, 6, 1, .ro, 0⟩
def CAP_STAT_MISMATCH : Fld := ⟨0x06C, 1, 4, 5, 1, .ro, 0⟩
def CAP_STAT_SURPLUS : Fld := ⟨0x06C, 1, 4, 4, 1, .ro, 0⟩
def CAP_STAT_HUOWN : Fld := ⟨0x06C, 1, 4, 3, 1, .ro, 0⟩
def CAP_STAT_STEP : Fld := ⟨0x06C, 1, 4, 0, 3, .ro, 0⟩
def CAP_APPL0_S2 : Fld := ⟨0x070, 1, 4, 16, 16, .ro, 0⟩
def CAP_APPL0_S1 : Fld := ⟨0x070, 1, 4, 0, 16, .ro, 0⟩
def CAP_APPL1_S4 : Fld := ⟨0x074, 1, 4, 16, 16, .ro, 0⟩
def CAP_APPL1_S3 : Fld := ⟨0x074, 1, 4, 0, 16, .ro, 0⟩
def CAP_OVER_OVER : Fld := ⟨0x078, 1, 4, 0, 32, .ro, 0⟩
def CAP_FLOOR_DFLOOR : Fld := ⟨0x07C, 1, 4, 16, 16, .rwl, 0x40⟩
def CAP_FLOOR_SHMIN : Fld := ⟨0x07C, 1, 4, 0, 16, .rwl, 0x32⟩
def CAP_DLIM_REVLIM : Fld := ⟨0x080, 12, 4, 16, 16, .ro, 0xffff⟩
def CAP_DLIM_FWDLIM : Fld := ⟨0x080, 12, 4, 0, 16, .ro, 0xffff⟩
def CAP_LGRID_P : Fld := ⟨0x0C0, 1, 4, 0, 32, .ro, 0⟩
def CAP_LBATC_P : Fld := ⟨0x0C4, 1, 4, 0, 32, .ro, 0⟩
def CAP_LBATD_P : Fld := ⟨0x0C8, 1, 4, 0, 32, .ro, 0⟩
def CAP_LDOMF_P : Fld := ⟨0x0CC, 1, 4, 0, 32, .ro, 0⟩
def CAP_LDOMR_P : Fld := ⟨0x0D0, 1, 4, 0, 32, .ro, 0⟩
def CAP_LPORTF_P : Fld := ⟨0x0D4, 1, 4, 0, 32, .ro, 0⟩
def CAP_LPORTR_P : Fld := ⟨0x0D8, 1, 4, 0, 32, .ro, 0⟩
def CAP_LAUX_P : Fld := ⟨0x0DC, 1, 4, 0, 32, .ro, 0⟩
def CAP_LRECOV_P : Fld := ⟨0x0E0, 1, 4, 0, 32, .ro, 0⟩
def CAP_LSURP_P : Fld := ⟨0x0E4, 1, 4, 0, 32, .ro, 0⟩
def CAP_LRESID_P : Fld := ⟨0x0E8, 1, 4, 0, 32, .ro, 0⟩
def CAP_LCYC_CYCLE : Fld := ⟨0x0EC, 1, 4, 0, 32, .ro, 0⟩
def CAP_LANG_FLAGS : Fld := ⟨0x0F0, 1, 4, 16, 3, .ro, 0⟩
def CAP_LANG_ANGLE : Fld := ⟨0x0F0, 1, 4, 0, 16, .ro, 0⟩
def CAP_GRIDE_LO_DATA : Fld := ⟨0x100, 1, 4, 0, 32, .ro, 0⟩
def CAP_GRIDE_HI_DATA : Fld := ⟨0x104, 1, 4, 0, 32, .ro, 0⟩
def CAP_RECE_LO_DATA : Fld := ⟨0x108, 1, 4, 0, 32, .ro, 0⟩
def CAP_RECE_HI_DATA : Fld := ⟨0x10C, 1, 4, 0, 32, .ro, 0⟩
def CAP_MMTOL_TOL : Fld := ⟨0x110, 1, 4, 0, 16, .rwl, 0x3e8⟩

def fieldsCAPa : List Fld :=
  [CAP_CAPW_CAPW, CAP_MARG_RELMARG, CAP_MARG_MARG, CAP_LAD_STEPEN,
   CAP_LAD_RELWP, CAP_LAD_STEPWP, CAP_LAD_DRESP, CAP_BATMAP_AUXEN,
   CAP_BATMAP_AUXL, CAP_BATMAP_GOV, CAP_CHG_DISMAX, CAP_CHG_CHGMAX,
   CAP_RESSOC_SOC, CAP_FULLV_V, CAP_RESV_V, CAP_EFF0_ETAREC,
   CAP_EFF0_ETABAT, CAP_EFF1_ETAPORT, CAP_EFF1_ETAAUX, CAP_SURP_SURPMARG,
   CAP_SURP_SURPWP, CAP_STAT_NORESP, CAP_STAT_CFGERR, CAP_STAT_MISMATCH,
   CAP_STAT_SURPLUS, CAP_STAT_HUOWN, CAP_STAT_STEP, CAP_APPL0_S2,
   CAP_APPL0_S1, CAP_APPL1_S4, CAP_APPL1_S3, CAP_OVER_OVER,
   CAP_FLOOR_DFLOOR, CAP_FLOOR_SHMIN, CAP_DLIM_REVLIM, CAP_DLIM_FWDLIM,
   CAP_LGRID_P, CAP_LBATC_P, CAP_LBATD_P, CAP_LDOMF_P]

def fieldsCAPb : List Fld :=
  [CAP_LDOMR_P, CAP_LPORTF_P, CAP_LPORTR_P, CAP_LAUX_P,
   CAP_LRECOV_P, CAP_LSURP_P, CAP_LRESID_P, CAP_LCYC_CYCLE,
   CAP_LANG_FLAGS, CAP_LANG_ANGLE, CAP_GRIDE_LO_DATA, CAP_GRIDE_HI_DATA,
   CAP_RECE_LO_DATA, CAP_RECE_HI_DATA, CAP_MMTOL_TOL]

def fieldsCAP : List Fld := fieldsCAPa ++ fieldsCAPb

/-! ### HLD (page 0x1F; 07_bus.md, R231) -/

/-- Number of the one page of the unit. -/
def PG_HLD : Nat := 0x1F

def HLD_CFG_SAGCH : Fld := ⟨0x040, 1, 4, 16, 5, .rwl, 0x10⟩
def HLD_CFG_SAGEN : Fld := ⟨0x040, 1, 4, 9, 1, .rwl, 0⟩
def HLD_CFG_LOSSEN : Fld := ⟨0x040, 1, 4, 8, 1, .rwl, 1⟩
def HLD_CFG_HLOOPS : Fld := ⟨0x040, 1, 4, 0, 4, .rwl, 0⟩
def HLD_HUREF_V : Fld := ⟨0x044, 1, 4, 0, 24, .rwl, 0x66ff30⟩
def HLD_SAGLVL_V : Fld := ⟨0x048, 1, 4, 0, 24, .rwl, 0x660b0c⟩
def HLD_EXHV_V : Fld := ⟨0x060, 1, 4, 0, 24, .rwl, 0⟩
def HLD_SHRG_KSHR : Fld := ⟨0x04C, 1, 4, 16, 16, .rwl, 4⟩
def HLD_SHRG_SHRMAX : Fld := ⟨0x04C, 1, 4, 0, 16, .rwl, 0x2000⟩
def HLD_RET_RETI : Fld := ⟨0x050, 1, 4, 16, 16, .rwl, 0x40⟩
def HLD_RET_RETDLY : Fld := ⟨0x050, 1, 4, 0, 16, .rwl, 0x100⟩
def HLD_RAMP_RAMPDIV : Fld := ⟨0x054, 1, 4, 24, 8, .rwl, 4⟩
def HLD_RAMP_RAMPSTEP : Fld := ⟨0x054, 1, 4, 16, 8, .rwl, 0x32⟩
def HLD_RAMP_RAMPLO : Fld := ⟨0x054, 1, 4, 0, 16, .rwl, 0xcb20⟩
def HLD_TIMEOUT_SAGHOLD : Fld := ⟨0x058, 1, 4, 16, 16, .rwl, 0x100⟩
def HLD_TIMEOUT_RETTO : Fld := ⟨0x058, 1, 4, 0, 16, .rwl, 0x800⟩
def HLD_RELSLEW_SLEW : Fld := ⟨0x05C, 1, 4, 0, 24, .rwl, 0x100⟩
def HLD_STAT_RAMPN : Fld := ⟨0x064, 1, 4, 24, 8, .ro, 0⟩
def HLD_STAT_CFGERR : Fld := ⟨0x064, 1, 4, 22, 1, .ro, 0⟩
def HLD_STAT_CAUSE : Fld := ⟨0x064, 1, 4, 20, 2, .ro, 0⟩
def HLD_STAT_EXH : Fld := ⟨0x064, 1, 4, 16, 4, .ro, 0⟩
def HLD_STAT_READY : Fld := ⟨0x064, 1, 4, 12, 4, .ro, 0⟩
def HLD_STAT_OWNED : Fld := ⟨0x064, 1, 4, 8, 4, .ro, 0⟩
def HLD_STAT_STATE : Fld := ⟨0x064, 1, 4, 0, 3, .ro, 0⟩
def HLD_MINBUS_V : Fld := ⟨0x068, 1, 4, 0, 24, .ro, 0⟩
def HLD_TCYC_CYCLE : Fld := ⟨0x06C, 1, 4, 0, 32, .ro, 0⟩
def HLD_TANG_FLAGS : Fld := ⟨0x070, 1, 4, 16, 3, .ro, 0⟩
def HLD_TANG_ANGLE : Fld := ⟨0x070, 1, 4, 0, 16, .ro, 0⟩
def HLD_REF_V : Fld := ⟨0x080, 4, 4, 0, 24, .ro, 0⟩

def fieldsHLD : List Fld :=
  [HLD_CFG_SAGCH, HLD_CFG_SAGEN, HLD_CFG_LOSSEN, HLD_CFG_HLOOPS,
   HLD_HUREF_V, HLD_SAGLVL_V, HLD_EXHV_V, HLD_SHRG_KSHR,
   HLD_SHRG_SHRMAX, HLD_RET_RETI, HLD_RET_RETDLY, HLD_RAMP_RAMPDIV,
   HLD_RAMP_RAMPSTEP, HLD_RAMP_RAMPLO, HLD_TIMEOUT_SAGHOLD, HLD_TIMEOUT_RETTO,
   HLD_RELSLEW_SLEW, HLD_STAT_RAMPN, HLD_STAT_CFGERR, HLD_STAT_CAUSE,
   HLD_STAT_EXH, HLD_STAT_READY, HLD_STAT_OWNED, HLD_STAT_STATE,
   HLD_MINBUS_V, HLD_TCYC_CYCLE, HLD_TANG_FLAGS, HLD_TANG_ANGLE,
   HLD_REF_V]

/-! ### SEQ (page 0x20; 11_sequencing_thermal.md, R350) -/

/-- Number of the one page of the unit. -/
def PG_SEQ : Nat := 0x20

def SEQ_CFG_AUTO : Fld := ⟨0x040, 1, 4, 31, 1, .rwl, 0⟩
def SEQ_CFG_RETRYN : Fld := ⟨0x040, 1, 4, 24, 4, .rwl, 3⟩
def SEQ_CFG_RETRYDLY : Fld := ⟨0x040, 1, 4, 16, 8, .rwl, 0xa⟩
def SEQ_CFG_INRAIL : Fld := ⟨0x040, 1, 4, 8, 5, .rwl, 0⟩
def SEQ_CFG_INSRC : Fld := ⟨0x040, 1, 4, 0, 2, .rwl, 0⟩
def SEQ_INQ_INLOSS : Fld := ⟨0x044, 1, 4, 16, 16, .rwl, 0x10⟩
def SEQ_INQ_INRET : Fld := ⟨0x044, 1, 4, 0, 16, .rwl, 0x100⟩
def SEQ_CMD_CMD : Fld := ⟨0x048, 1, 4, 0, 2, .wo, 0⟩
def SEQ_STAT_STATE : Fld := ⟨0x04C, 1, 4, 29, 3, .ro, 0⟩
def SEQ_STAT_STEP : Fld := ⟨0x04C, 1, 4, 24, 5, .ro, 0⟩
def SEQ_STAT_ATTEMPT : Fld := ⟨0x04C, 1, 4, 16, 5, .ro, 0⟩
def SEQ_STAT_FAILPEND : Fld := ⟨0x04C, 1, 4, 15, 1, .ro, 0⟩
def SEQ_STAT_INLOST : Fld := ⟨0x04C, 1, 4, 14, 1, .ro, 0⟩
def SEQ_STAT_INGOOD : Fld := ⟨0x04C, 1, 4, 13, 1, .ro, 0⟩
def SEQ_FAIL_CAUSE : Fld := ⟨0x050, 1, 4, 28, 4, .ro, 0⟩
def SEQ_FAIL_STEP : Fld := ⟨0x050, 1, 4, 20, 5, .ro, 0⟩
def SEQ_FAIL_RAIL : Fld := ⟨0x050, 1, 4, 0, 5, .ro, 0⟩
def SEQ_UPSTEP_STEP : Fld := ⟨0x080, 32, 4, 0, 32, .rwl, 0⟩
def SEQ_DNSTEP_STEP : Fld := ⟨0x100, 32, 4, 0, 32, .rwl, 0⟩

def fieldsSEQ : List Fld :=
  [SEQ_CFG_AUTO, SEQ_CFG_RETRYN, SEQ_CFG_RETRYDLY, SEQ_CFG_INRAIL,
   SEQ_CFG_INSRC, SEQ_INQ_INLOSS, SEQ_INQ_INRET, SEQ_CMD_CMD,
   SEQ_STAT_STATE, SEQ_STAT_STEP, SEQ_STAT_ATTEMPT, SEQ_STAT_FAILPEND,
   SEQ_STAT_INLOST, SEQ_STAT_INGOOD, SEQ_FAIL_CAUSE, SEQ_FAIL_STEP,
   SEQ_FAIL_RAIL, SEQ_UPSTEP_STEP, SEQ_DNSTEP_STEP]

/-! ### SUP (page 0x21; 11_sequencing_thermal.md, R351) -/

/-- Number of the one page of the unit. -/
def PG_SUP : Nat := 0x21

def SUP_RCFG_MON : Fld := ⟨0x040, 24, 4, 31, 1, .rwl, 0⟩
def SUP_RCFG_ENEN : Fld := ⟨0x040, 24, 4, 30, 1, .rwl, 0⟩
def SUP_RCFG_EPOL : Fld := ⟨0x040, 24, 4, 29, 1, .rwl, 0⟩
def SUP_RCFG_GPIO : Fld := ⟨0x040, 24, 4, 24, 5, .rwl, 0⟩
def SUP_RCFG_FACT : Fld := ⟨0x040, 24, 4, 20, 2, .rwl, 1⟩
def SUP_RCFG_FDGL : Fld := ⟨0x040, 24, 4, 0, 8, .rwl, 4⟩
def SUP_LVLA_UVW : Fld := ⟨0x0A0, 24, 4, 16, 12, .rwl, 0⟩
def SUP_LVLA_UVF : Fld := ⟨0x0A0, 24, 4, 0, 12, .rwl, 0⟩
def SUP_LVLB_OVF : Fld := ⟨0x100, 24, 4, 16, 12, .rwl, 0xfff⟩
def SUP_LVLB_OVW : Fld := ⟨0x100, 24, 4, 0, 12, .rwl, 0xfff⟩
def SUP_RTIM_PGTO : Fld := ⟨0x160, 24, 4, 24, 8, .rwl, 0x14⟩
def SUP_RTIM_DISTO : Fld := ⟨0x160, 24, 4, 16, 8, .rwl, 0xa⟩
def SUP_RTIM_DISLVL : Fld := ⟨0x160, 24, 4, 0, 12, .rwl, 0x100⟩
def SUP_PG_MASK : Fld := ⟨0x1C0, 1, 4, 0, 24, .ro, 0⟩
def SUP_WUV_MASK : Fld := ⟨0x1C4, 1, 4, 0, 24, .ro, 0⟩
def SUP_WOV_MASK : Fld := ⟨0x1C8, 1, 4, 0, 24, .ro, 0⟩
def SUP_FUV_MASK : Fld := ⟨0x1CC, 1, 4, 0, 24, .ro, 0⟩
def SUP_FOV_MASK : Fld := ⟨0x1D0, 1, 4, 0, 24, .ro, 0⟩
def SUP_ENOUT_MASK : Fld := ⟨0x1D4, 1, 4, 0, 24, .ro, 0⟩
def SUP_NODIS_MASK : Fld := ⟨0x1D8, 1, 4, 0, 24, .w1c, 0⟩
def SUP_FCLR_CLR : Fld := ⟨0x1DC, 1, 4, 0, 24, .wol, 0⟩

def fieldsSUP : List Fld :=
  [SUP_RCFG_MON, SUP_RCFG_ENEN, SUP_RCFG_EPOL, SUP_RCFG_GPIO,
   SUP_RCFG_FACT, SUP_RCFG_FDGL, SUP_LVLA_UVW, SUP_LVLA_UVF,
   SUP_LVLB_OVF, SUP_LVLB_OVW, SUP_RTIM_PGTO, SUP_RTIM_DISTO,
   SUP_RTIM_DISLVL, SUP_PG_MASK, SUP_WUV_MASK, SUP_WOV_MASK,
   SUP_FUV_MASK, SUP_FOV_MASK, SUP_ENOUT_MASK, SUP_NODIS_MASK,
   SUP_FCLR_CLR]

/-! ### THM (page 0x22; 11_sequencing_thermal.md, R352) -/

/-- Number of the one page of the unit. -/
def PG_THM : Nat := 0x22

def THM_LVL_TWARN : Fld := ⟨0x040, 1, 4, 24, 8, .rwl, 0x64⟩
def THM_LVL_TH3 : Fld := ⟨0x040, 1, 4, 16, 8, .rwl, 0x76⟩
def THM_LVL_TH2 : Fld := ⟨0x040, 1, 4, 8, 8, .rwl, 0x70⟩
def THM_LVL_TH1 : Fld := ⟨0x040, 1, 4, 0, 8, .rwl, 0x69⟩
def THM_RATE_RATELIM : Fld := ⟨0x044, 1, 4, 16, 16, .rwl, 0x50⟩
def THM_RATE_HYS : Fld := ⟨0x044, 1, 4, 8, 8, .rwl, 3⟩
def THM_RATE_RATELVL : Fld := ⟨0x044, 1, 4, 0, 2, .rwl, 1⟩
def THM_MASK_NVMT : Fld := ⟨0x048, 1, 4, 9, 1, .rwl, 1⟩
def THM_MASK_SCBT : Fld := ⟨0x048, 1, 4, 8, 1, .rwl, 1⟩
def THM_MASK_ENGMASK : Fld := ⟨0x048, 1, 4, 0, 8, .rwl, 0xfe⟩
def THM_TEMP_T : Fld := ⟨0x04C, 1, 4, 0, 16, .ro, 0⟩
def THM_STAT_RATEARM : Fld := ⟨0x050, 1, 4, 7, 1, .ro, 0⟩
def THM_STAT_RATEHI : Fld := ⟨0x050, 1, 4, 6, 1, .ro, 0⟩
def THM_STAT_SNSFLT : Fld := ⟨0x050, 1, 4, 5, 1, .ro, 0⟩
def THM_STAT_NVMOK : Fld := ⟨0x050, 1, 4, 4, 1, .ro, 0⟩
def THM_STAT_WARN : Fld := ⟨0x050, 1, 4, 3, 1, .ro, 0⟩
def THM_STAT_LEVEL : Fld := ⟨0x050, 1, 4, 0, 2, .ro, 0⟩
def THM_RATEM_R : Fld := ⟨0x054, 1, 4, 0, 16, .ro, 0⟩
def THM_TMAX_T : Fld := ⟨0x058, 1, 4, 0, 16, .rs, 0x8000⟩

def fieldsTHM : List Fld :=
  [THM_LVL_TWARN, THM_LVL_TH3, THM_LVL_TH2, THM_LVL_TH1,
   THM_RATE_RATELIM, THM_RATE_HYS, THM_RATE_RATELVL, THM_MASK_NVMT,
   THM_MASK_SCBT, THM_MASK_ENGMASK, THM_TEMP_T, THM_STAT_RATEARM,
   THM_STAT_RATEHI, THM_STAT_SNSFLT, THM_STAT_NVMOK, THM_STAT_WARN,
   THM_STAT_LEVEL, THM_RATEM_R, THM_TMAX_T]

/-! ### NVM (page 0x23; 14_nvm_config.md, R432) -/

/-- Number of the one page of the unit. -/
def PG_NVM : Nat := 0x23

def NVM_CFG_HYS : Fld := ⟨0x040, 1, 4, 16, 4, .rwl, 4⟩
def NVM_CFG_BOWLVL : Fld := ⟨0x040, 1, 4, 8, 8, .rwl, 0x2d⟩
def NVM_CFG_MODE : Fld := ⟨0x040, 1, 4, 0, 1, .rwl, 0⟩
def NVM_STAT_LOSTPG : Fld := ⟨0x044, 1, 4, 16, 5, .ro, 0⟩
def NVM_STAT_CLEAN : Fld := ⟨0x044, 1, 4, 12, 1, .ro, 0⟩
def NVM_STAT_INHTHM : Fld := ⟨0x044, 1, 4, 11, 1, .ro, 1⟩
def NVM_STAT_INHVIN : Fld := ⟨0x044, 1, 4, 10, 1, .ro, 0⟩
def NVM_STAT_NSLOT : Fld := ⟨0x044, 1, 4, 0, 5, .ro, 0⟩
def NVM_VIN_V : Fld := ⟨0x048, 1, 4, 0, 16, .ro, 0⟩
def NVM_SLOT_VALID : Fld := ⟨0x050, 16, 4, 31, 1, .ro, 0⟩
def NVM_SLOT_PAGE : Fld := ⟨0x050, 16, 4, 0, 11, .ro, 0⟩
def NVM_RCSTAT_INTR : Fld := ⟨0x090, 1, 4, 31, 1, .ro, 0⟩
def NVM_RCSTAT_PAGE : Fld := ⟨0x090, 1, 4, 16, 11, .ro, 0⟩
def NVM_RCSTAT_DONE : Fld := ⟨0x090, 1, 4, 11, 5, .ro, 0⟩
def NVM_RCSTAT_UNC : Fld := ⟨0x090, 1, 4, 0, 11, .ro, 0⟩
def NVM_PWSEL_KIND : Fld := ⟨0x094, 1, 4, 4, 1, .rw, 0⟩
def NVM_PWSEL_REGION : Fld := ⟨0x094, 1, 4, 0, 4, .rw, 0⟩
def NVM_PWD_PW : Fld := ⟨0x098, 1, 4, 0, 32, .wo, 0⟩
def NVM_PWST_BARRED : Fld := ⟨0x09C, 1, 4, 31, 1, .ro, 0⟩
def NVM_PWST_WOPEN : Fld := ⟨0x09C, 1, 4, 16, 9, .ro, 0⟩
def NVM_PWST_ROPEN : Fld := ⟨0x09C, 1, 4, 0, 9, .ro, 0⟩
def NVM_PWNEW_PW : Fld := ⟨0x0A0, 1, 4, 0, 32, .wo, 0⟩
def NVM_WREFCNT_COUNT : Fld := ⟨0x0A4, 1, 4, 0, 16, .rs, 0⟩
def NVM_CPCMD_GO : Fld := ⟨0x0B0, 1, 4, 31, 1, .wo, 0⟩
def NVM_CPCMD_PAGE : Fld := ⟨0x0B0, 1, 4, 0, 11, .wo, 0⟩
def NVM_CPSTAT_BUSY : Fld := ⟨0x0B4, 1, 4, 31, 1, .ro, 0⟩
def NVM_CPSTAT_ERR : Fld := ⟨0x0B4, 1, 4, 30, 1, .w1c, 0⟩
def NVM_CPSTAT_PAGE : Fld := ⟨0x0B4, 1, 4, 0, 11, .ro, 0⟩
def NVM_REGION_OWNER : Fld := ⟨0x0C0, 9, 4, 18, 2, .ro, 0⟩
def NVM_REGION_WPW : Fld := ⟨0x0C0, 9, 4, 17, 1, .ro, 0⟩
def NVM_REGION_RPW : Fld := ⟨0x0C0, 9, 4, 16, 1, .ro, 0⟩
def NVM_REGION_SIZE : Fld := ⟨0x0C0, 9, 4, 8, 7, .ro, 0⟩
def NVM_REGION_BASE : Fld := ⟨0x0C0, 9, 4, 0, 7, .ro, 0⟩
def NVM_RECBUF_DATA : Fld := ⟨0x200, 60, 4, 0, 32, .rw, 0⟩

def fieldsNVM : List Fld :=
  [NVM_CFG_HYS, NVM_CFG_BOWLVL, NVM_CFG_MODE, NVM_STAT_LOSTPG,
   NVM_STAT_CLEAN, NVM_STAT_INHTHM, NVM_STAT_INHVIN, NVM_STAT_NSLOT,
   NVM_VIN_V, NVM_SLOT_VALID, NVM_SLOT_PAGE, NVM_RCSTAT_INTR,
   NVM_RCSTAT_PAGE, NVM_RCSTAT_DONE, NVM_RCSTAT_UNC, NVM_PWSEL_KIND,
   NVM_PWSEL_REGION, NVM_PWD_PW, NVM_PWST_BARRED, NVM_PWST_WOPEN,
   NVM_PWST_ROPEN, NVM_PWNEW_PW, NVM_WREFCNT_COUNT, NVM_CPCMD_GO,
   NVM_CPCMD_PAGE, NVM_CPSTAT_BUSY, NVM_CPSTAT_ERR, NVM_CPSTAT_PAGE,
   NVM_REGION_OWNER, NVM_REGION_WPW, NVM_REGION_RPW, NVM_REGION_SIZE,
   NVM_REGION_BASE, NVM_RECBUF_DATA]

/-! ### REC (page 0x24; 16_recorder.md, R477) -/

/-- Number of the one page of the unit. -/
def PG_REC : Nat := 0x24

def REC_CFG_REFILL : Fld := ⟨0x040, 1, 4, 16, 16, .rwl, 0x64⟩
def REC_CFG_DEPTH : Fld := ⟨0x040, 1, 4, 8, 8, .rwl, 8⟩
def REC_STAT_FULL : Fld := ⟨0x044, 1, 4, 31, 1, .ro, 0⟩
def REC_STAT_NOREG : Fld := ⟨0x044, 1, 4, 30, 1, .ro, 0⟩
def REC_STAT_HDRNEW : Fld := ⟨0x044, 1, 4, 29, 1, .ro, 0⟩
def REC_STAT_STARTED : Fld := ⟨0x044, 1, 4, 28, 1, .ro, 0⟩
def REC_STAT_QCNT : Fld := ⟨0x044, 1, 4, 16, 8, .ro, 0⟩
def REC_STAT_NREC : Fld := ⟨0x044, 1, 4, 0, 14, .ro, 0⟩
def REC_CAPN_CAPN : Fld := ⟨0x048, 1, 4, 0, 14, .ro, 0⟩
def REC_OPHRS_OPHRS : Fld := ⟨0x04C, 1, 4, 0, 32, .ro, 0⟩
def REC_PCC_PCC : Fld := ⟨0x050, 1, 4, 0, 32, .ro, 0⟩
def REC_DROP_DROPFULL : Fld := ⟨0x054, 1, 4, 16, 16, .rs, 0⟩
def REC_DROP_DROPQ : Fld := ⟨0x054, 1, 4, 0, 16, .rs, 0⟩
def REC_SUPCNT_COUNT : Fld := ⟨0x058, 1, 4, 0, 32, .rs, 0⟩
def REC_RDIDX_IDX : Fld := ⟨0x060, 1, 4, 0, 14, .rw, 0⟩
def REC_RD_DATA : Fld := ⟨0x064, 8, 4, 0, 32, .ro, 0⟩
def REC_FILT_CLASSM : Fld := ⟨0x090, 1, 4, 16, 16, .rw, 0xffff⟩
def REC_FILT_MINSEV : Fld := ⟨0x090, 1, 4, 0, 3, .rw, 0⟩
def REC_PUTP_P : Fld := ⟨0x094, 4, 4, 0, 24, .rw, 0⟩
def REC_PUTCODE_SEV : Fld := ⟨0x0A4, 1, 4, 16, 3, .wo, 0⟩
def REC_PUTCODE_CODE : Fld := ⟨0x0A4, 1, 4, 0, 16, .wo, 0⟩
def REC_RL_CODE : Fld := ⟨0x0C0, 8, 4, 16, 16, .rwl, 0⟩
def REC_RL_DEPTH : Fld := ⟨0x0C0, 8, 4, 10, 6, .rwl, 0⟩
def REC_RL_REFILL : Fld := ⟨0x0C0, 8, 4, 0, 10, .rwl, 0⟩

def fieldsREC : List Fld :=
  [REC_CFG_REFILL, REC_CFG_DEPTH, REC_STAT_FULL, REC_STAT_NOREG,
   REC_STAT_HDRNEW, REC_STAT_STARTED, REC_STAT_QCNT, REC_STAT_NREC,
   REC_CAPN_CAPN, REC_OPHRS_OPHRS, REC_PCC_PCC, REC_DROP_DROPFULL,
   REC_DROP_DROPQ, REC_SUPCNT_COUNT, REC_RDIDX_IDX, REC_RD_DATA,
   REC_FILT_CLASSM, REC_FILT_MINSEV, REC_PUTP_P, REC_PUTCODE_SEV,
   REC_PUTCODE_CODE, REC_RL_CODE, REC_RL_DEPTH, REC_RL_REFILL]

/-! ### BBX (page 0x25; 16_recorder.md, R478) -/

/-- Number of the one page of the unit. -/
def PG_BBX : Nat := 0x25

def BBX_CFG_OVRW : Fld := ⟨0x040, 1, 4, 31, 1, .rwl, 0⟩
def BBX_CFG_NCHMAX : Fld := ⟨0x040, 1, 4, 24, 5, .rwl, 0x10⟩
def BBX_TRIG_GO : Fld := ⟨0x044, 1, 4, 0, 1, .wo, 0⟩
def BBX_STAT_STATE : Fld := ⟨0x048, 1, 4, 29, 3, .ro, 0⟩
def BBX_STAT_NOREG : Fld := ⟨0x048, 1, 4, 28, 1, .ro, 0⟩
def BBX_STAT_NSLOT : Fld := ⟨0x048, 1, 4, 24, 4, .ro, 0⟩
def BBX_STAT_VALID : Fld := ⟨0x048, 1, 4, 16, 8, .ro, 0⟩
def BBX_STAT_FILL : Fld := ⟨0x048, 1, 4, 0, 10, .ro, 0⟩
def BBX_MISSED_COUNT : Fld := ⟨0x04C, 1, 4, 0, 16, .rs, 0⟩
def BBX_SLOTREL_REL : Fld := ⟨0x050, 1, 4, 0, 8, .wol, 0⟩
def BBX_LAST_SEQ : Fld := ⟨0x054, 1, 4, 8, 24, .ro, 0⟩
def BBX_LAST_SLOT : Fld := ⟨0x054, 1, 4, 0, 3, .ro, 0⟩
def BBX_CHCFG_EN : Fld := ⟨0x060, 16, 4, 31, 1, .rwl, 0⟩
def BBX_CHCFG_KIND : Fld := ⟨0x060, 16, 4, 5, 3, .rwl, 0⟩
def BBX_CHCFG_INDEX : Fld := ⟨0x060, 16, 4, 0, 5, .rwl, 0⟩

def fieldsBBX : List Fld :=
  [BBX_CFG_OVRW, BBX_CFG_NCHMAX, BBX_TRIG_GO, BBX_STAT_STATE,
   BBX_STAT_NOREG, BBX_STAT_NSLOT, BBX_STAT_VALID, BBX_STAT_FILL,
   BBX_MISSED_COUNT, BBX_SLOTREL_REL, BBX_LAST_SEQ, BBX_LAST_SLOT,
   BBX_CHCFG_EN, BBX_CHCFG_KIND, BBX_CHCFG_INDEX]

/-! ### ECC (page 0x26; 15_integrity.md, R447) -/

/-- Number of the one page of the unit. -/
def PG_ECC : Nat := 0x26

def ECC_CECNT_COUNT : Fld := ⟨0x040, 1, 4, 0, 32, .rs, 0⟩
def ECC_CESYM_TWO : Fld := ⟨0x044, 1, 4, 16, 16, .rs, 0⟩
def ECC_CESYM_ONE : Fld := ⟨0x044, 1, 4, 0, 16, .rs, 0⟩
def ECC_UECNT_AFCNT : Fld := ⟨0x048, 1, 4, 16, 16, .rs, 0⟩
def ECC_UECNT_UECNT : Fld := ⟨0x048, 1, 4, 0, 16, .rs, 0⟩
def ECC_UEADDR_AF : Fld := ⟨0x04C, 1, 4, 31, 1, .ro, 0⟩
def ECC_UEADDR_REQ : Fld := ⟨0x04C, 1, 4, 24, 4, .ro, 0⟩
def ECC_UEADDR_ARRAY : Fld := ⟨0x04C, 1, 4, 16, 8, .ro, 0⟩
def ECC_UEADDR_WORD : Fld := ⟨0x04C, 1, 4, 0, 16, .ro, 0⟩
def ECC_UECYC_CYCLE : Fld := ⟨0x050, 1, 4, 0, 32, .ro, 0⟩
def ECC_UEANG_FLAGS : Fld := ⟨0x054, 1, 4, 16, 3, .ro, 0⟩
def ECC_UEANG_ANGLE : Fld := ⟨0x054, 1, 4, 0, 16, .ro, 0⟩
def ECC_LOGSTAT_LOGOVF : Fld := ⟨0x058, 1, 4, 16, 16, .rs, 0⟩
def ECC_LOGSTAT_USED : Fld := ⟨0x058, 1, 4, 0, 5, .ro, 0⟩
def ECC_LOG_ARRAY : Fld := ⟨0x080, 16, 4, 24, 8, .ro, 0⟩
def ECC_LOG_WORD : Fld := ⟨0x080, 16, 4, 8, 16, .ro, 0⟩
def ECC_LOG_STUCK : Fld := ⟨0x080, 16, 4, 7, 1, .ro, 0⟩
def ECC_LOG_SYM2 : Fld := ⟨0x080, 16, 4, 6, 1, .ro, 0⟩
def ECC_LOG_HITS : Fld := ⟨0x080, 16, 4, 0, 6, .ro, 0⟩
def ECC_LOGCYC_CYCLE : Fld := ⟨0x0C0, 16, 4, 0, 32, .ro, 0⟩

def fieldsECC : List Fld :=
  [ECC_CECNT_COUNT, ECC_CESYM_TWO, ECC_CESYM_ONE, ECC_UECNT_AFCNT,
   ECC_UECNT_UECNT, ECC_UEADDR_AF, ECC_UEADDR_REQ, ECC_UEADDR_ARRAY,
   ECC_UEADDR_WORD, ECC_UECYC_CYCLE, ECC_UEANG_FLAGS, ECC_UEANG_ANGLE,
   ECC_LOGSTAT_LOGOVF, ECC_LOGSTAT_USED, ECC_LOG_ARRAY, ECC_LOG_WORD,
   ECC_LOG_STUCK, ECC_LOG_SYM2, ECC_LOG_HITS, ECC_LOGCYC_CYCLE]

/-! ### SCB (page 0x27; 15_integrity.md, R448) -/

/-- Number of the one page of the unit. -/
def PG_SCB : Nat := 0x27

def SCB_CFG_NVMEN : Fld := ⟨0x040, 1, 4, 31, 1, .rwl, 1⟩
def SCB_CFG_INTV : Fld := ⟨0x040, 1, 4, 0, 16, .rwl, 0x64⟩
def SCB_POS_ARRAY : Fld := ⟨0x044, 1, 4, 24, 8, .ro, 0⟩
def SCB_POS_WORD : Fld := ⟨0x044, 1, 4, 0, 16, .ro, 0⟩
def SCB_PASSCNT_COUNT : Fld := ⟨0x048, 1, 4, 0, 32, .ro, 0⟩
def SCB_LASTPASS_MS : Fld := ⟨0x04C, 1, 4, 0, 32, .ro, 0⟩
def SCB_PASSERR_UE : Fld := ⟨0x050, 1, 4, 16, 16, .ro, 0⟩
def SCB_PASSERR_CE : Fld := ⟨0x050, 1, 4, 0, 16, .ro, 0⟩
def SCB_WBSKIP_COUNT : Fld := ⟨0x054, 1, 4, 0, 32, .rs, 0⟩
def SCB_SPSEL_ARRAY : Fld := ⟨0x058, 1, 4, 0, 8, .rw, 0⟩
def SCB_SPSTAT_TOTAL : Fld := ⟨0x05C, 1, 4, 16, 8, .ro, 0⟩
def SCB_SPSTAT_FUSE : Fld := ⟨0x05C, 1, 4, 8, 8, .ro, 0⟩
def SCB_SPSTAT_SOFT : Fld := ⟨0x05C, 1, 4, 0, 8, .ro, 0⟩
def SCB_SOFTST_SMBAD : Fld := ⟨0x060, 1, 4, 8, 1, .ro, 0⟩
def SCB_SOFTST_COUNT : Fld := ⟨0x060, 1, 4, 0, 4, .ro, 0⟩

def fieldsSCB : List Fld :=
  [SCB_CFG_NVMEN, SCB_CFG_INTV, SCB_POS_ARRAY, SCB_POS_WORD,
   SCB_PASSCNT_COUNT, SCB_LASTPASS_MS, SCB_PASSERR_UE, SCB_PASSERR_CE,
   SCB_WBSKIP_COUNT, SCB_SPSEL_ARRAY, SCB_SPSTAT_TOTAL, SCB_SPSTAT_FUSE,
   SCB_SPSTAT_SOFT, SCB_SOFTST_SMBAD, SCB_SOFTST_COUNT]

/-! ### ENG (page 0x28; 12_engines.md, R378) -/

/-- Number of the first page of the unit. -/
def PG_ENG : Nat := 0x28

def ENG_CFG_TVEC : Fld := ⟨0x040, 1, 4, 16, 12, .rwl, 4⟩
def ENG_STAT_STATE : Fld := ⟨0x044, 1, 4, 29, 3, .ro, 0⟩
def ENG_STAT_HANDLER : Fld := ⟨0x044, 1, 4, 28, 1, .ro, 0⟩
def ENG_STAT_DOUBLE : Fld := ⟨0x044, 1, 4, 27, 1, .ro, 0⟩
def ENG_STAT_DCAUSE : Fld := ⟨0x044, 1, 4, 20, 4, .ro, 0⟩
def ENG_STAT_STALLSRC : Fld := ⟨0x044, 1, 4, 17, 3, .ro, 0⟩
def ENG_PC_PC : Fld := ⟨0x048, 1, 4, 0, 12, .rw, 0⟩
def ENG_TCAUSE_CAUSE : Fld := ⟨0x04C, 1, 4, 0, 4, .ro, 0⟩
def ENG_TEPC_EPC : Fld := ⟨0x050, 1, 4, 0, 12, .ro, 0⟩
def ENG_TINST_INST : Fld := ⟨0x054, 1, 4, 0, 32, .ro, 0⟩
def ENG_PADDR_ADDR : Fld := ⟨0x058, 1, 4, 0, 12, .rw, 0⟩
def ENG_PDATA_DATA : Fld := ⟨0x05C, 1, 4, 0, 32, .rw, 0⟩
def ENG_DADDR_ADDR : Fld := ⟨0x060, 1, 4, 0, 11, .rw, 0⟩
def ENG_DDATA_DATA : Fld := ⟨0x064, 1, 4, 0, 32, .rw, 0⟩
def ENG_CYC_COUNT : Fld := ⟨0x068, 1, 4, 0, 32, .ro, 0⟩
def ENG_STALLS_COUNT : Fld := ⟨0x06C, 1, 4, 0, 32, .rs, 0⟩
def ENG_EVPEND_PEND : Fld := ⟨0x080, 8, 4, 0, 32, .w1c, 0⟩
def ENG_EVMASK_MASK : Fld := ⟨0x0A0, 8, 4, 0, 32, .rw, 0⟩
def ENG_G_G : Fld := ⟨0x100, 16, 4, 0, 32, .rw, 0⟩
def ENG_PREG_P : Fld := ⟨0x140, 1, 4, 1, 7, .rw, 0⟩
def ENG_PREG_P0 : Fld := ⟨0x140, 1, 4, 0, 1, .ro, 1⟩

def fieldsENG : List Fld :=
  [ENG_CFG_TVEC, ENG_STAT_STATE, ENG_STAT_HANDLER, ENG_STAT_DOUBLE,
   ENG_STAT_DCAUSE, ENG_STAT_STALLSRC, ENG_PC_PC, ENG_TCAUSE_CAUSE,
   ENG_TEPC_EPC, ENG_TINST_INST, ENG_PADDR_ADDR, ENG_PDATA_DATA,
   ENG_DADDR_ADDR, ENG_DDATA_DATA, ENG_CYC_COUNT, ENG_STALLS_COUNT,
   ENG_EVPEND_PEND, ENG_EVMASK_MASK, ENG_G_G, ENG_PREG_P,
   ENG_PREG_P0]

/-! ### DEP (page 0x30; 13_events_depot.md, R400) -/

/-- Number of the one page of the unit. -/
def PG_DEP : Nat := 0x30

def DEP_SEL_ONE : Fld := ⟨0x040, 1, 4, 5, 1, .rw, 0⟩
def DEP_SEL_SRC : Fld := ⟨0x040, 1, 4, 0, 5, .rw, 0⟩
def DEP_TAKE_W0 : Fld := ⟨0x044, 1, 4, 0, 32, .ro, 0⟩
def DEP_PUTLO_VALUE : Fld := ⟨0x054, 1, 4, 0, 32, .rw, 0⟩
def DEP_PUTHI_VALUE : Fld := ⟨0x058, 1, 4, 0, 32, .rw, 0⟩
def DEP_PUTTAG_TAG : Fld := ⟨0x05C, 1, 4, 0, 8, .wo, 0⟩
def DEP_LOSTM_LOST : Fld := ⟨0x060, 1, 4, 0, 24, .w1c, 0⟩
def DEP_NEMPTY_NE : Fld := ⟨0x064, 1, 4, 0, 24, .ro, 0⟩
def DEP_LAPSE_COUNT : Fld := ⟨0x068, 1, 4, 0, 16, .rs, 0⟩
def DEP_SRCCFG_EN : Fld := ⟨0x080, 24, 4, 31, 1, .rwl, 0⟩
def DEP_SRCCFG_LDIV : Fld := ⟨0x080, 24, 4, 16, 8, .rwl, 1⟩
def DEP_SRCCFG_KINDEN : Fld := ⟨0x080, 24, 4, 0, 16, .rwl, 0xffff⟩
def DEP_LOSTP_HI : Fld := ⟨0x0E0, 12, 4, 16, 16, .rs, 0⟩
def DEP_LOSTP_LO : Fld := ⟨0x0E0, 12, 4, 0, 16, .rs, 0⟩
def DEP_QCNT_COUNT : Fld := ⟨0x110, 3, 4, 0, 32, .ro, 0⟩

def fieldsDEP : List Fld :=
  [DEP_SEL_ONE, DEP_SEL_SRC, DEP_TAKE_W0, DEP_PUTLO_VALUE,
   DEP_PUTHI_VALUE, DEP_PUTTAG_TAG, DEP_LOSTM_LOST, DEP_NEMPTY_NE,
   DEP_LAPSE_COUNT, DEP_SRCCFG_EN, DEP_SRCCFG_LDIV, DEP_SRCCFG_KINDEN,
   DEP_LOSTP_HI, DEP_LOSTP_LO, DEP_QCNT_COUNT]

/-! ### EVT (page 0x31; 13_events_depot.md, R399) -/

/-- Number of the one page of the unit. -/
def PG_EVT : Nat := 0x31

def EVT_HSEV_LINE : Fld := ⟨0x040, 1, 4, 0, 8, .wo, 0⟩
def EVT_GPEDGE0_EDGE : Fld := ⟨0x044, 1, 4, 0, 32, .rwl, 0⟩
def EVT_GPEDGE1_EDGE : Fld := ⟨0x048, 1, 4, 0, 32, .rwl, 0⟩
def EVT_LATCH_SEEN : Fld := ⟨0x080, 8, 4, 0, 32, .w1c, 0⟩
def EVT_LEVEL_LVL : Fld := ⟨0x0A0, 8, 4, 0, 32, .ro, 0⟩
def EVT_RE_ROUTE : Fld := ⟨0x100, 64, 4, 0, 32, .rwl, 0⟩
def EVT_RDEP_ROUTE : Fld := ⟨0x200, 8, 4, 0, 32, .rwl, 0⟩
def EVT_RREC_ROUTE : Fld := ⟨0x220, 8, 4, 0, 32, .rwl, 0⟩
def EVT_RBBX_ROUTE : Fld := ⟨0x240, 8, 4, 0, 32, .rwl, 0⟩
def EVT_RIRQ_ROUTE : Fld := ⟨0x260, 8, 4, 0, 32, .rwl, 0⟩

def fieldsEVT : List Fld :=
  [EVT_HSEV_LINE, EVT_GPEDGE0_EDGE, EVT_GPEDGE1_EDGE, EVT_LATCH_SEEN,
   EVT_LEVEL_LVL, EVT_RE_ROUTE, EVT_RDEP_ROUTE, EVT_RREC_ROUTE,
   EVT_RBBX_ROUTE, EVT_RIRQ_ROUTE]

/-! ### PMB (page 0x32; 02_registers_host.md, R68) -/

/-- Number of the first page of the unit. -/
def PG_PMB : Nat := 0x32

def PMB_CFG_POLLSET : Fld := ⟨0x040, 1, 4, 16, 4, .rw, 0xf⟩
def PMB_CFG_POLLDIV : Fld := ⟨0x040, 1, 4, 8, 8, .rw, 0x40⟩
def PMB_CFG_ALERTEN : Fld := ⟨0x040, 1, 4, 3, 1, .rw, 1⟩
def PMB_CFG_PEC : Fld := ⟨0x040, 1, 4, 2, 1, .rw, 1⟩
def PMB_CFG_SPEED : Fld := ⟨0x040, 1, 4, 0, 2, .rw, 1⟩
def PMB_BUSSTAT_W : Fld := ⟨0x044, 1, 4, 0, 32, .ro, 0⟩
def PMB_ERRCNT_W : Fld := ⟨0x048, 1, 4, 0, 32, .rs, 0⟩
def PMB_WDATA_DATA : Fld := ⟨0x050, 6, 4, 0, 32, .rw, 0⟩

def fieldsPMB : List Fld :=
  [PMB_CFG_POLLSET, PMB_CFG_POLLDIV, PMB_CFG_ALERTEN, PMB_CFG_PEC,
   PMB_CFG_SPEED, PMB_BUSSTAT_W, PMB_ERRCNT_W, PMB_WDATA_DATA]

/-! ### CTX (page 0x34; 02_registers_host.md, R69) -/

/-- Number of the one page of the unit. -/
def PG_CTX : Nat := 0x34

def CTX_SEL_CTX : Fld := ⟨0x040, 1, 4, 0, 7, .rw, 0⟩
def CTX_ENTRY0_MISS : Fld := ⟨0x044, 1, 4, 28, 4, .ro, 0⟩
def CTX_ENTRY0_STATE : Fld := ⟨0x044, 1, 4, 24, 4, .ro, 0⟩
def CTX_ENTRY0_ADDR : Fld := ⟨0x044, 1, 4, 16, 7, .rw, 0⟩
def CTX_ENTRY0_BUS : Fld := ⟨0x044, 1, 4, 8, 8, .rw, 0⟩
def CTX_ENTRY0_CLASS : Fld := ⟨0x044, 1, 4, 0, 8, .rw, 0⟩
def CTX_ENTRY1_CAPSHARE : Fld := ⟨0x048, 1, 4, 16, 16, .ro, 0xffff⟩
def CTX_ENTRY1_HEALTH : Fld := ⟨0x048, 1, 4, 0, 16, .ro, 0⟩
def CTX_ENTRY2_CYCLE : Fld := ⟨0x04C, 1, 4, 0, 32, .ro, 0⟩
def CTX_ENTRY3_RADV : Fld := ⟨0x050, 1, 4, 19, 1, .ro, 0⟩
def CTX_ENTRY3_FLAGS : Fld := ⟨0x050, 1, 4, 16, 3, .ro, 0⟩
def CTX_ENTRY3_ANGLE : Fld := ⟨0x050, 1, 4, 0, 16, .ro, 0⟩
def CTX_FLTMASK_MASK : Fld := ⟨0x054, 1, 4, 0, 16, .rw, 0x34⟩
def CTX_USED_MASK : Fld := ⟨0x060, 4, 4, 0, 32, .ro, 0⟩

def fieldsCTX : List Fld :=
  [CTX_SEL_CTX, CTX_ENTRY0_MISS, CTX_ENTRY0_STATE, CTX_ENTRY0_ADDR,
   CTX_ENTRY0_BUS, CTX_ENTRY0_CLASS, CTX_ENTRY1_CAPSHARE, CTX_ENTRY1_HEALTH,
   CTX_ENTRY2_CYCLE, CTX_ENTRY3_RADV, CTX_ENTRY3_FLAGS, CTX_ENTRY3_ANGLE,
   CTX_FLTMASK_MASK, CTX_USED_MASK]

/-! ### PAIR (page 0x35; 17_pairing.md, R502) -/

/-- Number of the one page of the unit. -/
def PG_PAIR : Nat := 0x35

def PAIR_CFG_PAIRED : Fld := ⟨0x040, 1, 4, 31, 1, .rwl, 0⟩
def PAIR_CFG_AUTOHO : Fld := ⟨0x040, 1, 4, 30, 1, .rwl, 0⟩
def PAIR_CFG_CYCEN : Fld := ⟨0x040, 1, 4, 29, 1, .rwl, 1⟩
def PAIR_CFG_HBTO : Fld := ⟨0x040, 1, 4, 16, 8, .rwl, 0x28⟩
def PAIR_CFG_ACTWIN : Fld := ⟨0x040, 1, 4, 8, 8, .rwl, 0x64⟩
def PAIR_STAT_ROLE : Fld := ⟨0x044, 1, 4, 30, 2, .ro, 0⟩
def PAIR_STAT_LINK : Fld := ⟨0x044, 1, 4, 29, 1, .ro, 0⟩
def PAIR_STAT_HBOK : Fld := ⟨0x044, 1, 4, 28, 1, .ro, 0⟩
def PAIR_STAT_MVALID : Fld := ⟨0x044, 1, 4, 27, 1, .ro, 0⟩
def PAIR_STAT_PMSI : Fld := ⟨0x044, 1, 4, 26, 1, .ro, 0⟩
def PAIR_STAT_LINKFLT : Fld := ⟨0x044, 1, 4, 25, 1, .w1c, 0⟩
def PAIR_STAT_DUAL : Fld := ⟨0x044, 1, 4, 24, 1, .w1c, 0⟩
def PAIR_STAT_POS : Fld := ⟨0x044, 1, 4, 23, 1, .ro, 0⟩
def PAIR_STAT_MCNT : Fld := ⟨0x044, 1, 4, 16, 4, .ro, 0⟩
def PAIR_STAT_PMCNT : Fld := ⟨0x044, 1, 4, 0, 4, .ro, 0⟩
def PAIR_HEALTH_PARTNER : Fld := ⟨0x048, 1, 4, 16, 8, .ro, 0⟩
def PAIR_HEALTH_OWN : Fld := ⟨0x048, 1, 4, 0, 8, .ro, 0⟩
def PAIR_PUIDLO_UID : Fld := ⟨0x04C, 1, 4, 0, 32, .ro, 0⟩
def PAIR_PUIDHI_UID : Fld := ⟨0x050, 1, 4, 0, 32, .ro, 0⟩
def PAIR_SKEW_SKEW : Fld := ⟨0x054, 1, 4, 0, 32, .ro, 0⟩
def PAIR_PCYC_CYCLE : Fld := ⟨0x058, 1, 4, 0, 32, .ro, 0⟩
def PAIR_PANG_STATE : Fld := ⟨0x05C, 1, 4, 21, 3, .ro, 0⟩
def PAIR_PANG_ROLE : Fld := ⟨0x05C, 1, 4, 19, 2, .ro, 0⟩
def PAIR_PANG_FLAGS : Fld := ⟨0x05C, 1, 4, 16, 3, .ro, 0⟩
def PAIR_PANG_ANGLE : Fld := ⟨0x05C, 1, 4, 0, 16, .ro, 0⟩
def PAIR_MAGE_AGE : Fld := ⟨0x060, 1, 4, 0, 16, .ro, 0xffff⟩
def PAIR_ERRCNT_LOSTMR : Fld := ⟨0x064, 1, 4, 16, 16, .rs, 0⟩
def PAIR_ERRCNT_BADFR : Fld := ⟨0x064, 1, 4, 0, 16, .rs, 0⟩
def PAIR_CNT_HANDOVERS : Fld := ⟨0x068, 1, 4, 16, 16, .rs, 0⟩
def PAIR_CNT_TAKEOVERS : Fld := ⟨0x068, 1, 4, 0, 16, .rs, 0⟩
def PAIR_LASTTK_MUSED : Fld := ⟨0x06C, 1, 4, 7, 1, .ro, 0⟩
def PAIR_LASTTK_CAUSE : Fld := ⟨0x06C, 1, 4, 0, 4, .ro, 0⟩

def fieldsPAIR : List Fld :=
  [PAIR_CFG_PAIRED, PAIR_CFG_AUTOHO, PAIR_CFG_CYCEN, PAIR_CFG_HBTO,
   PAIR_CFG_ACTWIN, PAIR_STAT_ROLE, PAIR_STAT_LINK, PAIR_STAT_HBOK,
   PAIR_STAT_MVALID, PAIR_STAT_PMSI, PAIR_STAT_LINKFLT, PAIR_STAT_DUAL,
   PAIR_STAT_POS, PAIR_STAT_MCNT, PAIR_STAT_PMCNT, PAIR_HEALTH_PARTNER,
   PAIR_HEALTH_OWN, PAIR_PUIDLO_UID, PAIR_PUIDHI_UID, PAIR_SKEW_SKEW,
   PAIR_PCYC_CYCLE, PAIR_PANG_STATE, PAIR_PANG_ROLE, PAIR_PANG_FLAGS,
   PAIR_PANG_ANGLE, PAIR_MAGE_AGE, PAIR_ERRCNT_LOSTMR, PAIR_ERRCNT_BADFR,
   PAIR_CNT_HANDOVERS, PAIR_CNT_TAKEOVERS, PAIR_LASTTK_MUSED, PAIR_LASTTK_CAUSE]

/-! ### HIF (page 0x36; 02_registers_host.md, R62) -/

/-- Number of the one page of the unit. -/
def PG_HIF : Nat := 0x36

def HIF_CFG_UARTBAUD : Fld := ⟨0x040, 1, 4, 4, 2, .rwl, 0⟩
def HIF_CFG_UARTWEN : Fld := ⟨0x040, 1, 4, 3, 1, .rwl, 0⟩
def HIF_CFG_PECREQ : Fld := ⟨0x040, 1, 4, 2, 1, .rwl, 1⟩
def HIF_CFG_I2CEN : Fld := ⟨0x040, 1, 4, 1, 1, .rwl, 1⟩
def HIF_CFG_SPIEN : Fld := ⟨0x040, 1, 4, 0, 1, .rwl, 1⟩
def HIF_I2CADDR_ADDR : Fld := ⟨0x044, 1, 4, 0, 7, .ro, 0⟩
def HIF_SPISTAT_FRMERR : Fld := ⟨0x048, 1, 4, 16, 16, .rs, 0⟩
def HIF_SPISTAT_CRCERR : Fld := ⟨0x048, 1, 4, 0, 16, .rs, 0⟩
def HIF_I2CSTAT_NOTRDY : Fld := ⟨0x04C, 1, 4, 24, 8, .rs, 0⟩
def HIF_I2CSTAT_TIMEOUT : Fld := ⟨0x04C, 1, 4, 16, 8, .rs, 0⟩
def HIF_I2CSTAT_PECERR : Fld := ⟨0x04C, 1, 4, 0, 16, .rs, 0⟩
def HIF_LASTRD_DATA : Fld := ⟨0x050, 1, 4, 0, 32, .ro, 0⟩

def fieldsHIF : List Fld :=
  [HIF_CFG_UARTBAUD, HIF_CFG_UARTWEN, HIF_CFG_PECREQ, HIF_CFG_I2CEN,
   HIF_CFG_SPIEN, HIF_I2CADDR_ADDR, HIF_SPISTAT_FRMERR, HIF_SPISTAT_CRCERR,
   HIF_I2CSTAT_NOTRDY, HIF_I2CSTAT_TIMEOUT, HIF_I2CSTAT_PECERR, HIF_LASTRD_DATA]

/-! ### PIN (page 0x37; 18_startup.md, R516) -/

/-- Number of the one page of the unit. -/
def PG_PIN : Nat := 0x37

def PIN_STRAP_XSEL : Fld := ⟨0x040, 1, 4, 4, 1, .ro, 0⟩
def PIN_STRAP_VIOSEL : Fld := ⟨0x040, 1, 4, 3, 1, .ro, 0⟩
def PIN_STRAP_PPOS : Fld := ⟨0x040, 1, 4, 2, 1, .ro, 0⟩
def PIN_STRAP_IADR : Fld := ⟨0x040, 1, 4, 0, 2, .ro, 0⟩
def PIN_GPDIR_OUT : Fld := ⟨0x044, 1, 4, 0, 32, .rw, 0⟩
def PIN_GPOUT_LVL : Fld := ⟨0x048, 1, 4, 0, 32, .rw, 0⟩
def PIN_GPOD_OD : Fld := ⟨0x04C, 1, 4, 0, 32, .rw, 0⟩
def PIN_GPIN_LVL : Fld := ⟨0x050, 1, 4, 0, 32, .ro, 0⟩
def PIN_OWN_RAIL : Fld := ⟨0x054, 1, 4, 0, 32, .ro, 0⟩
def PIN_STAT_OHOLD : Fld := ⟨0x058, 1, 4, 0, 1, .ro, 1⟩

def fieldsPIN : List Fld :=
  [PIN_STRAP_XSEL, PIN_STRAP_VIOSEL, PIN_STRAP_PPOS, PIN_STRAP_IADR,
   PIN_GPDIR_OUT, PIN_GPOUT_LVL, PIN_GPOD_OD, PIN_GPIN_LVL,
   PIN_OWN_RAIL, PIN_STAT_OHOLD]

/-! ### OVL (page 0x38; 14_nvm_config.md, R433) -/

/-- Number of the one page of the unit. -/
def PG_OVL : Nat := 0x38

def OVL_MODE_MODE : Fld := ⟨0x040, 1, 4, 0, 4, .ro, 0xf⟩
def OVL_SWCTL_ARM : Fld := ⟨0x044, 1, 4, 31, 1, .rw, 0⟩
def OVL_SWCTL_NEXT : Fld := ⟨0x044, 1, 4, 30, 1, .rw, 0⟩
def OVL_SWCTL_LOCKREQ : Fld := ⟨0x044, 1, 4, 29, 1, .rw, 0⟩
def OVL_SWCTL_LATE : Fld := ⟨0x044, 1, 4, 28, 1, .w1c, 0⟩
def OVL_SWCTL_PRELOADED : Fld := ⟨0x044, 1, 4, 27, 1, .ro, 0⟩
def OVL_SWCTL_OVL : Fld := ⟨0x044, 1, 4, 16, 3, .rw, 0⟩
def OVL_SWCTL_TGTWP : Fld := ⟨0x044, 1, 4, 0, 8, .rw, 0⟩
def OVL_SWCYC_CYC : Fld := ⟨0x048, 1, 4, 0, 32, .rw, 0⟩
def OVL_STAT_SKIPPED : Fld := ⟨0x04C, 1, 4, 16, 8, .ro, 0⟩
def OVL_STAT_REFUSED : Fld := ⟨0x04C, 1, 4, 8, 8, .ro, 0⟩
def OVL_STAT_APPLIED : Fld := ⟨0x04C, 1, 4, 0, 8, .ro, 0⟩
def OVL_BOOTA_APPLIED : Fld := ⟨0x050, 1, 4, 0, 16, .ro, 0⟩
def OVL_BOOTB_SKIPPED : Fld := ⟨0x054, 1, 4, 16, 16, .ro, 0⟩
def OVL_BOOTB_REFUSED : Fld := ⟨0x054, 1, 4, 0, 16, .ro, 0⟩
def OVL_BOOTST_CFGBAD : Fld := ⟨0x058, 1, 4, 1, 1, .ro, 0⟩
def OVL_BOOTST_NOIMG : Fld := ⟨0x058, 1, 4, 0, 1, .ro, 0⟩

def fieldsOVL : List Fld :=
  [OVL_MODE_MODE, OVL_SWCTL_ARM, OVL_SWCTL_NEXT, OVL_SWCTL_LOCKREQ,
   OVL_SWCTL_LATE, OVL_SWCTL_PRELOADED, OVL_SWCTL_OVL, OVL_SWCTL_TGTWP,
   OVL_SWCYC_CYC, OVL_STAT_SKIPPED, OVL_STAT_REFUSED, OVL_STAT_APPLIED,
   OVL_BOOTA_APPLIED, OVL_BOOTB_SKIPPED, OVL_BOOTB_REFUSED, OVL_BOOTST_CFGBAD,
   OVL_BOOTST_NOIMG]

end Sys2Proof.Machine
end

