-- ==== Sys2Proof/Machine/State.lean ====
section
/-! DEFINITION. The state of the SV6412 as plain data: the register file with every register of every page, the
memories, and, unit by unit, what a unit keeps outside its registers; the queue of waiting commands; the state at
reset release. -/

namespace Sys2Proof.Machine

/-- The three members of the family (R1). -/
inductive Part where
  | sv6412 | sv6408 | sv6404
deriving DecidableEq, Repr

/-- An angle stamp with its flags (R73, R74): cycle, angle, flags with LOCK in bit 0, PROV in bit 1, SYN in bit 2. -/
structure Stamp where
  cycle : Nat := 0
  angle : Nat := 0
  flags : Nat := 4
deriving DecidableEq, Repr

/-- What the die and the board fix: the member (R1), the die number, the factory reference code of each chain (R114),
the strap balls as sampled at reset release (R516), the level of the PPOS ball, which run entry samples (R521), and
the rows that the factory fuse map moves, as array and row (R444). DESIGN CHOICE, unsafe (log 5); DESIGN CHOICE, safe
(log 8). -/
structure Die where
  part : Part := .sv6412
  uid : BitVec 64 := 0
  fnom : List Int := List.replicate 24 8000000
  straps : BitVec 5 := 0
  ppos : Bool := false
  fuses : List (Nat × Nat) := []
deriving DecidableEq, Repr

/-- A long operation that runs on a page (R35): its page, command, latched argument and requester code, and where it
stands in its own sequence. -/
structure LongOp where
  page : Nat
  cmd : Nat
  arg : Nat
  req : Nat
  phase : Nat := 0
  a : Nat := 0
  b : Nat := 0
deriving DecidableEq, Repr

/-- The part of an access over SPI that waits for the next good frame (R54), or over I²C for STOP (R59): the key of
the register read, the value it returned, and for `PMBn.ERRCNT` the three counts it returned. -/
structure ReadEffect where
  req : Nat
  addr : Nat
  returned : Nat
  counts : List Nat := []
deriving DecidableEq, Repr

/-- What the host interfaces keep outside the registers: unlock sequences (R40–R42) with the clock of each unlock's last
RWL write and of each bar, the SPI response that waits and the
one shifted out last (R52), the read effect that waits (R54), the INT# re-arm pulse (R46), what maximum registers met
since their read, the bytes last answered over I²C and the debug UART (R59, R61), and whether the PEC byte of the last
I²C write was not acknowledged (R58). -/
structure HostSt where
  unlocked : List (Nat × Nat) := []
  half : List (Nat × Nat) := []
  fails : List (Nat × Nat) := []
  barred : List Nat := []
  unlockAt : List (Nat × Nat) := []
  barAt : List (Nat × Nat) := []
  intAt : Nat := 0
  spiResp : BitVec 64 := 0
  spiHas : Bool := false
  spiOut : BitVec 64 := 0
  spiEffect : Option ReadEffect := none
  intPulse : Bool := false
  maxSince : List (Nat × Nat) := []
  i2cReply : List Byte := []
  i2cNack : Bool := false
  uartReply : List Byte := []
deriving DecidableEq, Repr

/-- One record on its way to the store (R451): code, severity, source, suppressed count, stamp, operating-hours part
and four parameters. `hours` counts from reset release until the header is read (R460). -/
structure Rec where
  code : Nat
  sev : Nat
  src : Nat
  supp : Nat := 0
  stamp : Stamp
  hours : Nat
  based : Bool
  pcc : Nat
  params : List Nat
deriving DecidableEq, Repr

/-- One token bucket of the recorder's rate limit (R455); `since` is the clock from which its next token counts. -/
structure Bucket where
  code : Nat
  tokens : Nat
  supp : Nat := 0
  used : Nat
  since : Nat := 0
deriving DecidableEq, Repr

/-- What the recorder keeps outside its registers; `opening` says that its start waits for the header write (R459),
`hdrDue` that a header write is held by ENABLE = 0; `headAt` is the clock of the last timed header write (R460). -/
structure RecSt where
  queue : List Rec := []
  buckets : List Bucket := []
  overflow : Bucket := ⟨0, 0, 0, 0, 0⟩
  overflowFresh : Bool := true
  useSeq : Nat := 0
  droppedSince : Nat := 0
  dropTotal : Nat := 0
  started : Bool := false
  opening : Bool := false
  hdrDue : Bool := false
  hdrBase : Nat := 0
  headAt : Nat := 0
deriving DecidableEq, Repr

/-- One entry of the Depot (R386). `epoch` counts the backward cycle adjustments before it (R393); `reserved` is the
requester whose take has not taken effect, `since` the clock of that take (R395); `place` is which of its queue's four
slots of the array 0x14 it stands in. -/
structure DepEntry where
  tag : Nat
  src : Nat
  stamp : Stamp
  value : Nat
  epoch : Nat := 0
  reserved : Option Nat := none
  since : Nat := 0
  place : Nat := 0
deriving DecidableEq, Repr

/-- A rising edge of an event line that its targets are still to take in this clock, with the stamp and the tick at
which it rose (R382). -/
structure Edge where
  line : Nat
  stamp : Stamp
  tick : Nat
deriving DecidableEq, Repr

/-- What the units tell within one system clock before the fabric, the Depot and the recorder take it in the order the
spec gives (R382, R454, R470): the edges to deliver and the lines that have had theirs, the records, and that a line
has triggered the black box. Empty between two commands. DESIGN CHOICE, safe (log 137). -/
structure ClockSt where
  edges : List Edge := []
  seen : List Nat := []
  recs : List Rec := []
  trig : Bool := false
deriving DecidableEq, Repr

/-- The Depot's 24 queues and the puts that wait for a slot (R391). -/
structure DepotSt where
  queues : List (List DepEntry) := List.replicate 24 []
  waiting : List DepEntry := []
  epoch : Nat := 0
  ledgerCnt : Nat := 0
deriving DecidableEq, Repr

/-- Mains-angle time outside the TTB registers (R73–R97): the stamp's cycle and angle with the 24-bit fraction, the
tick counter with its value at the last waypoint boundary, the angle wrap whose waypoint boundary is still to come,
counts in waypoints of the conditions of R82–R85, the alignment of R87, the pull of R92, the inputs whose single
failure was told and that the slow acquisition was, and the slots. -/
structure TimeSt where
  cycle : Nat := 0
  angle : Nat := 0
  frac : Nat := 0
  tick : Nat := 0
  wpTick : Nat := 0
  wpStamp : Stamp := ⟨0, 0, 0⟩
  wrapDone : Bool := false
  wpCount : Nat := 0
  lastLocked : Option Nat := none
  freqHist : List Nat := []
  canAlign : Bool := false
  stopped : Bool := false
  pulling : Bool := false
  pullUp : Bool := false
  slewRem : Nat := 0
  goodNow : Nat := 0
  qualNow : Bool := false
  lockNow : Bool := false
  lossNow : Nat := 0
  goodWp : List Nat := [0, 0, 0]
  badWp : List Nat := [0, 0, 0]
  qualWp : Nat := 0
  unqualWp : Nat := 0
  lockWp : Nat := 0
  lockMin : Nat := 0
  lockMax : Nat := 0
  lossWp : List Nat := [0, 0, 0]
  enterWp : Nat := 0
  holdBounds : Nat := 0
  absentFrom : Nat := 0
  rotTold : Bool := false
  phTold : Nat := 0
  acqTold : Bool := false
  deferred : List Nat := []
  late : List Nat := []
  lastFired : List (Option Nat) := List.replicate 16 none
deriving DecidableEq, Repr

/-- A transaction of a PMBus port (R63–R67): context, command code, direction, the word written, and its place in the
waypoint order of R64: 0 Share trim or ramp write, 1 alert service, 2 poll, 3 raw, 4 a raw transaction whose operation
a reset of the page took off; whether PEC is sent and checked; for a raw transaction its target address, its size code
and the bytes written. PRESUMED, unsafe (log 43). -/
structure PmTx where
  ctx : Nat
  cmd : Nat
  read : Bool
  data : Int := 0
  kind : Nat := 2
  pec : Bool := true
  addr : Nat := 0
  size : Nat := 2
  bytes : List Nat := []
deriving DecidableEq, Repr

/-- A PMBus port: the transaction on the bus, the queues of R64 with the addresses whose alert waits, a round that
waits for the one before it, the waypoints since a round fell due, the addresses whose alert this waypoint has served,
the error counts that ERRCNT reports, whether SDA was found stuck since the last transaction, and whether SMBALERT#
was last seen low and its device has not been served since. DESIGN CHOICE, safe (log 26); DEDUCED, unsafe (log 90). -/
structure PmPort where
  cur : Option PmTx := none
  retried : Bool := false
  trims : List PmTx := []
  alerts : List Nat := []
  polls : List PmTx := []
  raws : List PmTx := []
  roundDue : Bool := false
  pollWp : Nat := 0
  served : List Nat := []
  naks : Nat := 0
  pecs : Nat := 0
  tmos : Nat := 0
  stuck : Bool := false
  alertLow : Bool := false
deriving DecidableEq, Repr

/-- One device context (R69, R70), with the last response to each polled command and the waypoint it came at, and what
Cap keeps of a derate (R215): among it the IOUT_OC_WARN_LIMIT word kept, and the current in 1/16 A to be written. -/
structure Ctx where
  state : Nat := 0
  miss : Nat := 0
  addr : Nat := 0
  bus : Nat := 0
  cls : Nat := 0
  capshare : Nat := 0xFFFF
  health : Nat := 0
  stamp : Stamp := ⟨0, 0, 0⟩
  radv : Bool := false
  voutMode : Option Nat := none
  tel : List (Nat × Nat) := []
  telAt : List (Nat × Nat) := []
  lastFailed : Bool := false
  offSeen : Bool := false
  derateAt : Option Nat := none
  noresp : Bool := false
  capBase : Nat := 0
  ocKept : Option Nat := none
  ocWant : Option Int := none
  ocDue : Bool := false
deriving DecidableEq, Repr

/-- A rectifier slot of Share outside its register (R201, R204): the trim, the individual trim's integrator, the
encoding last written, that its trim must be written whatever its value, and that its last write failed or was not
sent. PRESUMED, unsafe (log 43). -/
structure ShareSlot where
  trim : Int := 0
  ind : Int := 0
  written : Option Int := none
  rewrite : Bool := false
  failed : Bool := false
  modeTold : Bool := false
deriving DecidableEq, Repr

/-- The black box outside its registers (R468–R473): the ring of points, each sixteen 16-bit values, with the flags of
the last 1024 waypoints, `lastTrig` and `lastRefuse` the clocks of the last trigger it took and of the last it
refused, the points taken into the ring, and which half of the array 0x16 holds the ring. -/
structure BbxSt where
  ring : List (List Nat) := []
  flags : List Nat := []
  after : Nat := 0
  pre : Nat := 0
  trigLine : Nat := 0
  further : Nat := 0
  furtherAngle : Nat := 0
  trigStamp : Stamp := {}
  trigHours : Nat := 0
  trigPcc : Nat := 0
  active : List Nat := []
  frozen : List (List Nat) := []
  window : Nat := 0
  slot : Nat := 0
  seq : Nat := 0
  lastTrig : Nat := 0
  lastRefuse : Option Nat := none
  taken : Nat := 0
  half : Nat := 0
deriving DecidableEq, Repr

/-- A window of a chain in progress (R104, R105): the sum of corrected code times ticks, its ticks, its width in
waypoints, its flags so far, and marks. A window that is not `started` waits for the next closing boundary. -/
structure ChainWin where
  sum : Int := 0
  ticks : Nat := 0
  w : Nat := 256
  flags : Nat := 1
  held : Bool := false
  ovr : Bool := false
  bad : Bool := false
  started : Bool := true
deriving DecidableEq, Repr

/-- Measurement outside its registers: the windows, the chains saturated in this waypoint, the last two fast samples
and the tick of the last, saturated samples in a row, which chains gave a result at the last boundary (R102–R107), and
the supervision or port input that the SAR converter serves next (R111). -/
structure MeaSt where
  wins : List ChainWin := List.replicate 24 {}
  ovrWp : Nat := 0
  fast : List Int := List.replicate 24 0
  fastPrev : List Int := List.replicate 24 0
  fastTick : List Nat := List.replicate 24 0
  satRun : List Nat := List.replicate 24 0
  resOk : Nat := 0
  shorten : Bool := false
  sarNext : Nat := 0
deriving DecidableEq, Repr

/-- Calibration outside its registers (R113–R119): the gains before the temperature curve, the round in progress, the
group whose zero conversion waits for its reference conversion, with its zero results, the conversion that runs in
this waypoint (1 zero, 2 reference) and the chains it switched out, the last two per-waypoint codes of each chain, the
cycles since a round fell due and since each chain's last pair, and the progress of an operation. DESIGN CHOICE, safe
(log 9). -/
structure CalSt where
  base : List Nat := List.replicate 24 0x40000000
  round : Bool := false
  roundDue : Bool := false
  todo : List Nat := []
  needRef : Bool := false
  pair : List Nat := []
  zeros : List Int := []
  active : Nat := 0
  out : List Nat := []
  since : Option Nat := none
  age : List Nat := List.replicate 24 0
  last : List Int := List.replicate 24 0
  prev : List Int := List.replicate 24 0
  opRun : Bool := false
  opTodo : List Nat := []
  opTotal : Nat := 0
  opMask : Nat := 0
  opGain : Int := 0
  opOfs : Int := 0
  opTemp : Nat := 0
deriving DecidableEq, Repr

/-- What a held waypoint of a quantity leaves for the next boundary (R117): the waypoint before it with its ticks,
what was added for it, and its ticks. -/
structure MetFix where
  prev : Int
  before : Nat
  added : Int
  ticks : Nat
deriving DecidableEq, Repr

/-- One meter channel (R120–R124): four accumulators in units of 2⁻²⁴ LSB, the last waypoint's integrals with its ticks,
and the corrections of charge and energy that a held waypoint leaves for the next boundary (R117). -/
structure MetCh where
  acc : List Nat := [0, 0, 0, 0]
  q : Int := 0
  e : Int := 0
  ticks : Nat := 0
  fixQ : Option MetFix := none
  fixE : Option MetFix := none
  wrapC : Bool := false
  wrapE : Bool := false
  bad : Bool := false
  noScale : Bool := true
deriving DecidableEq, Repr

/-- A snapshot bank (R128): free or frozen, with the accumulators of every channel and its stamp. -/
structure Snap where
  free : Bool := true
  acc : List (List Nat) := []
  stamp : Stamp := ⟨0, 0, 0⟩
  tick : Nat := 0
  late : Bool := false
  defer : Bool := false
deriving DecidableEq, Repr

/-- The Meter outside its registers: channels, banks, the SCALE and VSRC words in effect for this waypoint (R124), and
an armed snapshot that is late or deferred (R129, R130). -/
structure MetSt where
  chans : List MetCh := List.replicate 25 {}
  bankA : Snap := {}
  bankB : Snap := {}
  scale : List Nat := List.replicate 16 0 ++ List.replicate 7 0x008637BD ++ [0x00218DEF]
  vsrc : List Nat := [0, 0x65430000]
  late : Bool := false
  defer : Bool := false
  wp : List (Int × Int) := List.replicate 25 (0, 0)
  ticks : Nat := 0
deriving DecidableEq, Repr

/-- The coefficients of a string as the compensator holds them (R138), in units of their last bit. -/
structure LoopStr where
  b0 : Int := 0
  b1 : Int := 0
  b2 : Int := 0
  a1 : Int := 0
  a2 : Int := 0
  ki : Nat := 0
  esh : Nat := 0
deriving DecidableEq, Repr

/-- A loop outside its registers (R137–R163): past errors and filter outputs, the integrator (both in 2⁻²⁴ duty LSB),
the working copy of its string, requests that wait for the next frame boundary, band and fault counts, whether a
phase came back since the last trip, the waypoint's and the cycle's marks for adaptation, and what it saw on the shared
nets with the tick of the last valid measurement. -/
structure LoopSt where
  x1 : Int := 0
  x2 : Int := 0
  v1 : Int := 0
  v2 : Int := 0
  integ : Int := 0
  str : LoopStr := {}
  loaded : Bool := false
  reqOff : Bool := false
  reqOn : Bool := false
  reqStby : Bool := false
  reqHu : Bool := false
  reqRet : Bool := false
  reqAuto : Bool := false
  reqManual : Bool := false
  reload : Bool := false
  fbLost : Bool := false
  phBack : Bool := false
  modeWas : Nat := 1
  forced : Option Nat := none
  strHold : Nat := 0
  badNamed : Option Nat := none
  lb : Nat := 0
  lbUp : List Nat := [0, 0, 0]
  lbDn : List Nat := [0, 0, 0]
  good : Nat := 64
  spGood : Nat := 0
  target : Int := 0
  schLate : Bool := false
  schDefer : Bool := false
  wpAuto : Bool := false
  wpDirty : Bool := false
  cycAll : Bool := false
  satNow : Nat := 0
  satCyc : Nat := 0
  net : List (Option Nat) := []
  netTick : Nat := 0
  netSeen : Bool := false
  ilSum : Int := 0
  ilFrames : Nat := 0
deriving DecidableEq, Repr

/-- A phase outside its registers (R177–R190): the balance trim in 2⁻¹² duty LSB, the last conversion taken, the counts
of its fault tests, the sums of the other phases while its code stayed the same, whether it emits a pulse, whether its
re-admission time runs, since which tick and with which frame period; and in steps of 39.0625 ps, of the frame in
progress, its rise and its on-time, how far the pulse of the frame before reaches into it, and the instants of the
conversions requested and not yet served. -/
structure PhaseSt where
  trim : Int := 0
  seq : Nat := 0
  code : Nat := 0
  openRun : Nat := 0
  rangeRun : Nat := 0
  disRun : Nat := 0
  others : List Int := []
  imbRun : Nat := 0
  okRun : Nat := 0
  pulse : Bool := false
  readmit : Bool := false
  remTick : Nat := 0
  remPeriod : Nat := 0
  rise : Nat := 0
  ton : Nat := 0
  tail : Nat := 0
  reqs : List Nat := []
deriving DecidableEq, Repr

/-- A removal decided in a frame, for the next boundary (R186–R188): phase, code 0x2011 or 0x2012, and its parameter. -/
structure PhRemoval where
  phase : Nat
  sense : Bool
  par : Nat
deriving DecidableEq, Repr

/-- The Phase Manager's state of one loop (R169, R173, R178–R189). `shed` is the shedding phase and its ramp frame
1–4; `period` and `dem` are LPER's PERIOD and DEM in effect. DEDUCED, unsafe (log 39). -/
structure PhLoop where
  addRun : Nat := 0
  shedRun : Nat := 0
  shed : Option (Nat × Nat) := none
  holdFrames : Nat := 0
  holdTold : Bool := false
  step : Nat := 0
  clim : Bool := false
  cmLo : Nat := 0
  cmHi : Nat := 0
  cmNext : Bool := false
  iPrev : Int := 0
  removals : List PhRemoval := []
  removedAge : Nat := 0
  drRun : Nat := 0
  frames : Nat := 0
  period : Nat := 1000
  dem : Bool := false
deriving DecidableEq, Repr

/-- The Phase Manager outside its registers: loops, phases, the over-voltage comparators, the loops whose phases are
held LOW, the tick at which a VSEL value was last accepted and those of its changes within 1 ms, the counts of good SETA
blocks and SETP periods, and the tick of the last SETP edge (R191–R196). -/
structure PhmSt where
  loops : List PhLoop := List.replicate 4 {}
  phases : List PhaseSt := List.replicate 16 {}
  ovComp : Nat := 0
  ovLow : Nat := 0
  vselTick : Option Nat := none
  vselChanges : List Nat := []
  setaGood : Nat := 0
  setpGood : Nat := 0
  setpShort : Nat := 0
  setpTick : Nat := 0
deriving DecidableEq, Repr

/-- One loop of a mirror (R490): the word is INTEG, or MDUTY in MANUAL. -/
structure MirLoop where
  mode : Nat := 0
  owner : Nat := 0
  str : Nat := 0
  speff : Nat := 0
  word : Nat := 0
  ref : Nat := 0
  act : Nat := 0
deriving DecidableEq, Repr

/-- The contents of a mirror frame (R490). -/
structure Mirror where
  seq : Nat := 0
  cycle : Nat := 0
  angle : Nat := 0
  flags : Nat := 0
  loops : List MirLoop := List.replicate 4 {}
  huState : Nat := 0
  huCause : Nat := 0
  huOwned : Nat := 0
deriving DecidableEq, Repr

/-- Share outside its registers (R202, R205): waypoints since its state was entered, and that a cadence is due. -/
structure ShrSt where
  count : Nat := 0
  due : Bool := false
deriving DecidableEq, Repr

/-- Hold-up outside its registers (R220–R225): the runs of its tests, the counts in waypoints of CARRY and RETURN, the
carried loops in effect, what is due, the ramp's command in mV, the loops marked exhausted, lost by a trip or by their
feedback, and handed back, and the measurements of a test. -/
structure HldSt where
  sagRun : Nat := 0
  sagArmed : Bool := true
  minLeft : Nat := 0
  carryWp : Nat := 0
  lockRun : Nat := 0
  startDue : Bool := false
  rampDue : Bool := false
  repeatDue : Bool := false
  timeoutDue : Bool := false
  returnWp : Nat := 0
  rampMv : Nat := 0
  hloops : Nat := 0
  retiRun : List Nat := [0, 0, 0, 0]
  exhausted : Nat := 0
  tripped : Nat := 0
  fbLost : Nat := 0
  handed : Nat := 0
  exhHanded : Bool := false
  lastHand : Nat := 0
  testDv : Nat := 0
  testWp : Nat := 0
  maxDis : Int := 0
deriving DecidableEq, Repr

/-- Cap and the Ledger outside their registers (R207–R219): the energies in 1/3200 µJ, the runs of the cross-check, the
waypoints for which Over stayed positive after the step's amount was reached, the runs below the release level and of
surplus, the steps entered and not yet released, the level of absorbed recovered power before step 2, the currents of
step 4 before their first lowering, the powers last converted of each domain's reduction and of each loop's string at
CHGMAX, the derate requests seen, the loops they limit and the reductions of steps 3 and 4 they hold, and marks of the
present boundary. -/
structure CapSt where
  grid : Nat := 0
  recv : Nat := 0
  mmBad : Nat := 0
  mmGood : Nat := 0
  stab : Nat := 0
  relRun : Nat := 0
  released : Bool := false
  surpRun : Nat := 0
  surpNone : Nat := 0
  raise : Bool := false
  give : Bool := false
  s1End : Bool := true
  absorbed : Int := 0
  entered : Nat := 0
  absBase : Option Int := none
  base : List (Option Nat) := List.replicate 12 none
  s4w : List Int := List.replicate 12 0
  s1w : List Int := [0, 0, 0, 0]
  drqSeen : Nat := 0
  limited : Nat := 0
  locks : List (Int × Int) := [(0, 0), (0, 0), (0, 0), (0, 0)]
deriving DecidableEq, Repr

/-- How a domain's gate is driven (R236, R253): not at all, off with the normal or the strong pull-down, regulated by a
ramp, or fully enhanced. -/
inductive Gate where
  | highZ | off | strong | ramp | on
deriving DecidableEq, Repr

/-- The current levels of a domain in effect, in 1/16 A (R235). -/
structure DomLevels where
  brk : Nat := 0x0240
  ilim : Nat := 0x02D0
  sc : Nat := 0x0500
  rsc : Nat := 0x03C0
  rev : Nat := 0x0200
  rblk : Nat := 8
deriving DecidableEq, Repr

/-- A domain outside its registers (R234–R252): its gate and what the last monitor step sensed of it, the levels in
effect and whether a write of them waits for the next monitor step, the thermal stages in 2⁻⁴⁰ K, the time since ramp
start in ticks with OUTn then, the inrush energy in 1.25 nJ, the rest of the off-time in ticks, and counts of monitor
steps. -/
structure DomSt where
  gate : Gate := .highZ
  gateHigh : Bool := false
  gateLow : Bool := false
  lev : DomLevels := {}
  levWait : Bool := false
  dts : List Int := [0, 0, 0]
  rampTicks : Nat := 0
  rampOut : Nat := 0
  inre : Nat := 0
  offLeft : Nat := 0
  waiting : Bool := false
  waitRun : Nat := 0
  insRun : Nat := 0
  brkRun : Nat := 0
  limRun : Nat := 0
  onRun : Nat := 0
  rdvRun : Nat := 0
  offAge : Nat := 0
  dmgSrc : Nat := 0
  dmgOut : Nat := 0
deriving DecidableEq, Repr

/-- The messages of USB Power Delivery that R266 names. -/
inductive PdKind where
  | accept | reject | wait | ping | psRdy | gotoMin | softReset | dataReset | notSupported
  | drSwap | prSwap | vconnSwap | frSwap
  | getSourceCap | getSinkCap | getSourceCapExt | getSinkCapExt | getSourceInfo | getRevision | getPpsStatus | getStatus
  | getCountryCodes | getCountryInfo | getBatteryCap | getBatteryStatus | getManufacturerInfo
  | sourceCaps | sinkCaps | request | eprRequest | eprMode | bist | alert | enterUsb | sourceInfo | revision | vdm
  | status | ppsStatus | sourceCapsExt | sinkCapsExt | eprSourceCaps | eprSinkCaps | securityRequest | firmwareRequest
  | eprGetSourceCap | eprGetSinkCap | eprKeepAlive | eprKeepAliveAck
  | other
deriving DecidableEq, Repr

/-- A message a port has to send: its kind, its payload words, on SOP or SOP', and whether E2 asked for it; E2's
message has the header and extended header of TXBUF0 (R296). -/
structure PdTx where
  kind : PdKind
  words : List Nat := []
  sopp : Bool := false
  byE2 : Bool := false
  hdr : Nat := 0
  ext : Nat := 0
deriving DecidableEq, Repr

/-- A message in a port's receive queue (R296). -/
structure PdRx where
  sopp : Bool
  hdr : Nat
  ext : Nat
  words : List Nat
  stamp : Stamp
deriving DecidableEq, Repr

/-- The power sequence that runs on a port and the step it waits in (R273–R280). -/
inductive PSeq where
  | none
  | srcWait | srcMove | snkWait
  | prSrc (k : Nat) | prSnk (k : Nat)
  | vconnOff (k : Nat) | vconnOn
  | frsSrc (k : Nat) | frsSnk (k : Nat)
  | hard (src : Bool) (k : Nat)
  | epr (k : Nat)
deriving DecidableEq, Repr

/-- A contract that is being agreed: object position, operating current in 10 mA, voltage in 20 mV, PPS. -/
structure PdCand where
  pos : Nat := 0
  iop : Nat := 0
  vop : Nat := 0
  pps : Bool := false
deriving DecidableEq, Repr

/-- The timers of a port, each with one row or one rule (R260–R290). -/
inductive PortTimer where
  | ccDebounce | pdDebounce | tryDebounce | tryEnd | drp | recovery | disconnect
  | insertion | prime | policy | response | discover | keepalive | keepLost
  | transition | settle | transLate | hardStep | swapStep | swapLate | capsDelay | frsAccept | frsSwap
  | presence | retry | calm | poll | pollMiss | carrier
deriving DecidableEq, Repr

/-- Since when a port's states stand, in ticks (R260–R290): its Type-C state, the terminations, Rp, Rd, the end of
tDRPTry, the sequence's step and its start, PRIME, DECIDE, the message sent that waits for an answer, the explicit
contract, the last EPR_KeepAlive, its PS_RDY as new source, the last cable attempt, the last Get_Status, the cycle of
that, BIST Carrier Mode, VBUS below 75 % of the contract, VBUS below vSafe0V and VBUS settled; the voltage a transition
began at in mV; and the voltages R283 compares with that were given up lately, with their ticks. -/
structure PortTime where
  st : Nat := 0
  cc : Nat := 0
  rp : Nat := 0
  rd : Nat := 0
  tried : Nat := 0
  seq : Nat := 0
  swap : Nat := 0
  prime : Nat := 0
  decide : Nat := 0
  await : Nat := 0
  contract : Nat := 0
  keep : Nat := 0
  caps : Nat := 0
  disc : Nat := 0
  status : Nat := 0
  statusCyc : Nat := 0
  bist : Nat := 0
  low : Option Nat := none
  safe : Option Nat := none
  band : Option Nat := none
  vFrom : Nat := 0
  vHist : List (Nat × Nat) := []
deriving DecidableEq, Repr

/-- A port outside its registers (R259–R291): the terminations seen, whether an accessory was told, the running
insertion delay, the guard-damage count, VCONN, the sequence, messages to send and received, a message that waits for
E2's answer and the one E2 is answering, the message the partner has to answer, the candidate contract, the partner's
source objects, the source objects it was offered last, Hard Resets since the last explicit contract, EPR Mode, the
MessageIDs to send and last received on SOP and SOP', whether the exchange in progress is the port's own, the BIST
mode (0 none, 1 carrier, 2 test data), cable discovery, the context in use, the times, the stage's voltage target and
present command in mV and units of 1/2000 mV, the sink target in mA and present command in 1/200 mA, what the
partner's last Status said, and that the port has commanded its balls since they were last high-impedance (R511). -/
structure PortSt where
  driven : Bool := false
  cc1 : Term := .none
  cc2 : Term := .none
  accTold : Bool := false
  tryDone : Bool := false
  insWait : Bool := false
  dmgRun : Nat := 0
  vconnOn : Bool := false
  seq : PSeq := .none
  tx : List PdTx := []
  rx : List PdRx := []
  decide : Option PdRx := none
  answer : Option PdRx := none
  await : Option PdKind := none
  cand : PdCand := {}
  pps : Bool := false
  partner : List Nat := []
  offered : List Nat := []
  hardResets : Nat := 0
  eprMode : Bool := false
  idSop : Nat := 0
  idSopP : Nat := 0
  rxId : Option Nat := none
  rxIdP : Option Nat := none
  own : Bool := false
  bist : Nat := 0
  time : PortTime := {}
  capsDue : Bool := false
  discDue : Bool := false
  discTries : Nat := 0
  statusWait : Bool := false
  attachDrole : Bool := false
  ctx : Nat := 0
  vTarget : Nat := 0
  vNow : Nat := 0
  iTarget : Nat := 0
  iNow : Nat := 0
  ocp : Bool := false
  ovp : Bool := false
  temp : Nat := 0
deriving DecidableEq, Repr

/-- A slot of the NVM write buffer, or the page latch (R410, R423): a page and its valid bytes by offset. -/
structure NvSlot where
  page : Nat
  bytes : List (Nat × Nat)
deriving DecidableEq, Repr

/-- A region of the store (R403), in units of 4 KiB. -/
structure NvRegion where
  base : Nat := 0
  size : Nat := 0
  owner : Nat := 0
deriving DecidableEq, Repr

/-- What a write operation of the store is for (R411, R421, R424, R430, R445, R458, R473). -/
inductive NvKind where
  | commit | compat | record | region | password | battery | softMap | recHeader | bbxHeader | seal
deriving DecidableEq, Repr

/-- A write operation of the store (R408, R411, R421): what for, with its argument and requester; for a two-bank
record its page a and its payload, and once started the bank's 256 bytes; the pages still to write with their words,
the pages and words written, what the record write selected, and whether the page at work has its journal entry.
DESIGN CHOICE, safe (log 61). -/
structure NvJob where
  kind : NvKind
  arg : Nat := 0
  req : Nat := 0
  page : Nat := 0
  payload : List Nat := []
  data : List Nat := []
  todo : List (Nat × List Nat) := []
  total : Nat := 0
  done : Nat := 0
  words : Nat := 0
  seq : Nat := 0
  bank : Nat := 0
  begun : Bool := false
deriving DecidableEq, Repr

/-- The store outside its registers and its array (R403–R424): READY, a recall on demand, VIN below the brown-out
level, the write buffer, the page latch, the operation in progress with a word in progress or in a throttle pause, the
operations that wait, region table and passwords in effect, open passwords, mismatches in a row and barred requesters
with the clock of each bar, the journal's sequence, kind and data of its latest entry at reset release (0 for none),
what has been told once, and the ticks at which VIN last rose and the pause began. DESIGN CHOICE, safe (log 61);
DEDUCED, unsafe (log 63). -/
structure NvSt where
  ready : Bool := false
  recalling : Bool := false
  vinLow : Bool := true
  slots : List (Option NvSlot) := List.replicate 16 none
  latch : Option NvSlot := none
  cur : Option NvJob := none
  inWord : Bool := false
  pause : Bool := false
  wait : List NvJob := []
  regions : List NvRegion := ⟨0, 120, 0⟩ :: List.replicate 7 {}
  pwds : List (Nat × Nat) := List.replicate 9 (0, 0)
  opens : List (Nat × Nat × Bool) := []
  fails : List (Nat × Nat) := []
  barred : List Nat := []
  barAt : List (Nat × Nat) := []
  pwNew : Nat := 0
  jseq : Nat := 0
  jkind : Nat := 0
  jdata : Nat := 0
  fullTold : Bool := false
  stopTold : Bool := false
  vinTick : Nat := 0
  pauseAt : Nat := 0
deriving DecidableEq, Repr

/-- Integrity outside its registers (R439, R442–R445): LOGFULL told for this fill; the rows moved by the soft map; the
walk of the scrubber with its corrected and failed words and its start; the same of a pass on demand; the tick of
the last failed read; the tick of the last word scrubbed. -/
structure EccSt where
  fullTold : Bool := false
  soft : List (Nat × Nat) := []
  ce : Nat := 0
  ue : Nat := 0
  started : Bool := false
  from_ : Nat := 0
  opWords : Nat := 0
  opCe : Nat := 0
  opUe : Nat := 0
  opSkip : Nat := 0
  opArray : Nat := 0
  opWord : Nat := 0
  ueAt : Option Nat := none
  lastWord : Nat := 0
deriving DecidableEq, Repr

/-- A battery string outside its registers (R298–R324), charges in 2⁻³⁹ nC: the remaining charge, that STARTUP still
waits and the last waypoint's fitness to start from, FULLV, runs of the voltage tests and whether each test held, the
mean current inside ±RESTI, the rest's time, the SOCOCV of a qualified rest whose discharge is to come, the learning
cycle's charges, time, start and last 256 waypoints, RECPG at the last entry into STARTUP with the page its record
has, the payload of a pending record with its page, and that OPCMD 0x02 has set QLRN before the record was read.
DESIGN CHOICE, safe (log 51). -/
structure BatSt where
  q : Nat := 0
  waiting : Bool := false
  clean : Bool := false
  fullv : Bool := false
  lowRun : Nat := 0
  highRun : Nat := 0
  ocvRun : Nat := 0
  cutWas : Bool := false
  fullWas : Bool := false
  inside : Bool := false
  restTicks : Nat := 0
  restSoc : Option Nat := none
  dis : Nat := 0
  chg : Nat := 0
  hist : List (Int × Nat) := []
  ticks : Nat := 0
  lstart : Nat := 0
  recpg : Nat := 0
  recPage : Option Nat := none
  pend : List Nat := []
  pendPage : Nat := 0
  capSet : Bool := false
deriving DecidableEq, Repr

/-- A rail outside its registers (R330–R333): its last conversion, the runs of conversions below, above, clear of a
warning, good and not good, whether its under-voltage tests are armed, and whether it has been power-good since reset.
-/
structure RailSt where
  code : Nat := 0
  below : Nat := 0
  above : Nat := 0
  clearU : Nat := 0
  clearO : Nat := 0
  good : Nat := 0
  bad : Nat := 0
  armed : Bool := false
  been : Bool := false
deriving DecidableEq, Repr

/-- Sequencing outside its registers (R336–R342): the running step's word with its start tick, waypoints left and
awaited line; runs of boundaries without and with the input good and what is due of them; the command and the FACT 10
request that wait for the boundary; what follows the step in progress (1 input loss, 2 command, 3 FACT 10, or the
input's return); the start of RETRYWAIT; loop enables held by a higher claim; and the writes of ENABLE and the loss of
the role that wait for the boundary: a 0 written, a 1 written last (2 in boot), the role standby; and the rails whose
enable Sequencing has commanded since its balls were last high-impedance (R511). -/
structure SeqSt where
  running : Bool := false
  word : Nat := 0
  start : Nat := 0
  wpLeft : Nat := 0
  evLine : Option Nat := none
  evSeen : Bool := false
  lossRun : Nat := 0
  retRun : Nat := 0
  lossDue : Bool := false
  retDue : Bool := false
  cmd : Nat := 0
  fact : Bool := false
  pend : Nat := 0
  up : Bool := false
  retryFrom : Nat := 0
  heldLoops : List (Nat × Bool) := []
  driven : Nat := 0
  enOff : Bool := false
  enOn : Nat := 0
  stby : Bool := false
deriving DecidableEq, Repr

/-- Thermal outside its registers (R343–R348): the last 64 conversions, conversions since the last sample, samples
newest first, the levels that hold by their thresholds, and runs of samples below the rate and of good conversions. -/
structure ThmSt where
  convs : List Int := []
  count : Nat := 0
  samples : List Int := []
  holds : Nat := 0
  rateRun : Nat := 0
  goodRun : Nat := 0
deriving DecidableEq, Repr

/-- Pairing outside its registers (R481–R499): whether it is released (R508) and since which tick, PAIRED in effect,
and that a good heartbeat came; the tick of the last one, good ones in a row before and after link up, the sequence
and the role, flags and health sent at the last boundary, what the mastership rule was last applied to and what it
decided; the row of heartbeats for cycle alignment; since when the partner's score leads by 2; the mirror sequence
expected next, the arrival and count of the last good mirror; the tick since which cause 3 is pending, and that it is
barred; the tick at which an acknowledge was sent with the handover mirror; sequence and tick of the last mirror sent;
and the last frame sent of each type, as bytes. -/
structure PairSt where
  released : Bool := false
  since : Nat := 0
  paired : Bool := false
  hbSeen : Bool := false
  hbTick : Nat := 0
  run : Nat := 0
  after : Nat := 0
  hbSeq : Nat := 0
  sentRole : Nat := 0
  sentFlags : Nat := 4
  sentHealth : Nat := 0
  judged : List Nat := []
  want : Option Nat := none
  alignRun : Nat := 0
  leadSince : Option Nat := none
  nextSeq : Option Nat := none
  mirTick : Option Nat := none
  mirFull : Bool := false
  act : Option Nat := none
  barred3 : Bool := false
  acked : Option (Nat × Mirror) := none
  mirSeq : Nat := 0
  mirSent : Option Nat := none
  txHb : List Nat := []
  txMir : List Nat := []
  txHo : List Nat := []
  txAck : List Nat := []
deriving DecidableEq, Repr

/-- What an engine in WAIT waits for (R364, R366, R367): an event with its rd, LINE, ANY and the tick the wait ends
at; an angle stamp with its rd, target, LREQ, LATE and DEFER; a tick. -/
inductive EngWait where
  | none
  | event (rd line : Nat) (any : Bool) (until_ : Option Nat)
  | angle (rd target : Nat) (lreq late defer : Bool)
  | tick (target : Nat)
deriving DecidableEq, Repr

/-- An engine outside its registers (R374): what it waits for, the word of the instruction that is stalled, that it
goes to OFF when its access completes, and the tick before which Thermal keeps it idle (R346). -/
structure EngSt where
  wait : EngWait := .none
  stall : Nat := 0
  stopDue : Bool := false
  idle : Nat := 0
deriving DecidableEq, Repr

/-- Start-up outside its registers (R506): the boot phase, and STARTMODE of the base image. -/
structure BootSt where
  phase : Nat := 0
  startMode : Nat := 0xFF
deriving DecidableEq, Repr

/-- A mode switch outside its registers (R428, R429): the entries preloaded, as control words with data, whether the
preload is under way, that the switch is deferred, and that it is late. -/
structure OvlSt where
  entries : List (Nat × Nat) := []
  loading : Bool := false
  defer : Bool := false
  late : Bool := false
deriving DecidableEq, Repr

/-- The machine but for its queue of commands. -/
structure Chip where
  die : Die := {}
  held : Bool := false
  causes : Nat := 1
  regs : List (Nat × Word) := []
  shadow : List (Nat × Word) := []
  ops : List LongOp := []
  host : HostSt := {}
  tim : TimeSt := {}
  rcd : RecSt := {}
  clk : ClockSt := {}
  dep : DepotSt := {}
  bbx : BbxSt := {}
  ports : List PmPort := [{}, {}]
  ctxs : List Ctx := List.replicate 128 {}
  shrSlots : List ShareSlot := List.replicate 24 {}
  mea : MeaSt := {}
  cal : CalSt := {}
  met : MetSt := {}
  mar : List LoopSt := List.replicate 4 {}
  phm : PhmSt := {}
  mirror : Option Mirror := none
  shr : ShrSt := {}
  hld : HldSt := {}
  cap : CapSt := {}
  dom : List DomSt := List.replicate 12 {}
  prt : List PortSt := List.replicate 8 {}
  mem : List Host.Cell := []
  upset : List (Nat × Nat) := []
  ecc : EccSt := {}
  nv : NvSt := {}
  bat : List BatSt := List.replicate 4 {}
  rail : List RailSt := List.replicate 24 {}
  seq : SeqSt := {}
  thm : ThmSt := {}
  pair : PairSt := {}
  eng : List EngSt := List.replicate 8 {}
  boot : BootSt := {}
  ovl : OvlSt := {}
  freeN : Nat := 0
deriving DecidableEq, Repr

/-- The machine with the commands that wait, first in, first out. -/
structure State where
  chip : Chip
  pending : List Instr
deriving DecidableEq, Repr

/-- Reasons a step stops with a fault. -/
inductive Fault where
  /-- Raised by no command of this model: every command of the table has an effect in every state. Safe. -/
  | outsideDevice
deriving DecidableEq, Repr

/-- Reasons a step gives a command no meaning. -/
inductive Refusal where
  /-- Raised by an arm of `exec` whose command has no meaning yet. Safe: nothing is claimed of it. -/
  | notModelled (mnemonic : String)
deriving DecidableEq, Repr

/-- The machine at reset release (R505, R506): every register at its reset value, every queue and memory empty. DESIGN
CHOICE, unsafe (log 5). -/
def State.reset : State := { chip := {}, pending := [] }

end Sys2Proof.Machine
end

