-- ==== Sys2Proof/Machine/Ops.lean ====
section
/-! DEFINITION. The named operations every unit uses: reading and writing registers and fields, interrupt bits,
stamps, presence of pages and instances, free values, and the course of a long operation. -/

namespace Sys2Proof.Machine

/-! ### The register file -/

/-- The fields of a page after its header (R31). Families of pages share one table. DESIGN CHOICE, safe (log 95). -/
def pageFields (p : Nat) : List Fld :=
  if p = 0x00 then fieldsGLB else if p = 0x01 then fieldsCLK else if p = 0x02 then fieldsTTB
  else if p = 0x03 then fieldsMEA else if p = 0x04 then fieldsMET else if p = 0x05 then fieldsCAL
  else if p < 0x0A then fieldsMAR else if p < 0x0C then fieldsPWM else if p = 0x0C then fieldsPHM
  else if p < 0x10 then fieldsDOM else if p < 0x18 then fieldsPD else if p = 0x18 then fieldsPDC
  else if p < 0x1D then fieldsBAT else if p = 0x1D then fieldsSHR else if p = 0x1E then fieldsCAP
  else if p = 0x1F then fieldsHLD else if p = 0x20 then fieldsSEQ else if p = 0x21 then fieldsSUP
  else if p = 0x22 then fieldsTHM else if p = 0x23 then fieldsNVM else if p = 0x24 then fieldsREC
  else if p = 0x25 then fieldsBBX else if p = 0x26 then fieldsECC else if p = 0x27 then fieldsSCB
  else if p < 0x30 then fieldsENG else if p = 0x30 then fieldsDEP else if p = 0x31 then fieldsEVT
  else if p < 0x34 then fieldsPMB else if p = 0x34 then fieldsCTX else if p = 0x35 then fieldsPAIR
  else if p = 0x36 then fieldsHIF else if p = 0x37 then fieldsPIN else if p = 0x38 then fieldsOVL
  else []

/-- Pages whose CTRL.ENABLE reads 1 always (R33): GLB, CLK, PIN, HIF, ECC. -/
def alwaysEnabled (p : Nat) : Bool := p == 0x00 || p == 0x01 || p == 0x37 || p == 0x36 || p == 0x26

/-- Reset values that the field tables give per instance or in words: FREQ equal to NOMF (R100), SCALE of chains
16–23, the fused GAIN and STALE (R133), FBCH of MARB (R166), EN of SRCCFG0–7 and SRCCFG22 (R400), the cause POR in
RSTC and RSTHIST (R505), and CTRL of the pages that are always enabled (R33). DESIGN CHOICE, unsafe (log 5). -/
def resetSpecial (a : Nat) : Option Nat :=
  let p := a / 0x400
  let o := a % 0x400
  if p = 0x05 ∧ CAL_SCALE_SCALE.off + 64 ≤ o ∧ o < CAL_SCALE_SCALE.off + 92 then some 0x008637BD
  else if p = 0x05 ∧ o = CAL_SCALE_SCALE.off + 92 then some 0x00218DEF
  else if p = 0x05 ∧ CAL_GAIN_GAIN.off ≤ o ∧ o < CAL_GAIN_GAIN.off + 96 then some 0x40000000
  else if p = 0x05 ∧ o = CAL_STAT_STALE.off then some 0xFFFFFF
  else if a = 0x02 * 0x400 + TTB_FREQ_FREQ.off then some 0x00320000
  else if p = 0x07 ∧ o = MAR_CFG_FBCH.off then some 23
  else if p = 0x30 ∧ (DEP_SRCCFG_EN.off ≤ o ∧ o < DEP_SRCCFG_EN.off + 32 ∨ o = DEP_SRCCFG_EN.off + 88) then
    some 0x8001FFFF
  else if a = 0x01 * 0x400 + CLK_RSTC_CAUSE.off ∨ a = 0x01 * 0x400 + CLK_RSTHIST_CAUSE.off then some 1
  else if o = 8 ∧ alwaysEnabled p then some 1
  else none

/-- The reset bits a list of fields gives a register. -/
def resetBits (fs : List Fld) (o : Nat) : Nat :=
  fs.foldr (fun f n => if f.covers o then n + (f.reset % 2 ^ f.wd) <<< f.lo else n) 0

/-- What a register that is not listed reads as: its reset value. A key above 0xFFFF is a register that each requester
has its own copy of. -/
def regDefault (key : Nat) : Word :=
  let a := key % 0x10000
  match resetSpecial a with
  | some v => BitVec.ofNat 32 v
  | none => BitVec.ofNat 32 (resetBits (pageFields (a / 0x400)) (a % 0x400))

/-- The stored word of a register. -/
def Chip.rd (m : Chip) (key : Nat) : Word := Sparse.get regDefault m.regs key

/-- Store a register. -/
def Chip.wr (m : Chip) (key : Nat) (v : Word) : Chip := { m with regs := Sparse.set regDefault m.regs key v }

/-- Byte address of a field's register: page, field, instance. -/
def Fld.addr (f : Fld) (pg : Nat) (i : Nat := 0) : Nat := pg * 0x400 + f.off + f.stride * i

/-- The number in a field. -/
def Chip.get (m : Chip) (pg : Nat) (f : Fld) (i : Nat := 0) : Nat :=
  bitsOf (m.rd (f.addr pg i)).toNat f.lo f.wd

/-- The number in a field, read as two's complement. -/
def Chip.getS (m : Chip) (pg : Nat) (f : Fld) (i : Nat := 0) : Int := sx f.wd (m.get pg f i)

/-- Is a field other than 0? -/
def Chip.has (m : Chip) (pg : Nat) (f : Fld) (i : Nat := 0) : Bool := m.get pg f i != 0

/-- Store a number in a field, the other bits of its register kept. -/
def Chip.put (m : Chip) (pg : Nat) (f : Fld) (v : Nat) (i : Nat := 0) : Chip :=
  m.wr (f.addr pg i) (BitVec.ofNat 32 (setBits (m.rd (f.addr pg i)).toNat f.lo f.wd v))

/-- Store an integer in a field in two's complement. -/
def Chip.putS (m : Chip) (pg : Nat) (f : Fld) (v : Int) (i : Nat := 0) : Chip := m.put pg f (ux f.wd v) i

/-- Store a Boolean in a one-bit field. -/
def Chip.putB (m : Chip) (pg : Nat) (f : Fld) (v : Bool) (i : Nat := 0) : Chip := m.put pg f (b2n v) i

/-- Count up a saturating field. -/
def Chip.count (m : Chip) (pg : Nat) (f : Fld) (i : Nat := 0) : Chip := m.put pg f (satInc f.wd (m.get pg f i)) i

/-- Add to a saturating field. -/
def Chip.countBy (m : Chip) (pg : Nat) (f : Fld) (n : Nat) (i : Nat := 0) : Chip :=
  m.put pg f (satU f.wd (m.get pg f i + n)) i

/-- Set one bit of a mask field. -/
def Chip.maskSet (m : Chip) (pg : Nat) (f : Fld) (b : Nat) (i : Nat := 0) : Chip :=
  m.put pg f (setBit (m.get pg f i) b) i

/-- Clear one bit of a mask field. -/
def Chip.maskClr (m : Chip) (pg : Nat) (f : Fld) (b : Nat) (i : Nat := 0) : Chip :=
  m.put pg f (clearBit (m.get pg f i) b) i

/-- Set bit `b` of the page's IRQ_RAW. -/
def Chip.irq (m : Chip) (pg b : Nat) : Chip := m.maskSet pg HDR_IRQ_RAW_BITS b

/-- The page's CTRL.ENABLE. -/
def Chip.enabled (m : Chip) (pg : Nat) : Bool := m.has pg HDR_CTRL_ENABLE

/-- Return every register of a page to its reset value: no entry of the page stays listed. -/
def Chip.resetPage (m : Chip) (pg : Nat) : Chip :=
  { m with regs := m.regs.filter (fun e => e.1 % 0x10000 / 0x400 != pg) }

/-! ### Requesters -/

/-- The requester codes of chapter 2. -/
def reqCode : Requester → Nat
  | .spi => 0
  | .i2c => 1
  | .uart => 2
  | .loader => 3
  | .engine x => 4 + x.val

/-- Is the requester one of the host's three interfaces, 0x0–0x2? -/
def isHost (r : Nat) : Bool := decide (r < 3)

/-- Key of a register that each requester has its own copy of. -/
def reqKey (r a : Nat) : Nat := 0x10000 * (r + 1) + a

/-! ### Shadows (R39, R78, R126, R210, R394, R463) -/

/-- A requester's shadow of a register, if it holds one. -/
def Chip.shadowOf (m : Chip) (r a : Nat) : Option Word := Sparse.find m.shadow (reqKey r a)

/-- Take a shadow copy. -/
def Chip.setShadow (m : Chip) (r a : Nat) (v : Word) : Chip :=
  { m with shadow := Sparse.put m.shadow (reqKey r a) v }

/-- Discard the shadows of PART0–PART5 and of PVALID of every requester on a page (R39). -/
def Chip.dropParts (m : Chip) (pg : Nat) : Chip :=
  { m with shadow := m.shadow.filter (fun e =>
      !((decide (pg * 0x400 + 0x28 ≤ e.1 % 0x10000) && decide (e.1 % 0x10000 ≤ pg * 0x400 + 0x3C))
        || e.1 % 0x10000 == pg * 0x400 + 0x0C)) }

/-! ### Presence (R1–R5) -/

/-- Pages whose unit the member does not carry, and the reserved pages (R3). -/
def pageAbsent (p : Part) (pg : Nat) : Bool :=
  (decide (0x39 ≤ pg) && decide (pg ≤ 0x3E)) ||
  match p with
  | .sv6412 => false
  | .sv6408 => pg == 0x0F || (decide (0x10 ≤ pg) && decide (pg ≤ 0x18)) || pg == 0x25
  | .sv6404 =>
    pg == 0x08 || pg == 0x09 || pg == 0x0B || pg == 0x0E || pg == 0x0F ||
    (decide (0x10 ≤ pg) && decide (pg ≤ 0x1C)) || pg == 0x25

/-- Number of loops (R1). -/
def nLoops : Part → Nat
  | .sv6404 => 2
  | _ => 4

/-- Number of phases (R1). -/
def nPhases : Part → Nat
  | .sv6412 => 16
  | .sv6408 => 12
  | .sv6404 => 8

/-- Number of domains (R1). -/
def nDomains : Part → Nat
  | .sv6412 => 12
  | .sv6408 => 8
  | .sv6404 => 4

/-- Number of PD ports (R1). -/
def nPorts : Part → Nat
  | .sv6412 => 8
  | _ => 0

/-- Number of battery estimators (R1). -/
def nStrings : Part → Nat
  | .sv6404 => 0
  | _ => 4

/-- Are the PD ports and the black box present? -/
def isFull (p : Part) : Bool := p == .sv6412

/-- Precision chains the member carries: the domain shunts are chains 0–11 (R1, R102). -/
def chainPresent (p : Part) (c : Nat) : Bool := decide (c < nDomains p) || (decide (12 ≤ c) && decide (c < 24))

/-- Depot sources the member carries (R400). -/
def depSources : Part → Nat
  | .sv6412 => 0xFFFFFF
  | .sv6408 => 0xFDFFFF
  | .sv6404 => 0xF99FFF

/-- Is a meter channel present (R120, R122)? -/
def metPresent (p : Part) (c : Nat) : Bool :=
  decide (c < nDomains p) || (decide (12 ≤ c) && decide (c < 16)) || (decide (16 ≤ c) && decide (c < 24) && isFull p) || c == 24

/-! ### Upset symbols (R434–R441) -/

/-- Address of a byte of an array. -/
def memAddr (arr off : Nat) : Nat := arr * 2 ^ 20 + off

/-- The upset symbols of a word. -/
def Chip.upsets (m : Chip) (arr w : Nat) : Nat := Sparse.get (fun _ => 0) m.upset (memAddr arr (8 * w))

/-- Set the upset symbols of a word. -/
def Chip.setUpsets (m : Chip) (arr w e : Nat) : Chip :=
  { m with upset := Sparse.set (fun _ => 0) m.upset (memAddr arr (8 * w)) (e % 2 ^ 96) }

/-- The words of a unit's array that hold upset symbols at the places a condition names. DESIGN CHOICE, unsafe (log
58). -/
def Chip.unitWords (m : Chip) (arr : Nat) (at_ : Nat → Bool) : List Nat :=
  ((m.upset.filter (fun e => e.1 / 2 ^ 20 == arr)).map (fun e => e.1 % 2 ^ 20 / 8)).filter
    (fun w => at_ (Config.ramWord arr w))

/-- A unit writes whole words of its array: their upset symbols are gone (R438, R441). DESIGN CHOICE, unsafe (log 58).
-/
def Chip.unitWrite (m : Chip) (arr : Nat) (at_ : Nat → Bool) : Chip :=
  (m.unitWords arr at_).foldl (fun m w => m.setUpsets arr w 0) m

/-! ### Stamps -/

/-- The flags of the present stamp (R74). -/
def Chip.flags (m : Chip) : Nat :=
  m.get 2 TTB_STAT_LOCK + 2 * m.get 2 TTB_STAT_PROV + 4 * m.get 2 TTB_STAT_SYN

/-- The present stamp (R79). -/
def Chip.stamp (m : Chip) : Stamp := ⟨m.tim.cycle, m.tim.angle, m.flags⟩

/-- A stamp as a 48-bit number (R73). -/
def Stamp.num (a : Stamp) : Nat := a.cycle % 2 ^ 32 * 65536 + a.angle % 65536

/-- `b − a` as a signed 48-bit number (R76). -/
def stampDiff (a b : Nat) : Int := sx 48 (b + 2 ^ 48 - a % 2 ^ 48)

/-- Is stamp `a` before stamp `b` (R76)? -/
def stampBefore (a b : Nat) : Bool := decide (0 < stampDiff a b)

/-- Has the present stamp reached the target (R76)? -/
def stampReached (now target : Nat) : Bool := !stampBefore now target

/-- May a lock-required action run at the present stamp (R75)? -/
def Chip.lockPermitted (m : Chip) : Bool := bit m.flags 0 && !bit m.flags 1

/-! ### Free values -/

/-- A fresh free word, and the machine with its counter advanced. DESIGN CHOICE, safe (log 3). -/
def Chip.freeWord (m : Chip) : Word × Chip := (Config.freeWord m.freeN, { m with freeN := m.freeN + 1 })

/-! ### Long operations (R35–R39) -/

/-- Pages that have long operations. -/
def hasOps (pg : Nat) : Bool :=
  pg == 0x04 || pg == 0x05 || (decide (0x06 ≤ pg) && decide (pg ≤ 0x09)) || (decide (0x19 ≤ pg) && decide (pg ≤ 0x1C))
  || pg == 0x1F || pg == 0x23 || pg == 0x24 || pg == 0x25 || pg == 0x26 || pg == 0x27
  || (decide (0x28 ≤ pg) && decide (pg ≤ 0x30)) || pg == 0x32 || pg == 0x33 || pg == 0x35

/-- Byte address of PARTn of a page. -/
def partAddr (pg n : Nat) : Nat := pg * 0x400 + 0x28 + 4 * n

/-- Copy PART0–PART5 and PVALID of a page into a requester's shadow (R39); PVALID stands at the address of STATUS. -/
def Chip.partShadow (m : Chip) (r pg : Nat) : Chip :=
  ((List.range 6).foldl (fun m n => m.setShadow r (partAddr pg n) (m.rd (partAddr pg n))) m).setShadow r
    (pg * 0x400 + 0x0C) (BitVec.ofNat 32 (m.get pg HDR_STATUS_PVALID))

/-- Is an operation running on the page? -/
def Chip.busy (m : Chip) (pg : Nat) : Bool := m.has pg HDR_STATUS_BUSY

/-- The operation that runs on a page. -/
def Chip.opOf (m : Chip) (pg : Nat) : Option LongOp := m.ops.find? (fun o => o.page == pg)

/-- Replace the operation of a page. -/
def Chip.setOp (m : Chip) (o : LongOp) : Chip :=
  { m with ops := m.ops.map (fun x => if x.page = o.page then o else x) }

/-- PROGRESS shows how far an operation has come; it never falls while the operation runs (R33). -/
def Chip.progress (m : Chip) (pg v : Nat) : Chip :=
  m.put pg HDR_STATUS_PROGRESS (Nat.max (m.get pg HDR_STATUS_PROGRESS) (if v < 255 then v else 254))

/-- Take the operation of a page off. -/
def Chip.dropOp (m : Chip) (pg : Nat) : Chip := { m with ops := m.ops.filter (fun o => o.page != pg) }

/-- Acceptance of a command (R35). -/
def Chip.acceptOp (m : Chip) (pg cmd arg req : Nat) : Chip :=
  let m := m.wr (pg * 0x400 + 0x20) (BitVec.ofNat 32 cmd)
  let m := (((m.put pg HDR_STATUS_BUSY 1).put pg HDR_STATUS_PROGRESS 0).put pg HDR_STATUS_DONE 0).put pg HDR_STATUS_ERR 0
  let m := (m.put pg HDR_STATUS_PVALID 0).dropParts pg
  { m with ops := m.ops ++ [{ page := pg, cmd := cmd, arg := arg, req := req }] }

/-- Store PART0 onward. -/
def Chip.putParts (m : Chip) (pg : Nat) : Nat → List Word → Chip
  | _, [] => m
  | n, v :: t => if n < 6 then Chip.putParts (m.wr (partAddr pg n) v) pg (n + 1) t else m

/-- Completion of an operation (R38). -/
def Chip.endDone (m : Chip) (pg : Nat) (parts : List Word) : Chip :=
  let m := (m.putParts pg 0 parts).dropOp pg
  let m := (((m.put pg HDR_STATUS_BUSY 0).put pg HDR_STATUS_DONE 1).put pg HDR_STATUS_PROGRESS 255).put pg HDR_STATUS_PVALID 1
  ((m.dropParts pg).irq pg 0).irq pg 3

/-- End of an operation with an error (R38). -/
def Chip.endErr (m : Chip) (pg reason detail : Nat) : Chip :=
  let m := (m.wr (partAddr pg 5) (BitVec.ofNat 32 (detail % 2 ^ 24 * 256 + reason % 256))).dropOp pg
  let m := (m.put pg HDR_STATUS_BUSY 0).put pg HDR_STATUS_ERR 1
  (m.dropParts pg).irq pg 1

/-- A non-zero OPCMD write (R35, R36): refused while an operation runs, else accepted and passed to the unit. DESIGN
CHOICE, safe (log 29). -/
def Chip.startOp (m : Chip) (pg cmd req : Nat) (unit : Chip → Chip) : Chip :=
  if m.busy pg then m.irq pg 2
  else unit (m.acceptOp pg cmd (m.rd (pg * 0x400 + 0x24)).toNat req)

/-! ### Time -/

/-- Ticks of 1 µs (R78). -/
abbrev usTicks : Nat := 200

/-- Ticks in 1 ms (R78). -/
abbrev msTicks : Nat := 200000

/-- Ticks passed since `t`. -/
def Chip.ticksSince (m : Chip) (t : Nat) : Nat := (m.tim.tick + 2 ^ 64 - t) % 2 ^ 64

/-! ### Unlocks -/

/-- Is the page unlocked for the requester (R40)? The loader holds an unlock on every page (R43). -/
def Chip.unlockedFor (m : Chip) (r pg : Nat) : Bool := r == 3 || m.host.unlocked.contains (r, pg)

/-- Key of a requester's unlock of a page. -/
def unlockKey (r pg : Nat) : Nat := r * 64 + pg

/-- An RWL write by a requester to a page it has unlocked (R41). -/
def Chip.rwlSeen (m : Chip) (r pg : Nat) : Chip :=
  if m.host.unlocked.contains (r, pg) then
    { m with host := { m.host with unlockAt := Sparse.put m.host.unlockAt (unlockKey r pg) m.tim.tick } }
  else m

end Sys2Proof.Machine
end

