-- ==== Sys2Proof/Machine/Events.lean ====
section
/-! DEFINITION. What every unit uses to tell of a happening: recorder codes through the rate limit and the queue
(R451–R456, R466, R467), Depot entries (R386–R392), triggers of the black box (R470, R471) and the edges of event
lines with their routes (R379–R383). -/

namespace Sys2Proof.Machine

/-! ### Recorder codes -/

/-- A signed parameter as its 24 stored bits (R451). -/
def sp (x : Int) : Nat := ux 24 (satS 24 x)

/-- An unsigned parameter as its 24 stored bits (R451). -/
def up (n : Nat) : Nat := if n ≤ 0xFFFFFF then n else 0xFFFFFF

/-- Unit number that a hardware code carries (R466). -/
def codeSrc (c : Nat) : Nat :=
  if c = 0x1013 ∨ c = 0x1014 ∨ c = 0x1016 then 3
  else if c < 0x1010 then 1 else if c < 0x1020 then 2 else if c < 0x2000 then 6
  else if c < 0x2010 then 4 else if c < 0x3000 then 5 else if c < 0x4000 then 7 else if c < 0x5000 then 8
  else if c < 0x6000 then 9 else if c < 0x7000 then 10 else if c < 0x8000 then 11 else if c < 0x8020 then 12
  else if c < 0x8030 then 13 else if c < 0x9000 then 14 else if c < 0xA000 then 18 else if c < 0xA020 then 17
  else if c < 0xA030 then 15 else if c < 0xA040 then 16 else 0

/-- Severity of a hardware code outside class 0x9 (R467). -/
def codeSev (c : Nat) : Nat :=
  if [0x1001, 0x1011, 0x1016, 0x1024, 0x2006, 0x2011, 0x2012, 0x2014, 0x3001, 0x3003, 0x3004, 0x4005, 0x4007, 0x4008,
      0x5002, 0x5004, 0x6002, 0x6003, 0x6005, 0x7005, 0x8003, 0x8021, 0x8022, 0xA020, 0xA021].contains c then 3
  else if [0x1005, 0x1012, 0x1014, 0x1043, 0x1045, 0x2003, 0x2013, 0x2016, 0x3009, 0x4012, 0x500A, 0x6004, 0x6006,
      0x7002, 0x7003, 0x8004, 0x8020, 0x8032, 0x8034, 0x8035, 0xA030].contains c then 2
  else 1

/-- Ticks of 5 ns in 1/4096 h (R460). -/
def ticksPerHourPart : Nat := 175781250

/-- Operating hours counted since reset release (R460). -/
def Chip.hourPart (m : Chip) : Nat := m.tim.tick / ticksPerHourPart

/-- The present OPHRS (R460). -/
def Chip.opHours (m : Chip) : Nat := (m.rcd.hdrBase + m.hourPart) % 2 ^ 32

/-- Tokens a bucket of a code holds, 0 for a code without a limit (R455). -/
def Chip.rateDepth (m : Chip) (code : Nat) : Nat :=
  match (List.range 8).find? (fun k => m.get 0x24 REC_RL_CODE k == code && code != 0) with
  | some k => m.get 0x24 REC_RL_DEPTH k
  | none => m.get 0x24 REC_CFG_DEPTH

/-- The bucket a code draws on: its index, or none for the overflow bucket; and the buckets with one assigned. -/
def Chip.bucketFor (m : Chip) (code : Nat) : Option Nat × List Bucket :=
  match m.rcd.buckets.findIdx? (fun b => b.code == code) with
  | some i => (some i, m.rcd.buckets)
  | none =>
    let fresh : Bucket := { code := code, tokens := m.rateDepth code, used := m.rcd.useSeq, since := m.tim.tick }
    if m.rcd.buckets.length < 128 then (some m.rcd.buckets.length, m.rcd.buckets ++ [fresh])
    else
      let full := (List.range m.rcd.buckets.length).filter (fun i =>
        match m.rcd.buckets[i]? with
        | some b => decide (m.rateDepth b.code ≤ b.tokens)
        | none => false)
      let used := fun i => ((m.rcd.buckets[i]?).map Bucket.used).getD 0
      match full with
      | [] => (none, m.rcd.buckets)
      | i :: t =>
        let best := t.foldl (fun b j => if used j < used b then j else b) i
        (some best, setAt m.rcd.buckets best fresh)

/-- Draw one token of a bucket that holds up to `depth`: did the record pass, the suppressed count it carries, the
bucket after. -/
def Bucket.draw (c : Bucket) (depth seq : Nat) : Bool × Nat × Bucket :=
  let b : Bucket := { c with tokens := Nat.min depth c.tokens }
  if b.tokens = 0 then (false, 0, { b with supp := b.supp + 1, used := seq })
  else (true, if b.supp < 255 then b.supp else 255, { b with tokens := b.tokens - 1, supp := 0, used := seq })

/-- The rate limit (R455): did the record pass, and with what SUPP. -/
def Chip.rateLimit (m : Chip) (code : Nat) : Bool × Nat × Chip :=
  if m.rateDepth code = 0 then (true, 0, m)
  else
    let seq := m.rcd.useSeq + 1
    match m.bucketFor code with
    | (some i, bs) =>
      let d := ((bs[i]?).getD ⟨code, 0, 0, 0, 0⟩).draw (m.rateDepth code) seq
      (d.1, d.2.1, { m with rcd := { m.rcd with buckets := setAt bs i d.2.2, useSeq := seq } })
    | (none, _) =>
      let start : Bucket := if m.rcd.overflowFresh then ⟨0, m.rateDepth code, 0, seq, m.tim.tick⟩ else m.rcd.overflow
      let d := start.draw (m.rateDepth code) seq
      (d.1, d.2.1, { m with rcd := { m.rcd with overflow := d.2.2, overflowFresh := false, useSeq := seq } })

/-- Does a clear of the recorder run: accepted, and not held by ENABLE = 0 (R462)? -/
def Chip.recClearing (m : Chip) : Bool :=
  m.busy 0x24 && m.enabled 0x24 && (m.opOf 0x24).any (fun o => o.cmd == 2)

/-- A record enters the queue, or is dropped by a full recorder (R461), unless a clear runs (R462), or by a full queue
(R456). -/
def Chip.enqueueRec (m : Chip) (e : Rec) : Chip :=
  if m.has 0x24 REC_STAT_FULL && !m.recClearing then
    let m := m.count 0x24 REC_DROP_DROPFULL
    { m with rcd := { m.rcd with dropTotal := satInc 32 m.rcd.dropTotal } }
  else if 16 ≤ m.rcd.queue.length then
    let m := (m.count 0x24 REC_DROP_DROPQ).irq 0x24 5
    { m with rcd := { m.rcd with droppedSince := m.rcd.droppedSince + 1, dropTotal := satInc 32 m.rcd.dropTotal } }
  else { m with rcd := { m.rcd with queue := m.rcd.queue ++ [e] } }

/-- A record passes the rate limit into the queue, or is suppressed or dropped (R454). -/
def Chip.recPass (m : Chip) (e : Rec) : Chip :=
  match m.rateLimit e.code with
  | (true, supp, m) => m.enqueueRec { e with supp := supp }
  | (false, _, m) => m.count 0x24 REC_SUPCNT_COUNT

/-- A record of a code with its severity, source and parameters is made: it passes the three stages when the records of
its clock do (R454). A parameter above 24 bits is stored as 0xFF_FFFF (R451). -/
def Chip.record (m : Chip) (code sev src : Nat) (st : Stamp) (ps : List Nat) : Chip :=
  let e : Rec := { code := code, sev := sev, src := src, stamp := st,
                   hours := if m.rcd.started then m.opHours else m.hourPart, based := m.rcd.started,
                   pcc := (m.rd (0x24 * 0x400 + REC_PCC_PCC.off)).toNat, params := ps.map up }
  { m with clk := { m.clk with recs := m.clk.recs ++ [e] } }

/-- A hardware code at the present stamp. -/
def Chip.emit (m : Chip) (code : Nat) (ps : List Nat) : Chip := m.record code (codeSev code) (codeSrc code) m.stamp ps

/-- A code of class 0x9, whose chapter gives its severity (R467). -/
def Chip.emitSev (m : Chip) (code sev : Nat) (ps : List Nat) : Chip := m.record code sev (codeSrc code) m.stamp ps

/-! ### Triggers of the black box -/

/-- Number of valid slots the region holds and the mask of valid ones (R472, R474). -/
def Chip.bbxSlotFree (m : Chip) : Option Nat :=
  (List.range (m.get 0x25 BBX_STAT_NSLOT)).find? (fun k => !bit (m.get 0x25 BBX_STAT_VALID) k)

/-- Is a slot available for a capture (R474)? -/
def Chip.bbxSlotAvail (m : Chip) : Bool :=
  m.bbxSlotFree.isSome || (m.has 0x25 BBX_CFG_OVRW && m.has 0x25 BBX_STAT_NSLOT)

/-- A trigger refused for a cause (R470): one of a clock in which another was refused is part of that one. -/
def Chip.bbxRefuse (m : Chip) (cause line tick : Nat) : Chip :=
  if m.bbx.lastRefuse = some tick then m
  else
    let m := { m with bbx := { m.bbx with lastRefuse := some tick } }
    ((m.count 0x25 BBX_MISSED_COUNT).irq 0x25 5).emit 0x8034 [cause, line]

/-- A trigger of the black box by a line, 0xFF for software, with its stamp and tick: it opens a capture, joins one in
POST, or is refused (R470, R471). One in the clock of the last is part of it, and the lowest line names the trigger.
DEDUCED, unsafe (log 120). -/
def Chip.bbxTrigger (m : Chip) (line : Nat) (st : Stamp) (tick : Nat) : Chip :=
  let state := m.get 0x25 BBX_STAT_STATE
  if state = 4 then m.bbxRefuse 1 line tick
  else if state = 0 then m.bbxRefuse 3 line tick
  else if state = 3 ∧ m.bbx.lastTrig = tick then
    (if m.bbx.further = 0 ∧ line < m.bbx.trigLine then { m with bbx := { m.bbx with trigLine := line } } else m)
  else if state = 3 then
    { m with bbx := { m.bbx with
        lastTrig := tick
        furtherAngle := if m.bbx.further = 0 then st.angle else m.bbx.furtherAngle
        further := satInc 8 m.bbx.further } }
  else if !m.bbxSlotAvail then m.bbxRefuse 2 line tick
  else
    let m := m.put 0x25 BBX_STAT_STATE 3
    { m with bbx := { m.bbx with
        after := 0, pre := if m.bbx.ring.length < 512 then m.bbx.ring.length else 512, trigLine := line, further := 0,
        furtherAngle := 0, lastTrig := tick, trigStamp := st, trigHours := m.opHours,
        trigPcc := (m.rd (0x24 * 0x400 + REC_PCC_PCC.off)).toNat } }

/-! ### Event lines and the Depot -/

/-- Reserved lines never assert (R380). -/
def lineReserved (n : Nat) : Bool :=
  n == 6 || n == 7 || (decide (25 ≤ n) && decide (n ≤ 31)) || (decide (61 ≤ n) && decide (n ≤ 63)) ||
  (decide (76 ≤ n) && decide (n ≤ 79)) || (decide (97 ≤ n) && decide (n ≤ 99)) || (decide (115 ≤ n) && decide (n ≤ 119)) ||
  (decide (122 ≤ n) && decide (n ≤ 127)) || decide (232 ≤ n)

/-- Lines of units and instances the member does not carry never assert (R6). -/
def lineAbsent (p : Part) (n : Nat) : Bool :=
  (decide (32 ≤ n) && decide (n < 56) && decide (nLoops p ≤ n % 4)) ||
  (decide (64 ≤ n) && decide (n < 76) && decide (nDomains p ≤ n - 64)) ||
  (decide (80 ≤ n) && decide (n < 88) && decide (nPorts p ≤ n - 80)) ||
  (decide (88 ≤ n) && decide (n < 96) && decide (nStrings p ≤ n % 4)) ||
  (n == 111 && !isFull p)

/-- Is bit `n` of a 256-bit route mask set? -/
def Chip.routed (m : Chip) (f : Fld) (n base : Nat) : Bool := bit (m.get 0x31 f (base + n / 32)) (n % 32)

/-- Entries present in the Depot. -/
def DepotSt.total (d : DepotSt) : Nat := (d.queues.map List.length).sum

/-- One queue of the Depot. -/
def DepotSt.queue (d : DepotSt) (n : Nat) : List DepEntry := (d.queues[n]?).getD []

/-- Line `n` rises (R379, R381–R383): its latch, the engines' pending bits, Sequencing's awaited line and the IRQ bit
take it, and its ordered targets take it with the other edges of the clock. A line rises at most once in a clock;
reserved lines and those of absent units never do. -/
def Chip.raise (m : Chip) (n : Nat) : Chip :=
  if lineReserved n || lineAbsent m.die.part n || m.clk.seen.contains n then m
  else
    let e : Edge := ⟨n, m.stamp, m.tim.tick⟩
    let m := { m with clk := { m.clk with edges := m.clk.edges ++ [e], seen := m.clk.seen ++ [n] } }
    let m := m.maskSet 0x31 EVT_LATCH_SEEN (n % 32) (n / 32)
    let m := if m.seq.evLine = some n then { m with seq := { m.seq with evSeen := true } } else m
    let m := (List.range 8).foldl (fun m x =>
      if m.routed EVT_RE_ROUTE n (8 * x) then m.maskSet (0x28 + x) ENG_EVPEND_PEND (n % 32) (n / 32) else m) m
    if m.routed EVT_RIRQ_ROUTE n 0 then m.irq 0x31 4 else m

/-- An entry is lost: its source's counter, LOSTM and IRQ bit LOST, the lost line, and code 0xA030 at a rise of the
LOSTM bit (R392). -/
def Chip.depLose (m : Chip) (n : Nat) : Chip :=
  let m := if n % 2 = 0 then m.count 0x30 DEP_LOSTP_LO (n / 2) else m.count 0x30 DEP_LOSTP_HI (n / 2)
  let cnt := if n % 2 = 0 then m.get 0x30 DEP_LOSTP_LO (n / 2) else m.get 0x30 DEP_LOSTP_HI (n / 2)
  let old := bit (m.get 0x30 DEP_LOSTM_LOST) n
  let m := ((m.maskSet 0x30 DEP_LOSTM_LOST n).irq 0x30 5).raise 121
  if old then m else m.emit 0xA030 [n, cnt]

/-- The lowest slot of a queue that no entry stands in. -/
def freePlace (q : List DepEntry) : Nat :=
  ((List.range 4).find? (fun k => q.all (fun e => e.place != k))).getD 0

/-- Put an entry in its source's queue, or lose it when the queue is full (R392); the not-empty line rises with the
first entry (R383). -/
def Chip.depAppend (m : Chip) (e : DepEntry) : Chip :=
  if 4 ≤ (m.dep.queue e.src).length then m.depLose e.src
  else
    let rose := m.dep.total == 0
    let at_ := freePlace (m.dep.queue e.src)
    let m := { m with dep := { m.dep with
      queues := setAt m.dep.queues e.src (m.dep.queue e.src ++ [{ e with epoch := m.dep.epoch, place := at_ }]) } }
    let m := m.unitWrite 0x14 (fun k => k / 2 == 4 * e.src + at_)
    if rose then (m.irq 0x30 4).raise 120 else m

/-- Does a hardware source make an entry for a tag (R389)? -/
def Chip.depWants (m : Chip) (src tag : Nat) : Bool :=
  bit (depSources m.die.part) src && m.has 0x30 DEP_SRCCFG_EN src &&
  (src == 8 || bit (m.get 0x30 DEP_SRCCFG_KINDEN src) tag)

/-- A hardware source makes an entry at a stamp (R387–R389, R392). -/
def Chip.depotAt (m : Chip) (src tag value : Nat) (st : Stamp) : Chip :=
  if m.depWants src tag then m.depAppend { tag := tag, src := src, stamp := st, value := value } else m

/-- A hardware source makes an entry at the present stamp. -/
def Chip.depot (m : Chip) (src tag value : Nat) : Chip := m.depotAt src tag value m.stamp

/-! ### The end of a clock -/

/-- An edge reaches the targets that take the edges of a clock in order (R381, R382): the Depot, the recorder, and the
black box, which the lowest routed line triggers (R470). -/
def Chip.deliver (m : Chip) (e : Edge) : Chip :=
  let n := e.line
  let m := if m.routed EVT_RDEP_ROUTE n 0 && m.depWants 8 n then
      m.depAppend { tag := n, src := 8, stamp := e.stamp, value := e.tick }
    else m
  let m := if m.routed EVT_RREC_ROUTE n 0 then m.record 0xA031 (codeSev 0xA031) (codeSrc 0xA031) e.stamp [n] else m
  if isFull m.die.part && m.routed EVT_RBBX_ROUTE n 0 && !m.clk.trig then
    { m.bbxTrigger n e.stamp e.tick with clk := { (m.bbxTrigger n e.stamp e.tick).clk with trig := true } }
  else m

/-- Deliver the edges of the clock in ascending line number, and then the Depot's own, ev120 and ev121, that they bring
(R382); each line has at most one edge in a clock, so few rounds empty the list. -/
def Chip.settleEdges : Nat → Chip → Chip
  | 0, m => m
  | k + 1, m =>
    match m.clk.edges with
    | [] => m
    | es => Chip.settleEdges k
        ((sortBy Edge.line es).foldl Chip.deliver { m with clk := { m.clk with edges := [] } })

/-- The end of a system clock: its edges in ascending line number (R382), then its records in ascending source, those
of one source as they were made (R454). DESIGN CHOICE, safe (log 137). -/
def Chip.settle (m : Chip) : Chip :=
  let m := Chip.settleEdges 4 m
  (sortBy Rec.src m.clk.recs).foldl Chip.recPass { m with clk := {} }

/-! ### Running a command -/

/-- The machine after a command's effect and the end of its clock. What the die fixes stays as it is, whatever the
command. DESIGN CHOICE, safe (log 4); DESIGN CHOICE, safe (log 8). -/
def State.act (s : State) (f : Chip → Chip) : State :=
  { s with chip := ({ f s.chip with die := s.chip.die }).settle }

/-- Run a command's effect: nothing but a reset or its release acts on a chip held in reset (R504). DESIGN CHOICE,
safe (log 4); DEDUCED, safe (log 11); DESIGN CHOICE, safe (log 93). -/
def State.run (s : State) (f : Chip → Chip) : Host.Outcome State Fault Refusal :=
  .next (if s.chip.held then s else s.act f)

end Sys2Proof.Machine
end

