-- ==== Sys2Proof/Machine/Memory.lean ====
section
/-! DEFINITION. The protected memories (R434–R441): one map of bytes over every array, one map of upset symbols, the
Reed-Solomon code over GF(256), and reads and writes of storage words. The address of a byte is its array number times
2²⁰ plus its offset in the array's memory; a word's upsets stand at the address of its byte 0, as 12 stored symbols of
8 bits, check bytes in positions 0–3 and data bytes in positions 4–11 (R436). -/

namespace Sys2Proof.Machine

/-! ### Bytes -/

/-- What a byte that nothing has written reads as: SRAM is written with zeros before reset release (R435). DESIGN
CHOICE, unsafe (log 5); DESIGN CHOICE, unsafe (log 10). -/
def memDefault (_ : Nat) : Byte := 0

/-- The canonical form of a memory. -/
def Memory.wf (l : List Host.Cell) : Bool := Sparse.wf memDefault l

/-- Read one byte. DESIGN CHOICE, unsafe (log 10). -/
def Memory.read (l : List Host.Cell) (a : Nat) : Byte := Sparse.get memDefault l a

/-- Write one byte. -/
def Memory.write (l : List Host.Cell) (a : Nat) (v : Byte) : List Host.Cell := Sparse.set memDefault l a v

/-- A stored byte. -/
def Chip.memByte (m : Chip) (arr off : Nat) : Nat := (Memory.read m.mem (memAddr arr off)).toNat

/-- Store a byte. -/
def Chip.memPut (m : Chip) (arr off v : Nat) : Chip :=
  { m with mem := Memory.write m.mem (memAddr arr off) (BitVec.ofNat 8 v) }

/-- Store bytes from an offset upward. -/
def Chip.memPuts (m : Chip) (arr : Nat) : Nat → List Nat → Chip
  | _, [] => m
  | off, v :: t => Chip.memPuts (m.memPut arr off v) arr (off + 1) t

/-! ### The code (R436, R437) -/

/-- One step of multiplication in GF(256) by x: field polynomial 0x11D. -/
def gfX (a : Nat) : Nat := if 128 ≤ a then (a * 2) ^^^ 0x11D else a * 2

/-- Multiplication in GF(256). -/
def gfMul (a b : Nat) : Nat :=
  ((List.range 8).foldl (fun (s : Nat × Nat) i => (if b.testBit i then s.1 ^^^ s.2 else s.1, gfX s.2)) (0, a)).1

/-- α to a power. -/
def gfPow : Nat → Nat
  | 0 => 1
  | n + 1 => gfX (gfPow n)

/-- The inverse in GF(256): the 254th power. -/
def gfInv (a : Nat) : Nat :=
  (List.range 7).foldl (fun (s : Nat × Nat) _ => let q := gfMul s.2 s.2; (gfMul s.1 q, q)) (1, a) |>.1

/-- Symbol `p` of an error pattern. -/
def eccSym (e p : Nat) : Nat := e / 2 ^ (8 * p) % 256

/-- Syndrome `i` of an error pattern of 15 symbols. -/
def eccSyn (e i : Nat) : Nat := (List.range 15).foldl (fun s p => s ^^^ gfMul (eccSym e p) (gfPow (i * p))) 0

/-- What decoding finds: a good word, errors to correct, a wrong address, or no solution. -/
inductive EccOut where
  | good
  | corrected (errs : List (Nat × Nat))
  | address
  | bad
deriving DecidableEq, Repr

/-- The outcome for error positions found. -/
def eccFound (errs : List (Nat × Nat)) : EccOut :=
  if errs.any (fun e => decide (12 ≤ e.1)) then .address else .corrected errs

/-- The one error that has the four syndromes, if there is one. -/
def eccOne (s0 s1 s2 s3 : Nat) : Option (Nat × Nat) :=
  if s0 = 0 then none
  else ((List.range 15).find? (fun p =>
    let a := gfPow p
    s1 == gfMul s0 a && s2 == gfMul s1 a && s3 == gfMul s2 a)).map (fun p => (p, s0))

/-- The value at position `q` of two errors at `p` and `q`, by the first two syndromes. -/
def eccSecond (s0 s1 p q : Nat) : Nat := gfMul (s1 ^^^ gfMul s0 (gfPow p)) (gfInv (gfPow p ^^^ gfPow q))

/-- The two errors that have the four syndromes, if there are such. -/
def eccTwo (s0 s1 s2 s3 : Nat) : Option (List (Nat × Nat)) :=
  let pairs := (List.range 15).flatMap (fun p => ((List.range 15).filter (fun q => decide (p < q))).map (fun q => (p, q)))
  let fits := fun (pq : Nat × Nat) =>
    let y := eccSecond s0 s1 pq.1 pq.2
    let x := s0 ^^^ y
    x != 0 && y != 0 &&
    s2 == gfMul x (gfPow (2 * pq.1)) ^^^ gfMul y (gfPow (2 * pq.2)) &&
    s3 == gfMul x (gfPow (3 * pq.1)) ^^^ gfMul y (gfPow (3 * pq.2))
  (pairs.find? fits).map (fun pq =>
    let y := eccSecond s0 s1 pq.1 pq.2
    [(pq.1, s0 ^^^ y), (pq.2, y)])

/-- Decoding of a received word (R437). The code is linear, so the outcome rests on the error pattern alone. -/
def eccDecode (e : Nat) : EccOut :=
  if e = 0 then .good else
  let s0 := eccSyn e 0
  let s1 := eccSyn e 1
  let s2 := eccSyn e 2
  let s3 := eccSyn e 3
  if s0 = 0 ∧ s1 = 0 ∧ s2 = 0 ∧ s3 = 0 then .good
  else
    match eccOne s0 s1 s2 s3 with
    | some x => eccFound [x]
    | none =>
      match eccTwo s0 s1 s2 s3 with
      | some xs => eccFound xs
      | none => .bad

/-- The check bytes of a word: the remainder of the message divided by g(x) (R436), C0 first. -/
def eccCheck (data : List Nat) (index arr : Nat) : List Nat :=
  let msg := [arr, index / 256 % 256, index % 256] ++ data.reverse
  msg.foldl (fun (cs : List Nat) s =>
    let f := s ^^^ (cs[3]?).getD 0
    let at_ := fun i => (cs[i]?).getD 0
    [gfMul f 0x40, at_ 0 ^^^ gfMul f 0x78, at_ 1 ^^^ gfMul f 0x36, at_ 2 ^^^ gfMul f 0x0F]) [0, 0, 0, 0]

/-! ### Words -/

/-- Words of an array, 0 for an absent one (R434). DESIGN CHOICE, unsafe (log 58). -/
def arrayWords (p : Part) (arr : Nat) : Nat :=
  if arr < 8 then 2048 else if arr < 16 then 1024 else if arr = 0x10 then 8192
  else if arr = 0x11 ∨ arr = 0x12 ∨ arr = 0x13 then 512 else if arr = 0x14 then 256
  else if arr = 0x15 then (if isFull p then 512 else 0) else if arr = 0x16 then (if isFull p then 8192 else 0)
  else if arr = 0x17 then 256 else if 0x20 ≤ arr ∧ arr < 0x24 then 16384 else 0

/-- Words in a row of an array. -/
def rowWords (arr : Nat) : Nat := if 0x20 ≤ arr then 32 else 16

/-- The data bytes of a word as written. -/
def Chip.wordData (m : Chip) (arr w : Nat) : List Nat := (List.range 8).map (fun k => m.memByte arr (8 * w + k))

/-- The data bytes that a decoded error pattern delivers. -/
def eccDeliver (data : List Nat) (e : Nat) (errs : List (Nat × Nat)) : List Nat :=
  let fix := fun p => errs.foldl (fun v x => if x.1 = p then v ^^^ x.2 else v) 0
  (List.range 8).map (fun k => (data[k]?).getD 0 ^^^ eccSym e (4 + k) ^^^ fix (4 + k))

/-- The log entry of a word, if it has one. -/
def Chip.logOf (m : Chip) (arr w : Nat) : Option Nat :=
  (List.range 16).find? (fun k => m.has 0x26 ECC_LOG_HITS k && m.get 0x26 ECC_LOG_ARRAY k == arr
    && m.get 0x26 ECC_LOG_WORD k == w)

/-- A corrected word in the log (R439). -/
def Chip.eccLog (m : Chip) (arr w two : Nat) : Chip :=
  match m.logOf arr w with
  | some k =>
    let m := m.count 0x26 ECC_LOG_HITS k
    if two = 1 then m.put 0x26 ECC_LOG_SYM2 1 k else m
  | none =>
    match (List.range 16).find? (fun k => !m.has 0x26 ECC_LOG_HITS k) with
    | some k =>
      let m := ((m.wr (ECC_LOG_HITS.addr 0x26 k) 0).put 0x26 ECC_LOG_ARRAY arr k).put 0x26 ECC_LOG_WORD w k
      let m := ((m.put 0x26 ECC_LOG_SYM2 two k).put 0x26 ECC_LOG_HITS 1 k).put 0x26 ECC_LOGCYC_CYCLE m.tim.cycle k
      let m := m.put 0x26 ECC_LOGSTAT_USED (m.get 0x26 ECC_LOGSTAT_USED + 1)
      ((m.emit 0x8020 [arr, w, 1 + two]).irq 0x26 4).raise 107
    | none =>
      let m := m.count 0x26 ECC_LOGSTAT_LOGOVF
      if m.ecc.fullTold then m else ({ m with ecc := { m.ecc with fullTold := true } }).irq 0x26 7

/-- A corrected read (R438). -/
def Chip.eccCorrected (m : Chip) (arr w n : Nat) : Chip :=
  let m := m.count 0x26 ECC_CECNT_COUNT
  let m := if n = 1 then m.count 0x26 ECC_CESYM_ONE else m.count 0x26 ECC_CESYM_TWO
  m.eccLog arr w (n - 1)

/-- A meter channel. -/
def Chip.metCh (m : Chip) (c : Nat) : MetCh := (m.met.chans[c]?).getD {}

/-- Replace a meter channel. -/
def Chip.setMet (m : Chip) (c : Nat) (x : MetCh) : Chip := { m with met := { m.met with chans := setAt m.met.chans c x } }

/-- An uncorrectable error in a channel's accumulator words clears them, and counting continues from 0 (R125). DESIGN
CHOICE, unsafe (log 58). -/
def Chip.metBad (m : Chip) (c : Nat) : Chip :=
  if !metPresent m.die.part c then m
  else
    let m := m.unitWrite 0x12 (fun k => decide (k < 100) && k / 4 == c)
    ((m.setMet c { m.metCh c with acc := [0, 0, 0, 0], bad := true }).irq 4 7).emit 0x1016 [c]

/-- An accumulator of a list becomes 0. -/
def accZero (acc : List (List Nat)) (c k : Nat) : List (List Nat) := setAt acc c (setAt ((acc[c]?).getD []) k 0)

/-- Words 2k and 2k + 1 of a queue of messages, counted over all of them, become 0. -/
def rxZero : List PdRx → Nat → List PdRx
  | [], _ => []
  | x :: t, k =>
    if 2 * k < x.words.length then { x with words := setAt (setAt x.words (2 * k) 0) (2 * k + 1) 0 } :: t
    else x :: rxZero t (k - (x.words.length + 1) / 2)

/-- The values of channels 4q to 4q + 3 of a point become 0. -/
def pointZero (l : List (List Nat)) (i q : Nat) : List (List Nat) :=
  setAt l i ((List.range 4).foldl (fun v c => setAt v (4 * q + c) 0) ((l[i]?).getD []))

/-- The datum at a place of a unit's array is 0 from now on: what the unit receives of a word that does not read
(R440), and what a cleared word holds (R441). The places: 0x11 slot and word of the write buffer; 0x12 four
accumulators a channel, live and then of each bank; 0x13 the 192 registers of each loop from 0x100 in pairs; 0x14 an
entry's halves, four entries a queue; 0x15 pairs of message words of a port; 0x16 half, point and four channels; 0x17
two words a context. DESIGN CHOICE, unsafe (log 58). -/
def Chip.unitZero (m : Chip) (arr k : Nat) : Chip :=
  if arr = 0x11 then
    { m with nv := { m.nv with slots := (m.nv.slots.zip (List.range 16)).map (fun (s : Option NvSlot × Nat) =>
        if s.2 = k / 32 then s.1.map (fun x => { x with bytes := x.bytes.map (fun b => if b.1 / 8 = k % 32 then (b.1, 0) else b) })
        else s.1) } }
  else if arr = 0x12 then
    if k < 100 then m.setMet (k / 4) { m.metCh (k / 4) with acc := setAt (m.metCh (k / 4)).acc (k % 4) 0 }
    else if k < 200 then
      { m with met := { m.met with bankA := { m.met.bankA with acc := accZero m.met.bankA.acc ((k - 100) / 4) (k % 4) } } }
    else if k < 300 then
      { m with met := { m.met with bankB := { m.met.bankB with acc := accZero m.met.bankB.acc ((k - 200) / 4) (k % 4) } } }
    else m
  else if arr = 0x13 then
    if k < 384 then
      let a := (0x06 + k / 96) * 0x400 + 0x100 + 8 * (k % 96)
      (m.wr a 0).wr (a + 4) 0
    else m
  else if arr = 0x14 then
    let src := k / 8
    let zero := fun (e : DepEntry) =>
      if e.place ≠ k / 2 % 4 then e
      else if k % 2 = 0 then { e with tag := 0, src := 0, stamp := ⟨0, 0, 0⟩ } else { e with value := 0 }
    { m with dep := { m.dep with queues := setAt m.dep.queues src ((m.dep.queue src).map zero) } }
  else if arr = 0x15 then
    let p := (m.prt[k / 64]?).getD {}
    { m with prt := setAt m.prt (k / 64) { p with rx := rxZero p.rx (k % 64) } }
  else if arr = 0x16 then
    if k / 4096 = m.bbx.half then
      let back := (m.bbx.taken + 1023 - k / 4 % 1024) % 1024
      { m with bbx := { m.bbx with ring := pointZero m.bbx.ring back (k % 4) } }
    else { m with bbx := { m.bbx with frozen := pointZero m.bbx.frozen (k / 4 % 1024) (k % 4) } }
  else if arr = 0x17 then (if k < 256 then { m with ctxs := setAt m.ctxs (k / 2) {} } else m)
  else m

/-- A word of a unit's array does not read: the unit receives 0 (R440), and the Meter clears the channel (R125).
DESIGN CHOICE, unsafe (log 58). -/
def Chip.unitLost (m : Chip) (arr w : Nat) : Chip :=
  if arr < 0x11 ∨ 0x17 < arr then m
  else
    let k := Config.ramWord arr w
    if arr = 0x12 ∧ k < 100 then m.metBad (k / 4) else m.unitZero arr k

/-- An uncorrectable read or an address fault (R440); requester 0xF is the scrubber or a unit. DESIGN CHOICE, unsafe
(log 58). -/
def Chip.eccFailed (m : Chip) (arr w req : Nat) (af : Bool) : Chip :=
  let m := if af then m.count 0x26 ECC_UECNT_AFCNT else m.count 0x26 ECC_UECNT_UECNT
  let m := { m with ecc := { m.ecc with ueAt := some m.tim.tick } }
  let m := ((m.putB 0x26 ECC_UEADDR_AF af).put 0x26 ECC_UEADDR_REQ req).put 0x26 ECC_UEADDR_ARRAY arr
  let m := (m.put 0x26 ECC_UEADDR_WORD w).put 0x26 ECC_UECYC_CYCLE m.tim.cycle
  let m := (m.put 0x26 ECC_UEANG_ANGLE m.tim.angle).put 0x26 ECC_UEANG_FLAGS m.flags
  (((m.emit (if af then 0x8022 else 0x8021) [arr, w, req]).irq 0x26 (if af then 6 else 5)).raise 108).unitLost arr w

/-- A read of a word with an error pattern of 15 symbols: its bytes, or none, and whether it was corrected. -/
structure WordRead where
  data : Option (List Nat)
  corrected : Bool
  chip : Chip

/-- A read of a storage word by a requester (R437–R440); `extra` upsets symbols for this read alone. DESIGN CHOICE,
unsafe (log 10); DESIGN CHOICE, unsafe (log 58). -/
def Chip.wordReadWith (m : Chip) (req arr w extra : Nat) : WordRead :=
  let e := m.upsets arr w ^^^ extra
  match eccDecode e with
  | .good => ⟨some (eccDeliver (m.wordData arr w) e []), false, m⟩
  | .corrected errs => ⟨some (eccDeliver (m.wordData arr w) e errs), true, m.eccCorrected arr w errs.length⟩
  | .address => ⟨none, false, m.eccFailed arr w req true⟩
  | .bad => ⟨none, false, m.eccFailed arr w req false⟩

/-- A read of a storage word. -/
def Chip.wordRead (m : Chip) (req arr w : Nat) : WordRead := m.wordReadWith req arr w 0

/-- A unit reads its array at the places a condition names: each word there passes the decoder (R437, R438, R440).
DESIGN CHOICE, unsafe (log 58). -/
def Chip.unitRead (m : Chip) (arr : Nat) (at_ : Nat → Bool) : Chip :=
  (m.unitWords arr at_).foldl (fun m w => (m.wordRead 15 arr w).chip) m

/-- Does a word at such a place not read? -/
def Chip.unitBad (m : Chip) (arr : Nat) (at_ : Nat → Bool) : Bool :=
  (m.unitWords arr at_).any (fun w => match eccDecode (m.upsets arr w) with
    | .good => false
    | .corrected _ => false
    | _ => true)

/-- A write into a unit's array narrower than a word: the word is read first, and one that does not read refuses the
write (R441). DESIGN CHOICE, unsafe (log 58). -/
def Chip.unitPut (m : Chip) (arr : Nat) (at_ : Nat → Bool) (f : Chip → Chip) : Chip :=
  let m := m.unitRead arr at_
  if m.unitBad arr at_ then m else f (m.unitWrite arr at_)

/-- A write of all 8 bytes of a word (R441). -/
def Chip.wordWrite (m : Chip) (arr w : Nat) (data : List Nat) : Chip :=
  (m.memPuts arr (8 * w) (data.take 8)).setUpsets arr w 0

/-- A narrow write: bytes from an offset within a word. The word is read, merged and written; none where the read fails
(R441). -/
def Chip.narrowWrite (m : Chip) (req arr off : Nat) (bytes : List Nat) : Option Chip × Chip :=
  let w := off / 8
  let r := m.wordRead req arr w
  match r.data with
  | some d =>
    let k := off % 8
    (some (r.chip.wordWrite arr w (d.take k ++ bytes ++ d.drop (k + bytes.length))), r.chip)
  | none => (none, r.chip)

/-- Four bytes as a word, first byte lowest (R537). -/
def le32 (bs : List Nat) : Nat :=
  (bs[0]?).getD 0 + (bs[1]?).getD 0 * 2 ^ 8 + (bs[2]?).getD 0 * 2 ^ 16 + (bs[3]?).getD 0 * 2 ^ 24

/-- The low `n` bytes of a number, first byte lowest. -/
def bytesOf : Nat → Nat → List Nat
  | 0, _ => []
  | n + 1, v => v % 256 :: bytesOf n (v / 256)

/-- A read of a 32-bit half of a word: its value, or none (R440). -/
def Chip.read32 (m : Chip) (req arr off : Nat) : Option Nat × Chip :=
  let r := m.wordRead req arr (off / 8)
  (r.data.map (fun d => le32 (d.drop (off % 8))), r.chip)

/-- A write of a 32-bit half of a word: whether it was written. -/
def Chip.write32 (m : Chip) (req arr off v : Nat) : Bool × Chip :=
  match m.narrowWrite req arr off (bytesOf 4 v) with
  | (some m, _) => (true, m)
  | (none, m) => (false, m)

end Sys2Proof.Machine
end

