-- ==== Sys2Proof/Machine/Contexts.lean ====
section
/-! DEFINITION. The PMBus host ports and the device contexts (R63–R71), with the slots Share gives to rectifiers
(R201). -/

namespace Sys2Proof.Machine

/-- Does the controller drive the shared outputs: is its role master or solo (R25, R484)? -/
def Chip.leads (m : Chip) : Bool := m.has 0x35 PAIR_STAT_ROLE

/-- Set a policy event bit of a port; the port's event line follows PEVT AND PEVTEN (R296). -/
def Chip.pevt (m : Chip) (n b : Nat) : Chip :=
  let pg := 0x10 + n
  let was := m.get pg PD_PEVT_EV &&& m.get pg PD_PEVTEN_EV
  let m := m.maskSet pg PD_PEVT_EV b
  let now := m.get pg PD_PEVT_EV &&& m.get pg PD_PEVTEN_EV
  if was = 0 ∧ now ≠ 0 then m.raise (80 + n) else m

/-- A context. -/
def Chip.ctx (m : Chip) (c : Nat) : Ctx := (m.ctxs[c]?).getD {}

/-- Replace a context. -/
def Chip.setCtx (m : Chip) (c : Nat) (x : Ctx) : Chip :=
  { m with ctxs := setAt m.ctxs c x }.unitWrite 0x17 (fun k => k / 2 == c)

/-- The words of a context are read (R438). -/
def Chip.ctxFetch (m : Chip) (c : Nat) : Chip := m.unitRead 0x17 (fun k => k / 2 == c)

/-- A PMBus port. -/
def Chip.pm (m : Chip) (p : Nat) : PmPort := (m.ports[p]?).getD {}

/-- Replace a PMBus port. -/
def Chip.setPm (m : Chip) (p : Nat) (x : PmPort) : Chip := { m with ports := setAt m.ports p x }

/-- Is mains lost: does the Timetable run without it (R23, R220)? DEDUCED, unsafe (log 114). -/
def Chip.mainsLost (m : Chip) : Bool := m.get 2 TTB_STAT_STATE == 3 || m.get 2 TTB_STAT_STATE == 4

/-- The writes in the trim slot that may go out: Share's trims wait while mains is lost (R23). -/
def PmPort.ready (x : PmPort) (lost : Bool) : List PmTx := x.trims.filter (fun t => !(lost && t.cmd == 0x22))

/-- The next pending transaction goes on the bus when none is there, in the order of R64 after the alerts: Share trims,
polls, raw transactions. A transaction of the hardware uses PEC as `PMBn.CFG.PEC` says (R63), a raw one as its argument
says (R67). -/
def PmPort.pick (x : PmPort) (pec lost : Bool) : PmPort :=
  match x.cur with
  | some _ => x
  | none =>
    match x.ready lost, x.polls, x.raws with
    | t :: _, _, _ => { x with cur := some { t with pec := pec }, retried := false, trims := x.trims.erase t }
    | [], t :: ts, _ => { x with cur := some { t with pec := pec }, retried := false, polls := ts }
    | [], [], t :: ts => { x with cur := some t, retried := false, raws := ts }
    | [], [], [] => x

/-- Context of a port at a 7-bit address (R66). -/
def Chip.ctxAt (m : Chip) (p addr : Nat) : Option Nat :=
  (List.range 128).find? (fun c => decide ((m.ctx c).state ≠ 0) && (m.ctx c).bus == p + 1 && (m.ctx c).addr == addr)

/-- The alerts that wait, in turn (R66): the Alert Response Address has given an address. STATUS_WORD of its context is
read next; an address with no context writes code 0xA013 and the port goes on. With the service disabled, or the alert
served in this waypoint, nothing is done. -/
def Chip.pmAlerts (m : Chip) (p : Nat) : List Nat → Chip
  | [] => m.setPm p { m.pm p with alerts := [] }
  | a :: rest =>
    let x := m.pm p
    if !m.has (0x32 + p) PMB_CFG_ALERTEN || x.served.contains a then m.pmAlerts p rest
    else
      let y := { x with served := x.served ++ [a], alertLow := !rest.isEmpty }
      match m.ctxAt p a with
      | some c => m.setPm p { y with
          cur := some { ctx := c, cmd := 0x79, read := true, kind := 1, pec := m.has (0x32 + p) PMB_CFG_PEC },
          retried := false, alerts := rest }
      | none => ((m.setPm p y).emit 0xA013 [p, a]).pmAlerts p rest

/-- The port takes what is next when it is between transactions, in the order of R64: Share trims, SMBALERT# service,
polls, raw transactions. -/
def Chip.pmPick (m : Chip) (p : Nat) : Chip :=
  let x := m.pm p
  let m := if x.cur.isNone && (x.ready m.mainsLost).isEmpty && !x.alerts.isEmpty then m.pmAlerts p x.alerts else m
  m.setPm p ((m.pm p).pick (m.has (0x32 + p) PMB_CFG_PEC) m.mainsLost)

/-- Context in a slot, 0 for an empty slot. -/
def Chip.slotCtx (m : Chip) (n : Nat) : Nat := m.get 0x1D SHR_SLOT_CTX n

/-- Slot of a context. -/
def Chip.slotOf (m : Chip) (c : Nat) : Option Nat :=
  if c = 0 then none else (List.range 24).find? (fun n => m.slotCtx n == c)

/-- Queue a transaction on the port of a context; a standby initiates none (R68). What the hardware sends beside
trims, alerts and polls — context-start reads, CLEAR_FAULTS and Cap's derates — waits in the polls' place, since the
order of R64 does not name it. Writes in the trim slot stand in ascending slot number (R205). DESIGN CHOICE, unsafe
(log 100). -/
def Chip.pmQueue (m : Chip) (p : Nat) (t : PmTx) : Chip :=
  if m.leads then
    let x := m.pm p
    (m.setPm p (if t.kind = 0 then { x with trims := sortBy (fun u => (m.slotOf u.ctx).getD 24) (x.trims ++ [t]) }
      else if t.kind = 3 then { x with raws := x.raws ++ [t] }
      else { x with polls := x.polls ++ [t] })).pmPick p
  else m

/-- Queue a write to a context on BUS 1 or 2. -/
def Chip.pmWrite (m : Chip) (c cmd : Nat) (data : Int) (kind : Nat) : Chip :=
  let x := m.ctx c
  if x.bus = 1 ∨ x.bus = 2 then m.pmQueue (x.bus - 1) { ctx := c, cmd := cmd, read := false, data := data, kind := kind }
  else m

/-- Queue a read of a context on BUS 1 or 2. -/
def Chip.pmRead (m : Chip) (c cmd : Nat) : Chip :=
  let x := m.ctx c
  if x.bus = 1 ∨ x.bus = 2 then m.pmQueue (x.bus - 1) { ctx := c, cmd := cmd, read := true, kind := 5 } else m

/-- Commands of one poll of a context, by POLLSET (R65, R68): STATUS_WORD, then the telemetry enabled. -/
def pollCmds (set : Nat) : List Nat :=
  [0x79] ++ (if bit set 0 then [0x88, 0x89] else []) ++ (if bit set 1 then [0x8B, 0x8C] else [])
    ++ (if bit set 2 then [0x8D] else []) ++ (if bit set 3 then [0x96, 0x97] else [])

/-- Contexts of a port that a round polls, in ascending number: state CONFIGURED, ONLINE, FAULT or LOST (R65). -/
def Chip.pollCtxs (m : Chip) (p : Nat) : List Nat :=
  (List.range 128).filter (fun c => decide (0 < c) && (m.ctx c).bus == p + 1 && decide ((m.ctx c).state ≠ 0))

/-- The transactions of one poll round. -/
def Chip.roundTxs (m : Chip) (p : Nat) : List PmTx :=
  (m.pollCtxs p).flatMap (fun c =>
    (pollCmds (m.get (0x32 + p) PMB_CFG_POLLSET)).map (fun cmd => { ctx := c, cmd := cmd, read := true }))

/-- Does a poll round still run on the port? -/
def PmPort.polling (x : PmPort) : Bool := x.polls.any (fun t => t.kind == 2) || x.cur.any (fun t => t.kind == 2)

/-- A poll round starts behind what waits in the polls' place. -/
def Chip.roundStart (m : Chip) (p : Nat) : Chip :=
  let m := m.unitRead 0x17 (fun k => decide (0 < k / 2) && (m.ctx (k / 2)).bus == p + 1)
  let x := m.pm p
  (m.setPm p { x with roundDue := false, polls := x.polls ++ m.roundTxs p }).pmPick p

/-- A poll round falls due once POLLDIV waypoints have passed: it starts, or waits for the round before it (R65). -/
def Chip.pollRound (m : Chip) (p : Nat) : Chip :=
  let div := m.get (0x32 + p) PMB_CFG_POLLDIV
  let x := m.pm p
  if !m.leads || div == 0 || decide (x.pollWp < div) then m
  else
    let m := m.setPm p { x with pollWp := x.pollWp % div }
    if x.polling then m.setPm p { m.pm p with roundDue := true } else m.roundStart p

/-- A waypoint passes on the ports: the waypoints of POLLDIV are counted (R65), each alert may be served again (R66),
and what waits is served (R64). -/
def Chip.pmWaypoint (m : Chip) : Chip :=
  [0, 1].foldl (fun m p =>
    let x := m.pm p
    (m.setPm p { x with served := [], pollWp := Nat.min 255 (x.pollWp + 1) }).pmPick p) m

/-- Little-endian number of the bytes of a response. -/
def bytesLE : List Byte → Nat
  | [] => 0
  | b :: t => b.toNat + 256 * bytesLE t

/-! ### Slots of Share (R201) -/

/-- A slot of Share outside its register. -/
def Chip.shrSlot (m : Chip) (n : Nat) : ShareSlot := (m.shrSlots[n]?).getD {}

/-- Replace a slot of Share. -/
def Chip.setShr (m : Chip) (n : Nat) (x : ShareSlot) : Chip := { m with shrSlots := setAt m.shrSlots n x }

/-- A slot whose context gave a VOUT_MODE that is not linear: MODEERR, and code 0x1031 once (R201). -/
def Chip.modeCheck (m : Chip) (c : Nat) : Chip :=
  match m.slotOf c, (m.ctx c).voutMode with
  | some n, some v =>
    if v / 32 = 0 then m
    else
      let m := m.put 0x1D SHR_SLOT_MODEERR 1 n
      if (m.shrSlot n).modeTold then m
      else (m.setShr n { m.shrSlot n with modeTold := true }).emit 0x1031 [c, v]
  | _, _ => m

/-- A CLASS 1 context on BUS 1 or 2 becomes CONFIGURED: it takes the first empty slot, or code 0x1032 (R201). -/
def Chip.slotAssign (m : Chip) (c : Nat) : Chip :=
  let x := m.ctx c
  if x.cls = 1 ∧ (x.bus = 1 ∨ x.bus = 2) ∧ m.slotOf c = none then
    match (List.range 24).find? (fun n => m.slotCtx n == 0) with
    | some n => ((m.wr (SHR_SLOT_CTX.addr 0x1D n) (BitVec.ofNat 32 (c <<< 16))).setShr n {}).modeCheck c
    | none => m.emit 0x1032 [c]
  else m

/-- A freed context releases its slot (R201). -/
def Chip.slotRelease (m : Chip) (c : Nat) : Chip :=
  match m.slotOf c with
  | some n => (m.wr (SHR_SLOT_CTX.addr 0x1D n) 0).setShr n {}
  | none => m

/-! ### Context states (R70) -/

/-- A context becomes CONFIGURED (R70); hardware reads its data format and identity at context start (R63). -/
def Chip.ctxAlloc (m : Chip) (c bus addr cls : Nat) : Chip :=
  let m := m.setCtx c { state := 1, bus := bus, addr := addr, cls := cls }
  let m := m.slotAssign c
  ((m.pmRead c 0x20).pmRead c 0x98).pmRead c 0x99

/-- Share's slot follows a rewritten ENTRY0: a context that is no longer CLASS 1 on BUS 1 or 2 gives its slot up, one
that now is takes one (R201). -/
def Chip.slotFollow (m : Chip) (c : Nat) : Chip :=
  let x := m.ctx c
  if x.cls = 1 ∧ (x.bus = 1 ∨ x.bus = 2) then m.slotAssign c else m.slotRelease c

/-- The transactions of a context that is freed: what waits is dropped, and the result of one on the bus goes to no
context (R71). -/
def PmPort.forget (x : PmPort) (c : Nat) : PmPort :=
  { x with cur := x.cur.map (fun t => if t.ctx = c then { t with ctx := 0 } else t),
           trims := x.trims.filter (fun t => t.ctx != c), polls := x.polls.filter (fun t => t.ctx != c) }

/-- A context becomes FREE: all its fields 0 but CAPSHARE (R70). -/
def Chip.ctxFree (m : Chip) (c : Nat) : Chip :=
  let m := { m with ports := m.ports.map (fun (x : PmPort) => x.forget c) }
  (m.slotRelease c).setCtx c {}

/-- Pages BAT0–BAT3 whose PMSCTX names a context. -/
def Chip.batPages (m : Chip) (c : Nat) : List Nat :=
  if nStrings m.die.part = 0 ∨ c = 0 then []
  else (List.range 4).filter (fun b => m.get (0x19 + b) BAT_CFG_PMSCTX == c)

/-- The third consecutive miss makes a context LOST (R70); a port context tells its port (R290), a pack context its
battery page (R325). -/
def Chip.ctxLost (m : Chip) (c : Nat) : Chip :=
  let x := m.ctx c
  let m := m.setCtx c { x with state := 4 }
  let m := (m.emit 0xA010 [c, x.bus, x.addr]).raise 96
  let m := if x.bus = 3 then m.pevt x.addr 12 else m
  (m.batPages c).foldl (fun m b => m.emit 0x500D [b, c]) m

/-- One miss of a context (R65, R70). -/
def Chip.ctxMiss (m : Chip) (c : Nat) : Chip :=
  let x := m.ctx c
  if x.state = 0 then m
  else
    let n := if x.miss < 15 then x.miss + 1 else 15
    let m := m.setCtx c { x with miss := n }
    if n = 3 ∧ (x.state = 1 ∨ x.state = 2 ∨ x.state = 3) then m.ctxLost c else m

/-- A rectifier becomes ONLINE while Hold-up is in CARRY: it is written the low command first (R223, R225). -/
def Chip.rampNewcomer (m : Chip) (c : Nat) : Chip :=
  if m.get 0x1F HLD_STAT_STATE = 3 ∧ (m.slotOf c).isSome ∧ m.has 0x1D SHR_VNOM_VNOM then
    let p := (m.ctx c).bus - 1
    let x := m.pm p
    if m.leads then
      (m.setPm p { x with trims := { ctx := c, cmd := 0x21, read := false,
                                     data := if m.get 0x1F HLD_STAT_CAUSE = 3 then m.get 0x1D SHR_VNOM_VNOM - m.hld.testDv
                                            else m.get 0x1F HLD_RAMP_RAMPLO, kind := 0 } :: x.trims }).pmPick p
    else m
  else m

/-- Good telemetry of a context (R70): its stamp is recorded, its misses end, and its state follows HEALTH AND MASK. -/
def Chip.ctxGood (m : Chip) (c : Nat) : Chip :=
  let x := m.ctx c
  if x.state = 0 then m
  else
    let bad := decide (x.health &&& m.get 0x34 CTX_FLTMASK_MASK ≠ 0)
    let y := { x with miss := 0, stamp := m.stamp }
    if bad then
      let m := m.setCtx c { y with state := 3 }
      if x.state = 3 then m else m.emit 0xA011 [c, x.health]
    else
      let m := m.setCtx c { y with state := 2 }
      let m := if x.state = 3 then m.pmWrite c 0x03 0 5 else m
      if x.state = 2 then m else m.rampNewcomer c

/-- LINEAR11 of PMBus in 1/16 of its unit: an 11-bit mantissa and a 5-bit exponent. PRESUMED, unsafe (log 42). -/
def lin11 (w : Nat) : Int :=
  let e := sx 5 (w / 2048) + 4
  let k := sx 11 w
  if 0 ≤ e then k * 2 ^ e.toNat else divFloor k (2 ^ (-e).toNat)

/-- A current in 1/16 A as a LINEAR11 word with the exponent of a word kept (R215). PRESUMED, unsafe (log 42). -/
def linLike (word : Nat) (i : Int) : Nat :=
  let e := sx 5 (word / 2048) + 4
  let k := if 0 ≤ e then divNear i (2 ^ e.toNat) else i * 2 ^ (-e).toNat
  word / 2048 % 32 * 2048 + ux 11 (clampI (-1024) 1023 k)

/-- The cassette's own IOUT_OC_WARN_LIMIT has been read at its first derate: it is kept, and a limit that waits is
written in its format (R215). -/
def Chip.ocRead (m : Chip) (c v : Nat) : Chip :=
  let x := m.ctx c
  if x.derateAt.isNone || x.ocKept.isSome then m
  else
    let m := m.setCtx c { x with ocKept := some (v % 0x10000), ocWant := none }
    match x.ocWant with
    | some i => m.pmWrite c 0x4A (linLike v i) 2
    | none => m

/-- A response to a command: kept with the waypoint it came at; STATUS_WORD is HEALTH, VOUT_MODE the data format,
READ_TEMPERATURE_1 of a pack context, LINEAR11 in °C, fills PACKT in 1/16 °C (R300). Only a poll or an alert read is
good telemetry (R70). -/
def Chip.ctxResponse (m : Chip) (c cmd : Nat) (data : List Byte) (poll : Bool) : Chip :=
  let v := bytesLE data
  let m := m.ctxFetch c
  let x := m.ctx c
  if x.state = 0 then m
  else
    let x := { x with tel := Sparse.put x.tel cmd v, telAt := Sparse.put x.telAt cmd m.tim.wpCount }
    let x := if cmd = 0x79 then { x with health := v % 0x10000, offSeen := x.offSeen || bit v 6 } else x
    let x := if cmd = 0x20 then { x with voutMode := some (v % 256) } else x
    let m := m.setCtx c x
    let m := if cmd = 0x8D then
        (m.batPages c).foldl (fun m b => m.put (0x19 + b) BAT_PACKT_T (ux 16 (satS 16 (lin11 v)))) m
      else m
    let m := if cmd = 0x4A then m.ocRead c v else m
    let m := if cmd = 0x20 then m.modeCheck c else m
    if poll then m.ctxGood c else m

/-- The commands of polls and of the alert service (R63). -/
def isPollCmd (cmd : Nat) : Bool := [0x79, 0x88, 0x89, 0x8B, 0x8C, 0x8D, 0x96, 0x97].contains cmd

/-- Data bytes of a raw transaction, by its size code (R67): a send byte has one only when read, as a receive byte.
DESIGN CHOICE, unsafe (log 125). -/
def rawLen (size : Nat) (read : Bool) : Nat :=
  if size = 0 then b2n read else if size = 1 then 1 else if size = 2 then 2 else 24

/-- Words of a raw read in bus order, from the most significant byte of PART0, with the bytes of `pad` after the last
byte read: PARTs that no byte reaches are not among them (R67). -/
def rawWords (pad : Word) : Nat → List Byte → List Word
  | _, [] => []
  | 0, _ => []
  | k + 1, bs =>
    let b := fun i => ((bs[i]?).getD (pad.extractLsb' (8 * (3 - i)) 8)).toNat
    BitVec.ofNat 32 (b 0 * 2 ^ 24 + b 1 * 2 ^ 16 + b 2 * 256 + b 3) :: rawWords pad k (bs.drop 4)

/-- The bytes a raw transaction writes: WDATA0–WDATA5 in bus order, from the most significant byte of WDATA0 (R67).
DEDUCED, unsafe (log 101); DESIGN CHOICE, unsafe (log 125). -/
def Chip.rawBytes (m : Chip) (p size : Nat) : List Nat :=
  ((List.range 24).map (fun i => m.get (0x32 + p) PMB_WDATA_DATA (i / 4) / 256 ^ (3 - i % 4) % 256)).take
    (rawLen size false)

/-- A write of Share or Hold-up reached the rectifier, or failed after its retry (R204, R223). -/
def Chip.trimWritten (m : Chip) (t : PmTx) (ok : Bool) : Chip :=
  let m := if t.ctx = 0 then m else m.setCtx t.ctx { m.ctx t.ctx with lastFailed := !ok }
  if t.cmd = 0x22 then
    match m.slotOf t.ctx with
    | some n =>
      let x := m.shrSlot n
      m.setShr n (if ok then { x with written := some t.data, rewrite := false, failed := false }
        else { x with rewrite := true, failed := true })
    | none => m
  else m

/-- What follows a transaction: a round that waits starts once the one before it is done, and the next transaction
goes on the bus. -/
def Chip.pmNext (m : Chip) (p : Nat) : Chip :=
  let y := m.pm p
  if y.roundDue ∧ !y.polling then m.roundStart p else m.pmPick p

/-- A raw transaction ends (R67, R37): with its data, or with the reason of its failure; one that was aborted on the
bus ends with reason 0x05. The bits of the last word that no byte reaches are free (log 3). DESIGN CHOICE, safe (log
3); DEDUCED, unsafe (log 25). -/
def Chip.rawEnd (m : Chip) (p : Nat) (t : PmTx) (e : BusEnd) : Chip :=
  let pg := 0x32 + p
  if (m.opOf pg).map (fun o => o.phase) = some 9 then m.endErr pg 0x05 (m.get pg HDR_STATUS_PROGRESS)
  else match e with
  | .good data =>
    if t.read then m.freeWord.2.endDone pg (rawWords m.freeWord.1 6 (data.take (rawLen t.size true))) else m.endDone pg []
  | .nack => m.endErr pg 0x10 0
  | .badPec => m.endErr pg 0x11 0
  | .timeout => m.endErr pg 0x12 0

/-- A transaction that the hardware issued is complete (R65). -/
def Chip.pmGood (m : Chip) (t : PmTx) (data : List Byte) : Chip :=
  if t.read then m.ctxResponse t.ctx t.cmd data (t.kind == 1 || t.kind == 2)
  else if t.kind = 0 then m.trimWritten t true else m

/-- Count a failure in ERRCNT (R68). -/
def PmPort.tally (x : PmPort) (e : BusEnd) : PmPort :=
  match e with
  | .good _ => x
  | .nack => { x with naks := x.naks + 1 }
  | .badPec => { x with pecs := x.pecs + 1 }
  | .timeout => { x with tmos := x.tmos + 1 }

/-- The transaction on a port ends (R65, R67). A hardware transaction that fails is retried once at once; its second
failure is one miss of its context. A controller that has become standby does not retry (R68). A freed context's
result is discarded and counts no miss. A PEC mismatch is an end only where PEC is checked (R63). -/
def Chip.pmEnd (m : Chip) (p : Nat) (e : BusEnd) : Chip :=
  let m := m.pmPick p
  match (m.pm p).cur with
  | none => m
  | some t =>
    if e = .badPec ∧ !t.pec then m
    else
      let x := ({ m.pm p with stuck := false }).tally e
      let closed := m.setPm p { x with cur := none, retried := false }
      if t.kind = 4 then closed.pmNext p
      else if t.kind = 3 then (closed.rawEnd p t e).pmNext p
      else
        match e with
        | .good data => (closed.pmGood t data).pmNext p
        | _ =>
          if !x.retried && m.leads then m.setPm p { x with retried := true }
          else if !x.retried then closed
          else
            let m := closed.ctxMiss t.ctx
            (if t.kind = 0 then m.trimWritten t false else m).pmNext p

/-- An abort of a raw transaction (R37): one that waits leaves the queue, one on the bus completes there first.
DEDUCED, unsafe (log 25). -/
def Chip.pmAbort (m : Chip) (p : Nat) : Chip :=
  let x := m.pm p
  let prog := m.get (0x32 + p) HDR_STATUS_PROGRESS
  if x.raws.isEmpty then
    match m.opOf (0x32 + p) with
    | some o => m.setOp { o with phase := 9 }
    | none => m
  else (m.setPm p { x with raws := [] }).endErr (0x32 + p) 0x05 prog

/-- The page's operation is taken off by a reset: a raw transaction that waits is dropped, one on the bus completes
there with no result (R34). -/
def Chip.pmDetach (m : Chip) (p : Nat) : Chip :=
  let x := m.pm p
  m.setPm p { x with raws := [], cur := x.cur.map (fun (t : PmTx) => if t.kind = 3 then { t with kind := 4 } else t) }

/-- ERRCNT returns to its reset value: no count stands (R34). -/
def Chip.pmClear (m : Chip) (p : Nat) : Chip := m.setPm p { m.pm p with naks := 0, pecs := 0, tmos := 0 }

/-- Start of a raw transaction on a PMBn page (R67, R68). -/
def Chip.pmRaw (m : Chip) (p : Nat) : Chip :=
  match m.opOf (0x32 + p) with
  | none => m
  | some o =>
    let size := bitsOf o.arg 16 2
    if o.cmd ≠ 1 then m.endErr (0x32 + p) 0x01 0
    else if !m.leads then m.endErr (0x32 + p) 0x13 0
    else m.pmQueue p { ctx := 0, cmd := o.arg / 256 % 256, read := bit o.arg 18, kind := 3, pec := bit o.arg 19,
                       addr := o.arg % 128, size := size, bytes := if bit o.arg 18 then [] else m.rawBytes p size }

/-- A requester's selected context (R69). -/
def Chip.ctxSel (m : Chip) (r : Nat) : Nat := (m.rd (reqKey r (CTX_SEL_CTX.addr 0x34))).toNat % 128

/-- A write of ENTRY0 by a requester (R69–R71). In CONFIGURED and LOST, where the rule gives no transition, BUS, ADDR
and CLASS take the value and STATE, MISS, HEALTH and the stamp stay; what waits for the device at the old address is
dropped, and Share's slot follows. DESIGN CHOICE, unsafe (log 102). -/
def Chip.entry0Write (m : Chip) (r v : Nat) : Chip :=
  let c := m.ctxSel r
  let x := m.ctx c
  let cls := v % 256
  let bus := v / 256 % 256
  if c = 0 then m
  else if x.bus = 3 ∨ (bus = 3 ∧ cls ≠ 0) then m.irq 0x34 4
  else if cls = 0 then m.ctxFree c
  else if x.state = 2 ∨ x.state = 3 then m.irq 0x34 4
  else if x.state = 0 then m.ctxAlloc c bus (v / 65536 % 128) cls
  else
    let addr := v / 65536 % 128
    let m := if bus = x.bus ∧ addr = x.addr then m
      else { m with ports := m.ports.map (fun (y : PmPort) => y.forget c) }
    (m.setCtx c { x with bus := bus, addr := addr, cls := cls }).slotFollow c

/-- The controller becomes standby: it initiates no transaction any more, and a raw transaction not on the bus ends
with reason 0x13 (R68). The transaction on the bus runs to its end, since R64 interrupts none. DESIGN CHOICE, unsafe
(log 103). -/
def Chip.pmRole (m : Chip) : Chip :=
  if m.leads then m
  else (List.range 2).foldl (fun m p =>
    let x := m.pm p
    let m := m.setPm p { x with trims := [], alerts := [], polls := [], raws := [], roundDue := false }
    if x.raws.isEmpty then m else m.endErr (0x32 + p) 0x13 0) m

/-! ### Commands -/

/-- PMBUS_POLL_ROUND (R65). -/
def execPmbusPollRound (port : Fin 2) (s : State) : Host.Outcome State Fault Refusal :=
  s.run (fun m => m.pollRound port.val)

/-- PMBUS_TRANSACTION_END (R65). -/
def execPmbusTransactionEnd (e : BusEnd) (port : Fin 2) (s : State) : Host.Outcome State Fault Refusal :=
  s.run (fun m => m.pmEnd port.val e)

/-- PMBUS_SDA_STUCK (R65): the port clocks SCL nine times and sends STOP, with code 0xA012; a standby never drives the
bus (R68). -/
def execPmbusSdaStuck (port : Fin 2) (s : State) : Host.Outcome State Fault Refusal :=
  s.run (fun m =>
    if m.leads then (m.setPm port.val { m.pm port.val with stuck := true }).emit 0xA012 [port.val] else m)

/-- SMBALERT_SERVICE (R66): SMBALERT# is low and the Alert Response Address gives `target`. The service waits while a
transaction or a Share trim is in progress or waits (R64); the read of STATUS_WORD is a transaction of its own, whose
end is a row. Where no device acknowledges the Alert Response Address, ERRCNT counts a NACK. DEDUCED, unsafe (log
121). -/
def execSmbalertService (port : Fin 2) (target : BitVec 7) (acked : Bool) (s : State) :
    Host.Outcome State Fault Refusal :=
  s.run (fun m =>
    let p := port.val
    let m := m.setPm p { m.pm p with alertLow := true }
    let x := m.pm p
    if !m.leads || !m.has (0x32 + p) PMB_CFG_ALERTEN then m
    else if !acked then (if x.cur.isNone && x.trims.isEmpty then m.setPm p (x.tally .nack) else m)
    else if x.served.contains target.toNat then m
    else (m.setPm p { x with alerts := addOnce x.alerts target.toNat }).pmPick p)

/-- PMBUS_SNOOP_RESPONSE (R68): a standby updates its own context from a read response with a correct PEC. -/
def execPmbusSnoopResponse (port : Fin 2) (ctx : Fin 128) (cmd : BitVec 8) (data : List Byte) (s : State) :
    Host.Outcome State Fault Refusal :=
  s.run (fun m =>
    if !m.leads && decide (ctx.val ≠ 0) && (m.ctx ctx.val).bus == port.val + 1 then
      m.ctxResponse ctx.val cmd.toNat data (isPollCmd cmd.toNat)
    else m)

/-- PMB_RAW_TRANSACTION (R67): OPARG takes `arg` and OPCMD 0x01 is written. -/
def execPmbRawTransaction (r : Requester) (port : Fin 2) (arg : Word) (s : State) : Host.Outcome State Fault Refusal :=
  s.run (fun m =>
    let pg := 0x32 + port.val
    (m.wr (pg * 0x400 + 0x24) arg).startOp pg 1 (reqCode r) (fun m => m.pmRaw port.val))

/-- CTX_ENTRY0_WRITE (R71). -/
def execCtxEntry0Write (r : Requester) (v : Word) (s : State) : Host.Outcome State Fault Refusal :=
  s.run (fun m => m.entry0Write (reqCode r) v.toNat)

end Sys2Proof.Machine
end

