-- ==== Sys2Proof/Machine/Depot.lean ====
section
/-! DEFINITION. Taking from the Depot and putting into it (R390–R396): the selected head, reservations, engines that wait
for a slot, and the flush. -/

namespace Sys2Proof.Machine

/-- Byte address of TAKE0. -/
def take0Addr : Nat := DEP_TAKE_W0.addr 0x30

/-- The first entry of a queue that is not reserved, with its place. -/
def visibleHead (q : List DepEntry) : Option (Nat × DepEntry) :=
  (q.zip (List.range q.length)).findSome? (fun e => if e.1.reserved.isNone then some (e.2, e.1) else none)

/-- Does one head come before another (R393)? -/
def headBefore (a b : DepEntry) : Bool :=
  if a.epoch ≠ b.epoch then decide (a.epoch < b.epoch) else stampBefore a.stamp.num b.stamp.num

/-- The head a requester's SEL selects: source, place, entry (R393, R394). -/
def Chip.depHead (m : Chip) (r : Nat) : Option (Nat × Nat × DepEntry) :=
  let sel := (m.rd (reqKey r (DEP_SEL_SRC.addr 0x30))).toNat
  let at_ := fun n => (visibleHead (m.dep.queue n)).map (fun h => (n, h.1, h.2))
  if bit sel 5 then (if sel % 32 < 24 then at_ (sel % 32) else none)
  else (List.range 24).foldl (fun best n => match best, at_ n with
    | none, h => h
    | some b, some h => if headBefore h.2.2 b.2.2 then some h else some b
    | some b, none => some b) none

/-- The engine that waits for a slot of a source puts its entry once a slot is free (R391, R392). -/
def Chip.depAdmit (m : Chip) (src : Nat) : Chip :=
  match m.dep.waiting.find? (fun e => e.src == src) with
  | some e =>
    if (m.dep.queue src).length < 4 then
      ({ m with dep := { m.dep with waiting := m.dep.waiting.erase e } }).depAppend e
    else m
  | none => m

/-- Remove the entry at a place of a queue. -/
def Chip.depRemove (m : Chip) (src at_ : Nat) : Chip :=
  ({ m with dep := { m.dep with queues := setAt m.dep.queues src ((m.dep.queue src).eraseIdx at_) } }).depAdmit src

/-- The removal that a requester's read reserved takes effect (R395). -/
def Chip.depTakeDone (m : Chip) (r : Nat) : Chip :=
  (List.range 24).foldl (fun m n =>
    match (m.dep.queue n).findIdx? (fun e => e.reserved == some r) with
    | some i => m.depRemove n i
    | none => m) m

/-- The words of an entry (R386). -/
def DepEntry.word (e : DepEntry) (k : Nat) : Nat :=
  if k = 0 then e.tag % 256 * 2 ^ 24 + e.src * 2 ^ 19 + e.stamp.flags % 8 * 2 ^ 16 + e.stamp.angle % 65536
  else if k = 1 then e.stamp.cycle % 2 ^ 32
  else if k = 2 then e.value % 2 ^ 32 else e.value / 2 ^ 32 % 2 ^ 32

/-- Words 1–3 of a take go into the requester's shadow (R394). -/
def Chip.depShadow (m : Chip) (r : Nat) (w : Nat → Nat) : Chip :=
  [1, 2, 3].foldl (fun m k => m.setShadow r (take0Addr + 4 * k) (BitVec.ofNat 32 (w k))) m

/-- A read of TAKE0 (R394, R395): over SPI the entry is reserved until the read's side effect, for any other requester
it is removed at once. -/
def Chip.depTake (m : Chip) (r : Nat) : Nat × Chip :=
  match m.depHead r with
  | none => (0x00F80000, m.depShadow r (fun _ => 0))
  | some (n, i, old) =>
    let m := m.unitRead 0x14 (fun k => k / 2 == 4 * n + old.place)
    let e := ((m.dep.queue n)[i]?).getD old
    let m := m.depShadow r e.word
    if r = 0 then
      let m := { m with dep := { m.dep with
        queues := setAt m.dep.queues n (setAt (m.dep.queue n) i { e with reserved := some 0, since := m.tim.tick }) } }
      (e.word 0, { m with host := { m.host with spiEffect := some { req := 0, addr := take0Addr, returned := e.word 0 } } })
    else (e.word 0, m.depRemove n i)

/-- Ticks of 5 ns in the 10 ms after which a reservation lapses (R395). -/
def lapseTicks : Nat := 2000000

/-- Has a requester's reservation of an entry stood for 10 ms (R395)? -/
def Chip.depStale (m : Chip) (r : Nat) (e : DepEntry) : Bool :=
  e.reserved == some r && decide (lapseTicks ≤ m.ticksSince e.since)

/-- A reservation that has not taken effect within 10 ms lapses (R395): the entry returns to its place. -/
def Chip.depLapse (m : Chip) (r : Nat) : Chip :=
  match (List.range 24).find? (fun n => (m.dep.queue n).any (m.depStale r)) with
  | none => m
  | some n =>
    let free := fun (e : DepEntry) => if e.reserved = some r then { e with reserved := none } else e
    let m := { m with dep := { m.dep with queues := setAt m.dep.queues n ((m.dep.queue n).map free) } }
    let m := match m.host.spiEffect with
      | some x => if r = 0 ∧ x.addr = take0Addr then { m with host := { m.host with spiEffect := none } } else m
      | none => m
    ((m.count 0x30 DEP_LAPSE_COUNT).irq 0x30 6).emit 0xA032 [r, n]

/-- A put of engine `x` waits for a slot of its full queue: the engine stalls with STALLSRC 4 (R374, R391). One that
does not run issues nothing. DEDUCED, unsafe (log 74). -/
def Chip.depWait (m : Chip) (x : Nat) (e : DepEntry) : Chip :=
  let pg := 0x28 + x
  if m.get pg ENG_STAT_STATE ≠ 1 then m
  else ({ m with dep := { m.dep with waiting := m.dep.waiting ++ [e] } }.put pg ENG_STAT_STATE 3).put pg ENG_STAT_STALLSRC 4

/-- A write of PUTTAG (R390–R392): an engine puts into its own source and waits for a slot; a host puts into source
22. -/
def Chip.depPut (m : Chip) (r tag : Nat) : Chip :=
  if r = 3 then m
  else
    let src := if 4 ≤ r then r - 4 else 22
    let v := (m.rd (reqKey r (DEP_PUTLO_VALUE.addr 0x30))).toNat +
      (m.rd (reqKey r (DEP_PUTHI_VALUE.addr 0x30))).toNat * 2 ^ 32
    let e : DepEntry := { tag := tag, src := src, stamp := m.stamp, value := v }
    if !m.has 0x30 DEP_SRCCFG_EN src then m.depLose src
    else if 4 ≤ r ∧ 4 ≤ (m.dep.queue src).length then m.depWait src e
    else m.depAppend e

/-- OPCMD 0x01: flush the sources of a mask (R396). -/
def Chip.depFlush (m : Chip) : Chip :=
  match m.opOf 0x30 with
  | none => m
  | some o =>
    if o.cmd ≠ 1 then m.endErr 0x30 0x01 0
    else match (List.range 24).find? (fun n => bit o.arg n && !bit (depSources m.die.part) n) with
    | some n => m.endErr 0x30 0x03 n
    | none =>
      if !m.unlockedFor o.req 0x30 then m.endErr 0x30 0x04 0
      else
        let n := ((bitsUp o.arg 24).map (fun k => (m.dep.queue k).length)).sum
        let qs := (List.range 24).map (fun k => if bit o.arg k then [] else m.dep.queue k)
        let m := ({ m with dep := { m.dep with queues := qs } }).endDone 0x30 [BitVec.ofNat 32 n]
        (bitsUp o.arg 24).foldl (fun m k => m.depAdmit k) m

/-- Entries present in a queue, or of a group of eight as QCNTk shows them (R400). -/
def Chip.depQcnt (m : Chip) (k : Nat) : Nat :=
  ((List.range 8).map (fun i => (m.dep.queue (8 * k + i)).length * 2 ^ (4 * i))).sum

/-- NEMPTY (R400). -/
def Chip.depNempty (m : Chip) : Nat :=
  (List.range 24).foldl (fun n k => if (m.dep.queue k).isEmpty then n else setBit n k) 0

end Sys2Proof.Machine
end

