-- ==== Sys2Proof/Machine/Host.lean ====
section
/-! DEFINITION. Rules every register access meets: absent pages (R3–R5), unlock sequences (R40–R43), field-wise RWL
writes and W1C clearing (R43, R44), registers sticky until read (R11, R54), and INT# (R45, R46). -/

namespace Sys2Proof.Machine

/-! ### Flags of GLB -/

/-- An absent page or instance was accessed (R3, R5): HIT, and on its rise the requester and page. -/
def Chip.absentHit (m : Chip) (r pg : Nat) : Chip :=
  let m := if m.has 0 GLB_ABSENT_HIT then m else (m.put 0 GLB_ABSENT_REQ r).put 0 GLB_ABSENT_PAGE pg
  (m.put 0 GLB_ABSENT_HIT 1).irq 0 4

/-- An unmapped address was accessed (R30). -/
def Chip.decodeErr (m : Chip) : Chip := (m.put 0 GLB_ERRS_DECODE 1).irq 0 7

/-- An RWL write met a locked page (R43). DEDUCED, unsafe (log 20). -/
def Chip.lockErr (m : Chip) : Chip := (m.put 0 GLB_ERRS_LOCKWR 1).irq 0 5

/-- Do what a page's register write does, if the page is present (R3). -/
def Chip.onPage (m : Chip) (r pg : Nat) (f : Chip → Chip) : Chip :=
  if pageAbsent m.die.part pg then m.absentHit r pg else f m

/-- The same for an RWL register, whose own write tests the lock: the unlock's 10 ms start anew (R41). -/
def Chip.onRwl (m : Chip) (r pg : Nat) (f : Chip → Chip) : Chip := m.onPage r pg (fun m => f (m.rwlSeen r pg))

/-! ### KEY (R40–R42) -/

/-- Failed sequences a requester has in a row. -/
def HostSt.failsOf (h : HostSt) (r : Nat) : Nat := (Sparse.find h.fails r).getD 0

/-- A failed unlock sequence (R42). -/
def Chip.keyFail (m : Chip) (r pg : Nat) : Chip :=
  let m := (m.put 0 GLB_ERRS_KEYFAIL 1).irq 0 6
  let n := m.host.failsOf r + 1
  if n < 4 then { m with host := { m.host with fails := Sparse.put m.host.fails r n } }
  else
    let m := { m with host := { m.host with fails := Sparse.drop m.host.fails r, barred := m.host.barred ++ [r],
                                             barAt := Sparse.put m.host.barAt r m.tim.tick } }
    ((m.put 0 GLB_ERRS_KEYBLK 1).irq 0 8).emit 0xA001 [r, pg]

/-- A KEY write (R40, R41): 0 ends the unlock; the two words in order unlock; any other word fails the sequence. -/
def Chip.keyWrite (m : Chip) (r pg v : Nat) : Chip :=
  let h := m.host
  if h.barred.contains r then m
  else if v = 0 then
    { m with host := { h with unlocked := dropAll h.unlocked (r, pg), half := dropAll h.half (r, pg) } }
  else if h.half.contains (r, pg) then
    let m := { m with host := { h with half := dropAll h.half (r, pg) } }
    if v = 0xA19B then
      ({ m with host := { m.host with unlocked := addOnce m.host.unlocked (r, pg), fails := Sparse.drop h.fails r } }).rwlSeen
        r pg
    else m.keyFail r pg
  else if v = 0x5E64 then { m with host := { h with half := addOnce h.half (r, pg) } }
  else m.keyFail r pg

/-- What a KEY read returns: BLOCKED, HALF, UNLK for the reading requester (R33). -/
def Chip.keyRead (m : Chip) (r pg : Nat) : Nat :=
  4 * b2n (m.host.barred.contains r) + 2 * b2n (m.host.half.contains (r, pg)) + b2n (m.unlockedFor r pg)

/-! ### Plain writes and sticky reads -/

/-- The stored fields of the register at an offset of a page. DESIGN CHOICE, safe (log 95). -/
def fieldsAt (pg o : Nat) : List Fld := (hdrFields ++ pageFields pg).filter (fun f => f.covers o)

/-- The bits of a register that have an access type. DESIGN CHOICE, safe (log 95). -/
def accMask (fs : List Fld) (a : Acc) : Nat := fs.foldr (fun f n => if f.acc = a then n ||| f.mask else n) 0

/-- What a write leaves in a register that has no effect of its own (R11, R12, R43): RW bits take the value, RWL bits
take it for an unlocked requester, W1C bits clear where it is 1, all others keep theirs. DESIGN CHOICE, safe (log 95).
-/
def plainValue (fs : List Fld) (old v : Nat) (unlocked : Bool) : Nat :=
  let take := accMask fs .rw ||| (if unlocked then accMask fs .rwl else 0)
  let w1c := accMask fs .w1c
  (old ^^^ (old &&& (take ||| (w1c &&& v)))) ||| (v &&& take)

/-- Would the write have changed an RWL field, or set a WO RWL bit (R43)? DEDUCED, unsafe (log 20). -/
def lockedChange (fs : List Fld) (old v : Nat) : Bool :=
  decide ((old ^^^ v) &&& accMask fs .rwl ≠ 0) || decide (v &&& accMask fs .wol ≠ 0)

/-- INT# contribution of a page (R45). -/
def Chip.pagePending (m : Chip) (pg : Nat) : Bool :=
  !pageAbsent m.die.part pg && decide (pg ≠ 0x3F) &&
  decide (m.get pg HDR_IRQ_RAW_BITS &&& m.get pg HDR_IRQ_EN_BITS ≠ 0)

/-- IRQSUMk (R45). -/
def Chip.irqSum (m : Chip) (k : Nat) : Nat :=
  (List.range 32).foldl (fun n b => if m.pagePending (32 * k + b) then setBit n b else n) 0

/-- Is any enabled interrupt pending (R45)? -/
def Chip.intPending (m : Chip) : Bool :=
  decide (m.irqSum 0 &&& m.get 0 GLB_INTEN0_EN ≠ 0) || decide (m.irqSum 1 &&& m.get 0 GLB_INTEN1_EN ≠ 0)

/-- Is INT# asserted: a pending interrupt, but for the release of the re-arm pulse (R46)? DEDUCED, safe (log 92). -/
def Chip.intAsserted (m : Chip) : Bool := m.intPending && !m.host.intPulse

/-- A W1C write in re-arm mode that leaves a contributing bit set releases INT# for 2 µs (R46). DEDUCED, safe (log
92). -/
def Chip.rearm (m : Chip) (wrote : Bool) : Chip :=
  if wrote && m.has 0 GLB_INTCFG_MODE && m.intPending then
    { m with host := { m.host with intPulse := true, intAt := m.tim.tick } }
  else m

/-- A written word with each field that the spec clamps put to the nearer limit: SETPCFG.FS, the efficiencies of EFF0
and EFF1, NOMF, LOSSWIN, BOWLVL, DVDT and PSLEW. DEDUCED, unsafe (log 108). -/
def clampWord (pg o v : Nat) : Nat :=
  if pg = 0x0C ∧ o = 0x118 then setBits v 0 20 (clampN 1000 1000000 (bitsOf v 0 20))
  else if pg = 0x1E ∧ (o = 0x060 ∨ o = 0x064) then
    setBits (setBits v 0 16 (clampN 0x4000 0x8000 (bitsOf v 0 16))) 16 16 (clampN 0x4000 0x8000 (bitsOf v 16 16))
  else if pg = 0x02 ∧ o = 0x048 then setBits v 0 16 (clampN 0x2D00 0x4200 (bitsOf v 0 16))
  else if pg = 0x02 ∧ o = 0x04C then setBits v 16 5 (clampN 4 24 (bitsOf v 16 5))
  else if pg = 0x23 ∧ o = 0x040 then setBits v 8 8 (clampN 42 190 (bitsOf v 8 8))
  else if 0x0D ≤ pg ∧ pg ≤ 0x0F ∧ 0x100 ≤ o ∧ o % 64 = 4 then setBits v 0 9 (clampN 1 500 (bitsOf v 0 9))
  else if 0x10 ≤ pg ∧ pg ≤ 0x17 ∧ o = 0x05C then setBits v 16 16 (clampN 10 300 (bitsOf v 16 16))
  else v

/-- A write to a register without an effect of its own (R43). -/
def Chip.plainWrite (m : Chip) (r addr w : Nat) : Chip :=
  let pg := addr / 0x400
  let v := clampWord pg (addr % 0x400) w
  let fs := fieldsAt pg (addr % 0x400)
  let old := (m.rd addr).toNat
  let un := m.unlockedFor r pg
  let m1 := m.wr addr (BitVec.ofNat 32 (plainValue fs old v un))
  let m1 := if !un && lockedChange fs old v then m1.lockErr else m1
  m1.rearm (decide (v &&& accMask (fs.filter (fun f => decide (f.off = 0x10))) .w1c ≠ 0))

/-- A write of an RWL register with an effect `f` of its own, at an offset of a page, if the page is present: an
unlocked requester's has the effect and starts its 10 ms anew (R41), a locked one's acts field by field (R43). -/
def Chip.onUnlocked (m : Chip) (r pg o v : Nat) (f : Chip → Chip) : Chip :=
  m.onPage r pg (fun m => if m.unlockedFor r pg then f (m.rwlSeen r pg) else m.plainWrite r (pg * 0x400 + o) v)

/-- Registers that keep a maximum until read: `THM.TMAX` and `MEA.SARSTAT`. -/
def keepsMax (addr : Nat) : Bool := addr == THM_TMAX_T.addr 0x22 || addr == MEA_SARSTAT_MAXGAP.addr 3

/-- A maximum register met a value: it keeps the larger, and remembers it beside a read whose clear is to come. -/
def Chip.maxNote (m : Chip) (addr v : Nat) (gt : Nat → Nat → Bool) : Chip :=
  let m := if gt v (m.rd addr).toNat then m.wr addr (BitVec.ofNat 32 v) else m
  let h := m.host
  match Sparse.find h.maxSince addr with
  | none => { m with host := { h with maxSince := Sparse.put h.maxSince addr v } }
  | some w => if gt v w then { m with host := { h with maxSince := Sparse.put h.maxSince addr v } } else m

/-- The clear of a sticky register removes only what its read returned (R11, R54). -/
def Chip.rsClear (m : Chip) (addr returned : Nat) : Chip :=
  if keepsMax addr then
    let v := match Sparse.find m.host.maxSince addr with
      | some w => BitVec.ofNat 32 w
      | none => regDefault addr
    (m.wr addr v)
  else
    let fs := (fieldsAt (addr / 0x400) (addr % 0x400)).filter (fun f => f.acc = .rs)
    let old := (m.rd addr).toNat
    m.wr addr (BitVec.ofNat 32 (fs.foldl (fun n f =>
      setBits n f.lo f.wd (bitsOf old f.lo f.wd - bitsOf returned f.lo f.wd)) old))

/-- A maximum's value since this read starts anew. DEDUCED, safe (log 18). -/
def Chip.rsStart (m : Chip) (addr : Nat) : Chip :=
  { m with host := { m.host with maxSince := Sparse.drop m.host.maxSince addr } }

/-- Byte address of `PMBn.ERRCNT` (R68). -/
def errCntAddr (p : Nat) : Nat := PMB_ERRCNT_W.addr (0x32 + p)

/-- The port whose ERRCNT stands at an address. -/
def errCntPort (addr : Nat) : Option Nat := [0, 1].find? (fun p => errCntAddr p == addr)

/-- The counts of a port that ERRCNT returns. -/
def PmPort.counts (x : PmPort) : List Nat := [x.naks, x.pecs, x.tmos]

/-- The clear of ERRCNT removes from each count what its read returned (R11). DESIGN CHOICE, safe (log 26). -/
def Chip.errCntClear (m : Chip) (p : Nat) (got : List Nat) : Chip :=
  let x := m.pm p
  let g := fun i => (got[i]?).getD 0
  m.setPm p { x with naks := x.naks - g 0, pecs := x.pecs - g 1, tmos := x.tmos - g 2 }

/-- The clear that a read of a sticky register brings. -/
def Chip.readClear (m : Chip) (e : ReadEffect) : Chip :=
  match errCntPort e.addr with
  | some p => m.errCntClear p e.counts
  | none => m.rsClear e.addr e.returned

/-- The side effect of the last SPI read takes effect: the next good frame has come (R54, R395). DEDUCED, safe (log
18). -/
def Chip.spiCommit (m : Chip) : Chip :=
  match m.host.spiEffect with
  | none => m
  | some e =>
    let m := { m with host := { m.host with spiEffect := none } }
    if e.addr = take0Addr then m.depTakeDone 0 else m.readClear e

/-- The read of a sticky register by a requester: over SPI its clear waits for the next good frame, which is also what a
further SPI read is (R54). -/
def Chip.rsRead (m : Chip) (r addr : Nat) : Chip :=
  let m := if r = 0 then m.spiCommit else m
  let counts := match errCntPort addr with
    | some p => (m.pm p).counts
    | none => []
  let e : ReadEffect := { req := r, addr := addr, returned := (m.rd addr).toNat, counts := counts }
  let m := m.rsStart addr
  if r = 0 then { m with host := { m.host with spiEffect := some e } } else m.readClear e

/-! ### Commands -/

/-- RS_REGISTER_READ (R11): a read of a sticky register; other registers have no clear. DEDUCED, safe (log 18). -/
def execRsRegisterRead (r : Requester) (addr : BitVec 22) (s : State) : Host.Outcome State Fault Refusal :=
  s.run (fun m =>
    let pg := addr.toNat / 0x400
    m.onPage (reqCode r) pg (fun m =>
      if accMask (fieldsAt pg (addr.toNat % 0x400)) .rs = 0 ∨ 0xFFFF < addr.toNat then m
      else m.rsRead (reqCode r) addr.toNat))

/-- PART0_READ (R39): PART0–PART5 and PVALID are copied into the requester's shadow. -/
def execPart0Read (r : Requester) (page : Fin 64) (s : State) : Host.Outcome State Fault Refusal :=
  s.run (fun m => m.onPage (reqCode r) page.val (fun m =>
    if hasOps page.val then m.partShadow (reqCode r) page.val else m))

/-- KEY_WRITE (R40). -/
def execKeyWrite (r : Requester) (page : Fin 64) (v : Word) (s : State) : Host.Outcome State Fault Refusal :=
  s.run (fun m => m.onPage (reqCode r) page.val (fun m =>
    if page.val = 0x3F then m else m.keyWrite (reqCode r) page.val v.toNat))

/-- Ticks of 5 ns in 1 s. -/
abbrev secTicks : Nat := 200000000

/-- Have 10 ms passed since the last RWL write by a requester to a page it has unlocked (R41)? -/
def Chip.unlockDue (m : Chip) (r pg : Nat) : Bool :=
  m.host.unlocked.contains (r, pg) &&
    decide (10 * msTicks ≤ m.ticksSince ((Sparse.find m.host.unlockAt (unlockKey r pg)).getD 0))

/-- UNLOCK_LAPSE (R41): 10 ms without an RWL write of the requester to the page. -/
def execUnlockLapse (r : Requester) (page : Fin 64) (s : State) : Host.Outcome State Fault Refusal :=
  s.run (fun m =>
    if m.unlockDue (reqCode r) page.val then
      { m with host := { m.host with unlocked := dropAll m.host.unlocked (reqCode r, page.val),
                                     unlockAt := Sparse.drop m.host.unlockAt (unlockKey (reqCode r) page.val) } }
    else m)

/-- Has a bar on a requester stood for 1 s (R42)? -/
def Chip.keyBarDue (m : Chip) (r : Nat) : Bool :=
  m.host.barred.contains r && decide (secTicks ≤ m.ticksSince ((Sparse.find m.host.barAt r).getD 0))

/-- KEY_BAR_EXPIRY (R42): the 1 s bar on a requester ends. -/
def execKeyBarExpiry (r : Requester) (s : State) : Host.Outcome State Fault Refusal :=
  s.run (fun m =>
    if m.keyBarDue (reqCode r) then
      { m with host := { m.host with barred := dropAll m.host.barred (reqCode r),
                                     barAt := Sparse.drop m.host.barAt (reqCode r) } }
    else m)

/-- INT_REARM_PULSE_END (R46): the 2 µs release of INT# ends. DEDUCED, safe (log 92). -/
def execIntRearmPulseEnd (s : State) : Host.Outcome State Fault Refusal :=
  s.run (fun m =>
    if 2 * usTicks ≤ m.ticksSince m.host.intAt then { m with host := { m.host with intPulse := false } } else m)

end Sys2Proof.Machine
end

