-- ==== Sys2Proof/Machine/Timetable.lean ====
section
/-! DEFINITION. The Timetable (R73–R100): its states and flags, the counts its criteria rest on, the synthetic
frequency, slots, cycle adjustment and the reads of the stamp. -/

namespace Sys2Proof.Machine

/-- Names of the Timetable's states (R100). -/
abbrev ttbOff : Nat := 0
abbrev ttbAcquire : Nat := 1
abbrev ttbLocked : Nat := 2
abbrev ttbHoldover : Nat := 3
abbrev ttbFreerun : Nat := 4
abbrev ttbPull : Nat := 5

/-- The flags of a state (R74), LOCK in bit 0. -/
def ttbFlags (st : Nat) : Nat :=
  if st = ttbAcquire ∨ st = ttbPull then 2 else if st = ttbLocked then 1 else if st = ttbHoldover then 3 else 4

/-- The Timetable's state. -/
def Chip.ttb (m : Chip) : Nat := m.get 2 TTB_STAT_STATE

/-- The present frequency in 1/65 536 Hz. -/
def Chip.freq (m : Chip) : Nat := m.get 2 TTB_FREQ_FREQ

/-- Store the present frequency. -/
def Chip.setFreq (m : Chip) (f : Nat) : Chip := m.put 2 TTB_FREQ_FREQ f

/-- NOMF in 1/65 536 Hz, limited to 45–66 Hz (R100). -/
def Chip.nomFreq (m : Chip) : Nat := clampN 0x2D00 0x4200 (m.get 2 TTB_NOMF_NOMF) * 256

/-- LOSSWIN limited to 4–24 (R100). DEDUCED, unsafe (log 108). -/
def Chip.lossWin (m : Chip) : Nat := clampN 4 24 (m.get 2 TTB_LOSS_LOSSWIN)

/-- RETWIN in waypoints; 0 is treated as 1 (R100). -/
def Chip.retWin (m : Chip) : Nat := 256 * clampN 1 15 (m.get 2 TTB_HOLD_RETWIN)

/-- HOLDCYC; 0 is treated as 1, above 64 as 64 (R100). -/
def Chip.holdCyc (m : Chip) : Nat := clampN 1 64 (m.get 2 TTB_HOLD_HOLDCYC)

/-- SLEW reads 1 in FREERUN and OFF until the frequency is at NOMF (R91). -/
def Chip.slewFlag (m : Chip) : Chip :=
  m.putB 2 TTB_STAT_SLEW ((m.ttb == ttbFreerun || m.ttb == ttbOff) && m.freq != m.nomFreq)

/-- Enter a state: STATE, the flags of R74, the counts that start anew, and the Depot entry of a state change (R388).
The qualified cycles of RETWIN count on over a declaration of mains loss (R84). DESIGN CHOICE, unsafe (log 124). -/
def Chip.ttbEnter (m : Chip) (st : Nat) : Chip :=
  let m := m.put 2 TTB_STAT_STATE st
  let m := ((m.put 2 TTB_STAT_LOCK (ttbFlags st % 2)).put 2 TTB_STAT_PROV (ttbFlags st / 2 % 2)).put 2 TTB_STAT_SYN
    (ttbFlags st / 4)
  let m := { m with tim := { m.tim with enterWp := 0, lockWp := 0, lossWp := [0, 0, 0], rotTold := false,
                                        canAlign := false, stopped := false, pulling := false,
                                        unqualWp := 0, holdBounds := 0, acqTold := false,
                                        freqHist := if st = ttbLocked then [] else m.tim.freqHist } }
  let m := if st = ttbHoldover ∨ st = ttbFreerun ∨ st = ttbOff then m.put 2 TTB_PHERR_PHERR 0 else m
  m.slewFlag.depot 21 2 (st + m.freq <<< 32)

/-- The last locked frequency since reset is the present one, in LOCKED (R84). -/
def Chip.keepLocked (m : Chip) : Chip :=
  if m.ttb = ttbLocked then { m with tim := { m.tim with lastLocked := some m.freq } } else m

/-- Write of CTRL.ENABLE (R84): 1 leaves OFF for ACQUIRE with one alignment permitted, 0 enters OFF from any state. -/
def Chip.ttbEnable (m : Chip) (en : Bool) : Chip :=
  let m := m.putB 2 HDR_CTRL_ENABLE en
  if en && m.ttb == ttbOff then
    let m := m.ttbEnter ttbAcquire
    { m with tim := { m.tim with canAlign := true, qualWp := 0, goodWp := [0, 0, 0], badWp := [0, 0, 0], phTold := 0 } }
  else if !en && m.ttb != ttbOff then
    ((m.keepLocked.ttbEnter ttbOff).put 2 TTB_STAT_PHOK 0).put 2 TTB_STAT_MPRES 0
  else m

/-- Entry into FREERUN (R84): the FREERUN line and code 0x1004. -/
def Chip.ttbFreerunEnter (m : Chip) (f : Nat) : Chip :=
  let m := (m.setFreq f).ttbEnter ttbFreerun
  ((m.irq 2 7).raise 5).emit 0x1004 [f, m.get 2 TTB_NOMF_NOMF]

/-- Mean of a list of numbers. -/
def meanOf (l : List Nat) : Nat := if l.length = 0 then 0 else l.sum / l.length

/-- The mean locked frequency over the 4 cycles before the loss criterion began (R90). The newest entry is first.
Where less than 4 cycles of lock lie before it, the mean is over what there is, and the present frequency where there
is nothing. DESIGN CHOICE, unsafe (log 105). -/
def Chip.lockedMean (m : Chip) : Nat :=
  let h := (m.tim.freqHist.drop m.lossWin).take 1024
  if h.length = 0 then m.freq else meanOf h

/-- A mains-loss declaration of a cause (R84, R85): LOSSC and LOSSA, the mains-loss line and code 0x1001, whose
frequency is the one the synthetic cycle takes over with. DEDUCED, unsafe (log 106). -/
def Chip.declareLoss (m : Chip) (cause : Nat) : Chip :=
  let m := m.put 2 TTB_LOSSC_CYCLE m.tim.cycle
  let m := ((m.put 2 TTB_LOSSA_CAUSE cause).put 2 TTB_LOSSA_FLAGS m.flags).put 2 TTB_LOSSA_ANGLE m.tim.angle
  let m := { m with tim := { m.tim with absentFrom := m.tim.cycle } }
  let failAngle := (m.tim.angle + 65536 - m.lossWin * 256 % 65536) % 65536
  ((m.irq 2 4).raise 2).emit 0x1001 [cause, m.freq / 256, m.get 2 TTB_PHERR_AMPL, failAngle]

/-- The lowest loss cause that has held for LOSSWIN waypoints (R85). -/
def Chip.lossCause (m : Chip) : Option Nat :=
  (List.range 3).find? (fun k => decide (m.lossWin ≤ (m.tim.lossWp[k]?).getD 0) && bit m.tim.lossNow k)
    |>.map (fun k => k + 1)

/-- The mains angle less the present one, modulo 65 536, with angle 0 shifted by ANGOFS (R73, R87, R92). -/
def Chip.mainsError (m : Chip) (x : Sense) : Nat :=
  (x.mainsAngle.toNat + m.get 2 TTB_CFG_ANGOFS + 65536 - m.tim.angle) % 65536

/-- A qualified return enters PULL (R92): the mains-return line, code 0x1002, and the pull frequency. -/
def Chip.enterPull (m : Chip) (x : Sense) : Chip :=
  let d := m.mainsError x
  let m := m.ttbEnter ttbPull
  let ahead := decide (d ≤ 32768)
  let m := m.setFreq (if ahead then x.mainsFreq.toNat * 9 / 8 else x.mainsFreq.toNat * 7 / 8)
  let m := { m with tim := { m.tim with pulling := true, pullUp := ahead } }
  ((m.irq 2 5).raise 3).emit 0x1002 [(m.tim.cycle + 2 ^ 32 - m.tim.absentFrom) % 2 ^ 32, d]

/-- Lock is acquired (R84, R85): the LOCK line and code 0x1003; a rotation other than ROTEXP writes code 0x1008 (R81).
From PULL, where the loss criterion is tested too, its counts run on. -/
def Chip.acquireLock (m : Chip) (x : Sense) : Chip :=
  let fromSt := m.ttb
  let runs := if fromSt = ttbPull then m.tim.lossWp else [0, 0, 0]
  let m := (m.ttbEnter ttbLocked).put 2 TTB_STAT_ACQSLOW 0
  let m := { m with tim := { m.tim with lossWp := runs } }
  let m := ((m.irq 2 6).raise 4).emit 0x1003 [fromSt, sp (m.getS 2 TTB_PHERR_PHERR), m.freq]
  if m.has 2 TTB_STAT_ROTREV then
    let m := m.emit 0x1008 [b2n x.rotation]
    { m with tim := { m.tim with rotTold := true } }
  else m

/-- LOSSLVL; 0 is treated as 1 (R100). -/
def Chip.lossLvl (m : Chip) : Nat := if m.has 2 TTB_LOSS_LOSSLVL then m.get 2 TTB_LOSS_LOSSLVL else 1

/-- Is an input good: is its peak amplitude at least LOSSLVL × AMPNOM / 256 (R82)? -/
def Chip.inputGood (m : Chip) (x : Sense) (i : Nat) : Bool :=
  decide (m.lossLvl * m.get 2 TTB_CFG_AMPNOM ≤ ((x.peak[i]?).getD 0).toNat * 256)

/-- The good inputs as a mask. -/
def Chip.goodMask (m : Chip) (x : Sense) : Nat :=
  (List.range 3).foldl (fun n i => if m.inputGood x i then setBit n i else n) 0

/-- The amplitude amp of R80, formed from the remaining pair while exactly one input is lost (R82). -/
def Chip.ampOf (m : Chip) (x : Sense) : Nat :=
  match (List.range 3).filter (fun i => bit m.tim.phTold i) with
  | [i] => ((x.ampPair[i]?).getD 0).toNat
  | _ => x.amp.toNat

/-- An input's PHOK bit after an update (R82): set after one cycle good, cleared after LOSSWIN waypoints not good; the
single failing input sets PHLOSS with code 0x1005, once until it is restored. -/
def Chip.inputCheck (m : Chip) (x : Sense) (i : Nat) : Chip :=
  let good := m.inputGood x i
  let others := (List.range 3).all (fun k => k == i || m.inputGood x k)
  if good then
    if 256 ≤ (m.tim.goodWp[i]?).getD 0 then
      let m := if bit (m.get 2 TTB_STAT_PHOK) i then m else m.maskSet 2 TTB_STAT_PHOK i
      { m with tim := { m.tim with phTold := clearBit m.tim.phTold i } }
    else m
  else if m.lossWin ≤ (m.tim.badWp[i]?).getD 0 then
    let m := m.maskClr 2 TTB_STAT_PHOK i
    if others && !bit m.tim.phTold i then
      let m := { m with tim := { m.tim with phTold := setBit m.tim.phTold i } }
      (m.irq 2 8).emit 0x1005 [i, m.ampOf x]
    else m
  else m

/-- Is the alignment of R87 still to come or under way, so that no phase estimate steers the angle yet? -/
def Chip.unaligned (m : Chip) : Bool := m.tim.canAlign || m.tim.stopped

/-- The conditions an update tests (R82–R85), and counts that a failed condition returns to 0. The lock criterion
rests on the phase estimate, which runs closed-loop from the alignment on (R87). DEDUCED, unsafe (log 106). -/
def Chip.senseConditions (m : Chip) (x : Sense) : Chip :=
  let nom := m.get 2 TTB_CFG_AMPNOM
  let good := m.goodMask x
  let amp := m.ampOf x
  let enough := decide (2 ≤ popCount good 3)
  let inBand := decide (45 * 65536 ≤ x.mainsFreq.toNat) && decide (x.mainsFreq.toNat ≤ 66 * 65536)
  let qual := enough && inBand && decide (m.get 2 TTB_LOSS_RETLVL * nom ≤ amp * 256)
  let ph := absI (sx 16 x.phErr.toNat)
  let steers := m.ttb == ttbLocked || (m.ttb == ttbPull && !m.tim.pulling)
  let loss := b2n (decide (amp * 256 < m.lossLvl * nom) || !enough) + 2 * b2n (steers && decide (5461 < ph))
    + 4 * b2n (!inBand)
  let t := m.tim
  let lo := if t.lockWp = 0 then m.freq else Nat.min t.lockMin m.freq
  let hi := if t.lockWp = 0 then m.freq else Nat.max t.lockMax m.freq
  let steady := decide (100 * (hi - lo) ≤ 2 * 65536)
  let lock := decide (ph ≤ 64) && steady && !m.unaligned
  let zip := fun (l : List Nat) (keep : Nat → Bool) =>
    (List.range 3).map (fun i => if keep i then (l[i]?).getD 0 else 0)
  { m with tim := { t with
      goodNow := good, qualNow := qual, lockNow := lock, lossNow := loss,
      goodWp := zip t.goodWp (fun i => bit good i), badWp := zip t.badWp (fun i => !bit good i),
      qualWp := if qual then t.qualWp else 0, unqualWp := if qual then 0 else t.unqualWp,
      lockWp := if lock then t.lockWp else 0,
      lockMin := if lock then lo else m.freq, lockMax := if lock then hi else m.freq,
      lossWp := zip t.lossWp (fun i => bit loss i) } }

/-- The counts in waypoints run on at a boundary. -/
def Chip.senseCount (m : Chip) : Chip :=
  let t := m.tim
  let up := fun (l : List Nat) (on : Nat → Bool) (cap : Nat) =>
    (List.range 3).map (fun i => if on i then Nat.min cap ((l[i]?).getD 0 + 1) else 0)
  let live := m.ttb != ttbOff
  { m with tim := { t with
      goodWp := up t.goodWp (fun i => live && bit t.goodNow i) 256,
      badWp := up t.badWp (fun i => live && !bit t.goodNow i) 24,
      qualWp := if live && t.qualNow then t.qualWp + 1 else 0,
      unqualWp := if live && !t.qualNow then t.unqualWp + 1 else 0,
      lockWp := if live && t.lockNow then t.lockWp + 1 else 0,
      lossWp := up t.lossWp (fun i => live && bit t.lossNow i) 24,
      enterWp := t.enterWp + 1, wpCount := t.wpCount + 1,
      freqHist := if m.ttb = ttbLocked then (m.freq :: t.freqHist).take 1048 else t.freqHist } }

/-- One tracking update's step of the synthetic frequency toward NOMF (R91): SLEW × 0.05 Hz/s over 20.48 µs, the part
below 1/65 536 Hz kept for the next update. -/
def Chip.slewStep (m : Chip) : Chip :=
  let rate := if m.has 2 TTB_HOLD_SLEW then m.get 2 TTB_HOLD_SLEW else 1
  let acc := m.tim.slewRem + rate * 67108864
  let step := acc / 1000000000
  let m := { m with tim := { m.tim with slewRem := acc % 1000000000 } }
  let f := m.freq
  let g := m.nomFreq
  let f' := if f < g then Nat.min g (f + step) else if g < f then Nat.max g (f - step) else f
  (m.setFreq f').slewFlag

/-- The frequency the filter gives (R80): at 20 Hz in ACQUIRE and PULL, at TRKBW in LOCKED, and on the way between the
two over the first cycle after lock. -/
def Chip.filterFreq (m : Chip) (x : Sense) : Nat :=
  if m.ttb = ttbLocked then
    (if m.tim.enterWp < 256 then x.narrow else (x.freqs[m.get 2 TTB_CFG_TRKBW]?).getD 0).toNat
  else ((x.freqs[3]?).getD 0).toNat

/-- What a sense gives FREQ and PHERR (R80, R100); before the alignment there is no phase estimate (R87). -/
def Chip.senseFilter (m : Chip) (x : Sense) : Chip :=
  let m := m.put 2 TTB_PHERR_AMPL (m.ampOf x)
  let acquires := m.ttb == ttbAcquire && !m.unaligned
  let shows := acquires || m.ttb == ttbLocked || m.ttb == ttbPull
  let m := m.put 2 TTB_PHERR_PHERR (if shows then x.phErr.toNat else 0)
  if acquires ∨ m.ttb = ttbLocked ∨ (m.ttb = ttbPull ∧ !m.tim.pulling) then m.setFreq (m.filterFreq x) else m

/-- What STAT shows of a sense (R81, R100): MPRES, and ROTREV with IRQ bit ROT on its rise, code 0x1008 once per entry
into LOCKED. -/
def Chip.senseShow (m : Chip) (x : Sense) : Chip :=
  let m := m.putB 2 TTB_STAT_MPRES m.tim.qualNow
  let rev := x.rotation != m.has 2 TTB_CFG_ROTEXP
  let rose := rev && !m.has 2 TTB_STAT_ROTREV
  let m := m.putB 2 TTB_STAT_ROTREV rev
  let m := if rose then m.irq 2 11 else m
  if rev && m.ttb == ttbLocked && !m.tim.rotTold then
    let m := m.emit 0x1008 [b2n x.rotation]
    { m with tim := { m.tim with rotTold := true } }
  else m

/-- What an update decides beside its own registers: a mains-loss declaration, and a forward step of the alignment. -/
structure TrackResult where
  chip : Chip
  lost : Bool := false
  step : Nat := 0

/-- The transitions of one tracking update (R84–R92), the row listed first applying first. -/
def Chip.track (m : Chip) (x : Sense) : TrackResult :=
  if m.ttb = ttbOff then ⟨m.slewStep, false, 0⟩
  else
    let m := (m.senseFilter x).senseConditions x
    let m := m.senseShow x
    let m := (List.range 3).foldl (fun m i => m.inputCheck x i) m
    let t := m.tim
    let d := m.mainsError x
    if m.ttb = ttbAcquire then
      if 1024 ≤ t.unqualWp then
        let m := m.ttbFreerunEnter (t.lastLocked.getD m.nomFreq)
        ⟨{ m with tim := { m.tim with absentFrom := t.cycle } }, false, 0⟩
      else if 64 ≤ t.lockWp then ⟨m.acquireLock x, false, 0⟩
      else if t.canAlign ∧ 256 ≤ t.qualWp then
        let m := { m with tim := { m.tim with canAlign := false } }
        if d ≤ 32768 then ⟨m, false, d⟩ else ⟨{ m with tim := { m.tim with stopped := true } }, false, 0⟩
      else
        let m := if t.stopped ∧ d ≤ 32768 then { m with tim := { m.tim with stopped := false } } else m
        if 1024 ≤ t.enterWp ∧ t.qualNow ∧ !t.acqTold then
          let m := { m with tim := { m.tim with acqTold := true } }
          ⟨((m.put 2 TTB_STAT_ACQSLOW 1).irq 2 9).emit 0x1006
            [sp (m.getS 2 TTB_PHERR_PHERR), m.freq, m.get 2 TTB_STAT_PHOK], false, 0⟩
        else ⟨m, false, 0⟩
    else if m.ttb = ttbLocked then
      match m.lossCause with
      | some c =>
        let f := m.lockedMean
        let m := (m.setFreq f).ttbEnter ttbHoldover
        let m := { m with tim := { m.tim with lastLocked := some f, freqHist := [] } }
        ⟨m.declareLoss c, true, 0⟩
      | none => ⟨m, false, 0⟩
    else if m.ttb = ttbHoldover then
      if t.lossNow = 0 ∧ m.retWin ≤ t.qualWp then ⟨m.enterPull x, false, 0⟩ else ⟨m, false, 0⟩
    else if m.ttb = ttbFreerun then
      if m.retWin ≤ t.qualWp then ⟨m.enterPull x, false, 0⟩ else ⟨m.slewStep, false, 0⟩
    else
      match m.lossCause with
      | some c =>
        let m := (m.setFreq (t.lastLocked.getD m.nomFreq)).ttbEnter ttbFreerun
        ⟨(m.declareLoss c), true, 0⟩
      | none =>
        if t.pulling then
          if (t.pullUp ∧ (d = 0 ∨ 32768 < d)) ∨ (!t.pullUp ∧ d ≤ 32768) then
            let m := m.setFreq x.mainsFreq.toNat
            ⟨{ m with tim := { m.tim with pulling := false, lockWp := 0, lossWp := setAt m.tim.lossWp 1 0 } }, false, 0⟩
          else ⟨m, false, 0⟩
        else if 64 ≤ t.lockWp then ⟨m.acquireLock x, false, 0⟩
        else ⟨m, false, 0⟩

/-! ### Slots (R94, R95, R97) -/

/-- Is a cycle eligible for a slot (R94)? -/
def Chip.slotEligible (m : Chip) (n c : Nat) : Bool :=
  if m.has 2 TTB_SLOTCFG_ONCE n then c == m.get 2 TTB_SLOTCYC_CYC n
  else c % 2 ^ m.get 2 TTB_SLOTCFG_DIV n == m.get 2 TTB_SLOTCYC_CYC n % 2 ^ m.get 2 TTB_SLOTCFG_DIV n

/-- A slot asserts its line; a ONCE slot clears EN (R94). -/
def Chip.slotFires (m : Chip) (n : Nat) : Chip :=
  let m := if m.has 2 TTB_SLOTCFG_ONCE n then m.put 2 TTB_SLOTCFG_EN 0 n else m
  (m.raise (8 + n)).depot 21 1 (n + m.freq <<< 32)

/-- A slot is due at the present stamp: it fires, or is deferred when it is lock-required (R95). It is noted with the
number of its cycle, so a periodic slot does not fire again in a cycle of that number that a backward adjustment
brings back. DESIGN CHOICE, unsafe (log 107). -/
def Chip.slotDue (m : Chip) (n : Nat) : Chip :=
  let m := { m with tim := { m.tim with lastFired := setAt m.tim.lastFired n (some m.tim.cycle) } }
  if m.has 2 TTB_SLOTCFG_LOCKREQ n && !m.lockPermitted then
    { m with tim := { m.tim with deferred := addOnce m.tim.deferred n } }
  else m.slotFires n

/-- The angle reaches a slot's match angle (R94). While the angle is stopped nothing is issued (R88). -/
def Chip.slotMatch (m : Chip) (n : Nat) : Chip :=
  let a := m.get 2 TTB_SLOTCFG_ANGLE n
  if !m.tim.stopped && m.has 2 TTB_SLOTCFG_EN n && m.slotEligible n m.tim.cycle && decide (m.tim.angle ≤ a) &&
      a / 256 == m.tim.angle / 256 && (m.tim.lastFired[n]?).getD none != some m.tim.cycle then
    let m := if m.tim.angle = a then m else { m with tim := { m.tim with angle := a, frac := 0 } }
    m.slotDue n
  else m

/-- Deferred slots fire at a waypoint boundary with a permitted stamp, with IRQ bit DEFER (R95). One whose EN has been
written 0 meanwhile is dropped. DESIGN CHOICE, unsafe (log 107). -/
def Chip.slotsDeferred (m : Chip) : Chip :=
  if m.lockPermitted then
    let ns := (List.range 16).filter (fun n => m.tim.deferred.contains n)
    let m := { m with tim := { m.tim with deferred := [] } }
    ns.foldl (fun m n => if m.has 2 TTB_SLOTCFG_EN n then (m.irq 2 10).slotFires n else m) m
  else m

/-- Slots that a forward adjustment skips over set LATE, and are due at the waypoint boundary of the instant (R97). -/
def Chip.slotsLate (m : Chip) (old new : Nat) : Chip :=
  let skipped := (new + 2 ^ 32 - (old + 1)) % 2 ^ 32
  (List.range 16).foldl (fun m n =>
    let c := m.get 2 TTB_SLOTCYC_CYC n
    if m.has 2 TTB_SLOTCFG_EN n && m.has 2 TTB_SLOTCFG_ONCE n &&
        decide ((c + 2 ^ 32 - (old + 1)) % 2 ^ 32 < skipped) then
      let m := m.put 2 TTB_SLOTCFG_LATE 1 n
      { m with tim := { m.tim with late := addOnce m.tim.late n } }
    else m) m

/-- The slots found late fire at the boundary (R97). -/
def Chip.slotsLateFire (m : Chip) : Chip :=
  m.tim.late.foldl Chip.slotDue { m with tim := { m.tim with late := [] } }

/-- The angle wrap (R93, R96, R97): the cycle count advances or takes CYCADJ, and the cycle line is issued. A CYCADJ
value equal to the present cycle is a backward adjustment. DESIGN CHOICE, unsafe (log 107). -/
def Chip.ttbWrap (m : Chip) : Chip :=
  let old := m.tim.cycle
  let adj := m.has 2 TTB_STAT_ADJP
  let new := if adj then m.get 2 TTB_CYCADJ_CYC else (old + 1) % 2 ^ 32
  let fwd := stampBefore (old * 65536) (new * 65536)
  let m := { m with
    tim := { m.tim with cycle := new, angle := 0, frac := 0, wrapDone := true, holdBounds := m.tim.holdBounds + 1 }
    dep := { m.dep with epoch := if adj && !fwd then m.dep.epoch + 1 else m.dep.epoch } }
  let m := m.raise 0
  if adj then
    let m := ((m.put 2 TTB_STAT_ADJP 0).irq 2 12).emit 0x1007 [old, new]
    if fwd then m.slotsLate old new else m
  else m

/-- The waypoint boundary of stage 1 (R15, R93): the angle stands at it, the waypoint line is issued, deferred slots
fire, and the counts in waypoints run on. -/
def Chip.ttbWaypoint (m : Chip) : Chip :=
  let m := if m.tim.wrapDone then { m with tim := { m.tim with wrapDone := false } }
    else { m with tim := { m.tim with angle := (m.tim.angle / 256 + 1) * 256 % 65536, frac := 0 } }
  (((m.raise 1).slotsLateFire).slotsDeferred).senseCount

/-- An engine's clock counts run on: CYC in every state but OFF, STALLS in STALL (R378). DESIGN CHOICE, safe (log 1).
-/
def Chip.engClocks (m : Chip) (n x : Nat) : Chip :=
  let pg := 0x28 + x
  let st := m.get pg ENG_STAT_STATE
  if st = 0 then m
  else
    let m := m.put pg ENG_CYC_COUNT (m.get pg ENG_CYC_COUNT + n)
    if st = 3 then m.countBy pg ENG_STALLS_COUNT n else m

/-- The tick counter advances by `n` ticks of 5 ns, which are also the engines' clocks (R78, R353). DESIGN CHOICE,
safe (log 1); DESIGN CHOICE, safe (log 94). -/
def Chip.advanceTicks (m : Chip) (n : Nat) : Chip :=
  let m := { m with tim := { m.tim with tick := (m.tim.tick + n) % 2 ^ 64 } }
  (List.range 8).foldl (fun m x => m.engClocks n x) m

/-- One engine clock passes with no command: the tick counter and the angle advance (R78, R80). A waypoint boundary is
a command of its own, so the angle stays inside its waypoint. DESIGN CHOICE, safe (log 1). -/
def Chip.idleClock (m : Chip) : Chip :=
  let m := m.advanceTicks 1
  let t := m.tim
  let now := t.angle * 2 ^ 24 + t.frac + m.freq * 2 ^ 24 / 200000000
  let last := (t.angle / 256 + 1) * 256 * 2 ^ 24 - 1
  let next := if t.stopped || t.wrapDone then t.angle * 2 ^ 24 + t.frac else Nat.min now last
  { m with tim := { t with angle := next / 2 ^ 24, frac := next % 2 ^ 24 } }

/-! ### Commands -/

/-- TTB_ENABLE_WRITE (R84). -/
def execTtbEnableWrite (r : Requester) (en : Bool) (s : State) : Host.Outcome State Fault Refusal :=
  s.run (fun m => m.onPage (reqCode r) 2 (fun m => m.ttbEnable en))

/-- HOLDOVER_EXPIRY (R84): HOLDCYC complete cycles after the cycle of the declaration have passed, at a cycle
boundary. -/
def execHoldoverExpiry (s : State) : Host.Outcome State Fault Refusal :=
  s.run (fun m =>
    if m.ttb = ttbHoldover ∧ m.holdCyc + 1 ≤ m.tim.holdBounds then m.ttbFreerunEnter m.freq else m)

/-- A NOMF write stores the value, clamped to its range (R100); in FREERUN and OFF it starts a new slew (R91).
DEDUCED, unsafe (log 108). -/
def Chip.nomfWrite (m : Chip) (v : Nat) : Chip :=
  (m.put 2 TTB_NOMF_NOMF (clampN 0x2D00 0x4200 (v % 65536))).slewFlag

/-- NOMF_WRITE (R91). -/
def execNomfWrite (r : Requester) (v : Word) (s : State) : Host.Outcome State Fault Refusal :=
  s.run (fun m => m.onUnlocked (reqCode r) 2 0x048 v.toNat (fun m => m.nomfWrite v.toNat))

/-- The STMPA word of the present stamp (R100). -/
def Chip.stmpa (m : Chip) : Nat := m.flags * 65536 + m.tim.angle

/-- STMPC_READ (R78). -/
def execStmpcRead (r : Requester) (s : State) : Host.Outcome State Fault Refusal :=
  s.run (fun m => m.setShadow (reqCode r) (TTB_STMPA_ANGLE.addr 2) (BitVec.ofNat 32 m.stmpa))

/-- TICKLO_READ (R78). -/
def execTickloRead (r : Requester) (s : State) : Host.Outcome State Fault Refusal :=
  s.run (fun m => m.setShadow (reqCode r) (TTB_TICKHI_TICK.addr 2) (BitVec.ofNat 32 (m.tim.tick / 2 ^ 32)))

/-- A CYCADJ write arms an adjustment for the next cycle boundary (R96). -/
def Chip.cycadjWrite (m : Chip) (v : Nat) : Chip := (m.put 2 TTB_CYCADJ_CYC v).put 2 TTB_STAT_ADJP 1

/-- CYCADJ_WRITE (R96). -/
def execCycadjWrite (r : Requester) (v : Word) (s : State) : Host.Outcome State Fault Refusal :=
  s.run (fun m => m.onUnlocked (reqCode r) 2 0x070 v.toNat (fun m => m.cycadjWrite v.toNat))

/-- SLOT_FIRE (R94): the angle reaches the match angle of slot `n` in the present waypoint. -/
def execSlotFire (n : Fin 16) (s : State) : Host.Outcome State Fault Refusal :=
  s.run (fun m => m.slotMatch n.val)

end Sys2Proof.Machine
end

