-- ==== Sys2Proof/Machine/Measure.lean ====
section
/-! DEFINITION. Measurement and Calibration (R101–R119): fast samples, per-waypoint and window results, the SAR
results, and the calibration rounds and operations. -/

namespace Sys2Proof.Machine

/-- Element of a list of integers, 0 beyond its end. -/
def atI (l : List Int) (i : Nat) : Int := (l[i]?).getD 0

/-- Element of a list of naturals, 0 beyond its end. -/
def atN (l : List Nat) (i : Nat) : Nat := (l[i]?).getD 0

/-- Is a chain present and enabled (R106)? -/
def Chip.chainOn (m : Chip) (c : Nat) : Bool :=
  chainPresent m.die.part c && m.enabled 3 && m.has 3 MEA_CHCFG_EN c

/-- The corrected code of a mean of `w` raw codes that sum to `sum` (R112), a signed 24-bit code (R103). DEDUCED,
unsafe (log 30); DESIGN CHOICE, unsafe (log 36). -/
def Chip.correct (m : Chip) (c : Nat) (sum : Int) (w : Nat) : Int :=
  let v := divNear ((sum - m.getS 5 CAL_OFS_OFS c * w) * m.get 5 CAL_GAIN_GAIN c) (2 ^ 30 * w)
  satS 24 (if m.has 3 MEA_CHCFG_INV c then -v else v)

/-- A fast sample beyond ±8 388 607 saturates at that value (R103). DEDUCED, unsafe (log 30). -/
def rawSat (x : Int) : Int := clampI (-8388607) 8388607 x

/-- Fast samples of all chains (R102, R103, R112): the raw code saturates, with OVR and on its rise IRQ bit OVR and
code 0x1010; the sample is the corrected code. DEDUCED, unsafe (log 30). -/
def Chip.meaFast (m : Chip) (raw : List (BitVec 32)) : Chip :=
  let code := fun c => ((raw[c]?).getD 0).toInt
  let fast := (List.range 24).map (fun c => if m.chainOn c then m.correct c (rawSat (code c)) 1 else atI m.mea.fast c)
  let isOver := (List.range 24).filter (fun c => m.chainOn c && decide (rawSat (code c) ≠ code c))
  let m := isOver.foldl (fun m c =>
    let was := bit (m.get 3 MEA_OVRSTAT_OVR) c
    let m := m.maskSet 3 MEA_OVRSTAT_OVR c
    if was then m else (m.irq 3 4).emit 0x1010 [c, sp (rawSat (code c))]) m
  { m with mea := { m.mea with
      fast := fast, fastPrev := m.mea.fast,
      fastTick := (List.range 24).map (fun c => if m.chainOn c then m.tim.tick else atN m.mea.fastTick c),
      satRun := (List.range 24).map (fun c => if isOver.contains c then atN m.mea.satRun c + 1 else 0),
      ovrWp := isOver.foldl setBit m.mea.ovrWp } }

/-- Is a SAR input present (R110)? -/
def sarPresent (p : Part) (input : Nat) : Bool :=
  decide (input < 24) || (decide (24 ≤ input) && decide (input < 24 + nPhases p)) ||
  (decide (40 ≤ input) && decide (input < 56) && isFull p)

/-- The supervision or port input after another in the cyclic order SUP0–SUP23, VBS0–VBS7, IMON0–IMON7, absent ones
skipped (R111). The order starts with SUP0 at reset. DESIGN CHOICE, unsafe (log 110). -/
def sarAfter (p : Part) (input : Nat) : Nat :=
  if input < 23 then input + 1 else if !isFull p then 0
  else if input = 23 then 40 else if input < 55 then input + 1 else 0

/-- A SAR conversion's result register (R111): inputs 0–23 SUP, 24–39 IPH, 40–55 port inputs; the longest interval of a
supervision or port input is kept in SARSTAT. -/
def Chip.sarStore (m : Chip) (input code gap : Nat) : Chip :=
  let upd := fun (m : Chip) (fs fc : Fld) (i : Nat) => (m.put 3 fs (m.get 3 fs i + 1) i).put 3 fc code i
  let m := if 24 ≤ input ∧ input < 40 then m
    else { m with mea := { m.mea with sarNext := sarAfter m.die.part input } }
  let m := if input < 24 then upd m MEA_SUPRES_SEQ MEA_SUPRES_CODE input
    else if input < 40 then upd m MEA_IPHRES_SEQ MEA_IPHRES_CODE (input - 24)
    else upd m MEA_PMONRES_SEQ MEA_PMONRES_CODE (input - 40)
  if input < 24 ∨ 40 ≤ input then m.maxNote (MEA_SARSTAT_MAXGAP.addr 3) gap (fun a b => decide (b < a)) else m

/-! ### Per-waypoint and window results -/

/-- Combine flags of waypoints (R105): LOCK if all carry it, PROV and SYN if any does. -/
def combineFlags (a b : Nat) : Nat := b2n (bit a 0 && bit b 0) + 2 * b2n (bit a 1 || bit b 1) + 4 * b2n (bit a 2 || bit b 2)

/-- Window width in waypoints (R104). -/
def winWidth (k : Nat) : Nat :=
  if k = 0 then 1 else if k = 1 then 8 else if k = 2 then 32 else if k = 3 then 128 else if k = 4 then 256
  else if k = 5 then 1024 else 4096

/-- Write a per-waypoint or window result: fields of RESn or WPn. -/
def Chip.putResult (m : Chip) (c : Nat) (win : Bool) (code : Int) (flags : Nat) (held short ovr : Bool) : Chip :=
  let off := if win then MEA_RES_CODE.addr 3 c else MEA_WP_CODE.addr 3 c
  let seq := (bitsOf (m.rd off).toNat 30 2 + 1) % 4
  m.wr off (BitVec.ofNat 32 (ux 24 code + flags * 2 ^ 24 + b2n ovr * 2 ^ 27 + b2n short * 2 ^ 28 + b2n held * 2 ^ 29
    + seq * 2 ^ 30))

/-- The per-waypoint code of a chain. -/
def Chip.wpCode (m : Chip) (c : Nat) : Int := m.getS 3 MEA_WP_CODE c

/-- Close or continue a chain's window at a boundary (R104, R107, R108). A window of 256 waypoints or more that an
adjustment closes carries SHORT. DESIGN CHOICE, unsafe (log 36). -/
def Chip.windowStep (m : Chip) (c : Nat) (code : Int) (ticks flags : Nat) (held ovr zero : Bool) : Chip :=
  let w := winWidth (m.get 3 MEA_CHCFG_WIN c)
  let x := (m.mea.wins[c]?).getD {}
  let x := if x.w = w then x else { w := w, started := false }
  let x := if zero then { x with bad := true }
    else { x with sum := x.sum + code * ticks, ticks := x.ticks + ticks, flags := combineFlags x.flags flags,
                  held := x.held || held, ovr := x.ovr || ovr }
  let short := m.mea.shorten && decide (256 ≤ w)
  let closes := (m.tim.cycle * 256 + m.tim.angle / 256) % w == 0 || short
  if closes then
    let m := if !x.started then m
      else if x.bad then ((m.count 3 MEA_DISCCNT_COUNT).irq 3 5).emit 0x1015 [c, m.tim.cycle]
      else if x.ticks = 0 then m
      else m.putResult c true (divNear x.sum x.ticks) x.flags x.held short x.ovr
    { m with mea := { m.mea with wins := setAt m.mea.wins c { w := w } } }
  else { m with mea := { m.mea with wins := setAt m.mea.wins c x } }

/-- A chain that gives no result leaves its window; the next one starts at a closing boundary (R104, R106). DEDUCED,
unsafe (log 96). -/
def Chip.windowDrop (m : Chip) (c : Nat) : Chip :=
  { m with mea := { m.mea with wins := setAt m.mea.wins c { w := winWidth (m.get 3 MEA_CHCFG_WIN c), started := false } } }

/-- The group of chains that comes next (R115, R119). -/
def Chip.calGroup (m : Chip) : List Nat :=
  let par := m.get 5 CAL_CFG_CALPAR + 1
  (if m.cal.opRun then m.cal.opTodo else m.cal.todo).take par

/-- The results of the waypoint just closed (R104–R108, R117). The flags are those of the closing boundary. A waypoint
of zero duration gives no per-waypoint result. -/
def Chip.meaWaypoint (m : Chip) (x : WpInputs) : Chip :=
  let ticks := x.ticks.toNat
  let flags := m.flags
  let held := m.cal.out
  let m := { m with mea := { m.mea with resOk := 0 } }
  let m := (List.range 24).foldl (fun m c =>
    if !m.chainOn c then m.windowDrop c
    else if ticks = 0 then m.windowStep c 0 0 flags false false true
    else
      let isHeld := held.contains c
      let ovr := bit m.mea.ovrWp c
      let code := if isHeld then m.wpCode c else m.correct c (atI x.raw c) ticks
      let m := m.putResult c false code flags isHeld false ovr
      let m := { m with
        mea := { m.mea with resOk := setBit m.mea.resOk c },
        cal := { m.cal with prev := setAt m.cal.prev c (atI m.cal.last c), last := setAt m.cal.last c code } }
      m.windowStep c code ticks flags isHeld ovr false) m
  { m with mea := { m.mea with ovrWp := 0, shorten := false } }

/-! ### Calibration -/

/-- The chains a round calibrates, in ascending order (R115). -/
def Chip.presentChains (m : Chip) : List Nat := (List.range 24).filter (chainPresent m.die.part)

/-- A filtered step (R114): x + (new − x) / 2ᵏ. DESIGN CHOICE, unsafe (log 36). -/
def calFilter (old new : Int) (k : Nat) : Int := old + (new - old) / ((2 ^ k : Nat) : Int)

/-- The end of a group's reference conversion for one chain (R114, R118): the new offset and gain, or the failed
check. DESIGN CHOICE, unsafe (log 128). -/
def Chip.calChainEnd (m : Chip) (c : Nat) (z f : Int) : Chip :=
  let span := f - z
  let nom := atI m.die.fnom c
  if absI nom * 2000 < absI (span - nom) * 1000000 then
    ((m.maskSet 5 CAL_FAILM_FAIL c).irq 5 4).emit 0x1011 [c, sp span, sp nom]
  else
    let k := Nat.min 7 (m.get 5 CAL_CFG_CALAVG)
    let ofs := m.getS 5 CAL_OFS_OFS c
    let gain : Int := atN m.cal.base c
    let ofs' := calFilter ofs z k
    let gain' := calFilter gain (divFloor (2 ^ 30 * nom) span) k
    let dg := gain' - gain
    let dof := ofs' - ofs
    let m := (m.putS 5 CAL_OFS_OFS ofs' c).maskClr 5 CAL_STAT_STALE c
    { m with cal := { m.cal with
        age := setAt m.cal.age c 0,
        base := setAt m.cal.base c gain'.toNat,
        opMask := if m.cal.opRun then setBit m.cal.opMask c else m.cal.opMask,
        opGain := if m.cal.opRun ∧ absI m.cal.opGain < absI dg then dg else m.cal.opGain,
        opOfs := if m.cal.opRun ∧ absI m.cal.opOfs < absI dof then dof else m.cal.opOfs } }

/-- The results of a calibration operation (R119). -/
def Chip.calParts (m : Chip) : List Word :=
  [BitVec.ofNat 32 m.cal.opMask, BitVec.ofInt 32 m.cal.opGain, BitVec.ofInt 32 m.cal.opOfs, BitVec.ofNat 32 m.cal.opTemp]

/-- The operation at work leaves; the continuous round resumes at its group (R119). -/
def Chip.calOpStop (m : Chip) : Chip :=
  { m with cal := { m.cal with opRun := false, opTodo := [], needRef := false, active := 0, zeros := [] } }

/-- The group's pair is complete: the next group, the end of the round (R115), or the end of the operation (R119). -/
def Chip.calGroupEnd (m : Chip) (group : List Nat) : Chip :=
  let m := { m with cal := { m.cal with needRef := false, zeros := [] } }
  if m.cal.opRun then
    match group.find? (fun c => bit (m.get 5 CAL_FAILM_FAIL) c && !bit m.cal.opMask c) with
    | some c => m.calOpStop.endErr 5 0x10 c
    | none =>
      let rest := m.cal.opTodo.drop group.length
      let m := { m with cal := { m.cal with opTodo := rest } }
      if rest.isEmpty then
        let parts := m.calParts
        m.calOpStop.endDone 5 parts
      else m.progress 5 (255 * (m.cal.opTotal - rest.length) / (m.cal.opTotal + 1))
  else
    let rest := m.cal.todo.drop group.length
    if rest.isEmpty then
      if m.cal.roundDue && m.enabled 5 then { m with cal := { m.cal with todo := m.presentChains, roundDue := false } }
      else { m with cal := { m.cal with todo := [], round := false, roundDue := false } }
    else { m with cal := { m.cal with todo := rest } }

/-- Ticks of a waypoint that a calibration conversion uses: all but the first three fast samples, and the 15.36 µs after
the switch back (R114). -/
def calSpan (ticks : Nat) : Nat := ticks - 3 * 1024 - 3072

/-- The conversions of the waypoint just closed end (R114). A waypoint too short to hold a sample gives none. DESIGN
CHOICE, unsafe (log 36). -/
def Chip.calFinish (m : Chip) (x : WpInputs) : Chip :=
  let span := calSpan x.ticks.toNat
  let group := m.cal.out
  let mean := fun c => divNear (atI x.cal c) span
  let m := { m with cal := { m.cal with out := [] } }
  if span = 0 then { m with cal := { m.cal with active := 0 } }
  else if m.cal.active = 1 then
    { m with cal := { m.cal with active := 0, needRef := true, pair := group, zeros := group.map mean } }
  else if m.cal.active = 2 then
    let zs := m.cal.zeros
    let m := { m with cal := { m.cal with active := 0 } }
    let m := (List.range group.length).foldl (fun m i => m.calChainEnd (atN group i) (atI zs i) (mean (atN group i))) m
    m.calGroupEnd group
  else m

/-- Whether CAL takes the waypoint that begins for its group, the one whose reference conversion waits or the next
(R115, R116); with QSTEP = 0 it takes no quiet waypoint. DESIGN CHOICE, unsafe (log 129). -/
def Chip.calTake (m : Chip) : Chip :=
  let w := m.tim.angle / 256
  let group := if m.cal.needRef then m.cal.pair else m.calGroup
  let working := !group.isEmpty && (m.cal.opRun || (m.cal.round && m.enabled 5))
  if !working || m.has 0x1F HLD_STAT_OWNED then m
  else
    let start := { m with cal := { m.cal with active := if m.cal.needRef then 2 else 1, out := group } }
    if m.cal.opRun then start
    else if !bit (m.get 5 CAL_QMASK_QUIET (w / 32)) (w % 32) then m
    else if m.has 5 CAL_CFG_QSTEP && group.all (fun c => decide (absI (atI m.cal.last c - atI m.cal.prev c) ≤ m.get 5 CAL_CFG_QSTEP * 1024)) then start
    else m.count 5 CAL_REJCNT_COUNT

/-- Every GAINn is scaled by the reference curve at the present Thermal reading (R113). DESIGN CHOICE, safe (log 9).
-/
def Chip.calCurve (m : Chip) : Chip :=
  let t := m.getS 0x22 THM_TEMP_T
  let m := m.put 5 CAL_TEMP_TJ (m.get 0x22 THM_TEMP_T)
  m.presentChains.foldl (fun m c =>
    m.put 5 CAL_GAIN_GAIN (atN m.cal.base c * Config.gainCurve c t / 2 ^ 30) c) m

/-- Calibration at a waypoint boundary. -/
def Chip.calWaypoint (m : Chip) (x : WpInputs) : Chip := ((m.calFinish x).calTake).calCurve

/-- Start of a calibration operation (R119): the chains to calibrate, or a refusal. DESIGN CHOICE, unsafe (log 130).
-/
def Chip.calStart (m : Chip) : Chip :=
  match m.opOf 5 with
  | none => m
  | some o =>
    let go := fun (chains : List Nat) =>
      { m with cal := { m.cal with opRun := true, opTodo := chains, opTotal := chains.length, opMask := 0, opGain := 0,
                                   opOfs := 0, opTemp := m.get 0x22 THM_TEMP_T, needRef := false, active := 0,
                                   zeros := [] } }
    if o.cmd = 1 then go m.presentChains
    else if o.cmd = 2 then
      if 24 ≤ o.arg % 32 then m.endErr 5 0x02 0
      else if chainPresent m.die.part (o.arg % 32) then go [o.arg % 32]
      else m.endErr 5 0x03 (o.arg % 32)
    else m.endErr 5 0x01 0

/-- Cycles of a calibration period: 2^CALPER, with CALPER above 12 as 12 (R115, R133). -/
def Chip.calPeriod (m : Chip) : Nat := 2 ^ Nat.min 12 (m.get 5 CAL_CFG_CALPER)

/-- A cycle passes: the cycles since a round fell due and since each chain's last pair (R115, R118) run on, up to 4 ×
2¹². -/
def Chip.calCycle (m : Chip) : Chip :=
  let up := fun n => Nat.min 16384 (n + 1)
  { m with cal := { m.cal with since := m.cal.since.map up, age := m.cal.age.map up } }

/-- The STALE mask as STAT shows it: the bits of absent chains read 0 (R118). -/
def Chip.staleMask (m : Chip) : Nat :=
  m.presentChains.foldl (fun n c => if bit (m.get 5 CAL_STAT_STALE) c then setBit n c else n) 0

/-- A chain becomes STALE: 4 × 2^CALPER cycles have passed since its last pair (R118). -/
def Chip.calStale (m : Chip) (c : Nat) : Chip :=
  if bit (m.get 5 CAL_STAT_STALE) c || !chainPresent m.die.part c || decide (atN m.cal.age c < 4 * m.calPeriod) then m
  else
    let m := (m.maskSet 5 CAL_STAT_STALE c).irq 5 5
    m.emit 0x1012 [m.staleMask]

/-- A round falls due: none has, or 2^CALPER cycles have passed since the last one did; it starts, or waits for the
one in progress (R115). -/
def Chip.calRound (m : Chip) : Chip :=
  if !m.enabled 5 || m.cal.since.any (fun n => decide (n < m.calPeriod)) then m
  else
    let m := { m with cal := { m.cal with since := some 0 } }
    if m.cal.round then { m with cal := { m.cal with roundDue := true } }
    else { m with cal := { m.cal with round := true, todo := m.presentChains } }

/-! ### Commands -/

/-- CAL_ROUND_START (R115). -/
def execCalRoundStart (s : State) : Host.Outcome State Fault Refusal := s.run Chip.calRound

/-- CAL_STALE (R118): a chain completed no conversion pair within 4 × 2^CALPER cycles. -/
def execCalStale (chain : Fin 24) (s : State) : Host.Outcome State Fault Refusal :=
  s.run (fun m => m.calStale chain.val)

/-- CAL_ROUND_ALL (R119): OPCMD 0x01. -/
def execCalRoundAll (r : Requester) (s : State) : Host.Outcome State Fault Refusal :=
  s.run (fun m => m.startOp 5 1 (reqCode r) Chip.calStart)

/-- CAL_ONE_CHAIN (R119): OPARG takes `arg` and OPCMD 0x02 is written. -/
def execCalOneChain (r : Requester) (arg : Word) (s : State) : Host.Outcome State Fault Refusal :=
  s.run (fun m => (m.wr (5 * 0x400 + 0x24) arg).startOp 5 2 (reqCode r) Chip.calStart)

end Sys2Proof.Machine
end

