-- ==== Sys2Proof/Machine/Meter.lean ====
section
/-! DEFINITION. The Meter (R120–R130): accumulators, held waypoints, wraps, snapshots. -/

namespace Sys2Proof.Machine

/-- Chain that a VSRC code names (R134). -/
def vsrcChain (k : Nat) : Nat := if k ≤ 2 then 16 + k else if k ≤ 7 then 16 + k else 16

/-- Voltage chain of a meter channel 0–15 in effect for this waypoint (R124). -/
def Chip.vChain (m : Chip) (c : Nat) : Nat := vsrcChain (bitsOf (atN m.met.vsrc (c / 8)) (4 * (c % 8)) 4)

/-- Do both chains of a channel give results (R106) and carry a scale, or does the port have a scale (R124, R281)? -/
def Chip.metScaled (m : Chip) (c : Nat) : Bool :=
  if c < 16 then
    m.chainOn c && m.chainOn (m.vChain c) && atN m.met.scale c != 0 && atN m.met.scale (m.vChain c) != 0
  else m.has (0x10 + (c - 16)) PD_IMCAL_IMGAIN

/-- Truncating division of integers. DESIGN CHOICE, unsafe (log 36). -/
def divTrunc (a : Int) (b : Nat) : Int := if 0 ≤ a then a / b else -((-a) / b)

/-- Charge and energy of one channel over the waypoint, in 2⁻²⁴ nC and 2⁻²⁴ µJ (R121, R122), from the integrals of raw
codes. -/
def Chip.metIntegral (m : Chip) (c : Nat) (x : WpInputs) : Int × Int :=
  let t : Int := x.ticks.toNat
  if c < 16 then
    let v := m.vChain c
    let oi := m.getS 5 CAL_OFS_OFS c
    let ov := m.getS 5 CAL_OFS_OFS v
    let gi : Int := m.get 5 CAL_GAIN_GAIN c
    let gv : Int := m.get 5 CAL_GAIN_GAIN v
    let si : Int := if m.has 3 MEA_CHCFG_INV c then -(atN m.met.scale c) else atN m.met.scale c
    let sv : Int := if m.has 3 MEA_CHCFG_INV v then -(atN m.met.scale v) else atN m.met.scale v
    let q := (atI x.raw c - oi * t) * gi * si * 5
    let e := (atI x.prod c - oi * atI x.raw v - ov * atI x.raw c + oi * ov * t) * gi * gv * si * sv * 5
    (divTrunc q (2 ^ 46), divTrunc e (1000 * 2 ^ 116))
  else
    let n := c - 16
    let pg := 0x10 + n
    let o : Int := m.get pg PD_IMCAL_IMOFS
    let g := m.getS pg PD_IMCAL_IMGAIN
    let q := (atI x.portI n - o * t) * g * 5 * 2 ^ 24
    let e := (atI x.portP n - o * atI x.portV n) * g * 300 * 2 ^ 24
    (divTrunc q 256000, divTrunc e (256 * 4096 * 1000000))

/-- Add a signed integral to the forward or reverse accumulator of a pair (R121); did it wrap (R124)? -/
def accAdd (acc : List Nat) (fwd rev : Nat) (x : Int) : List Nat × Option Nat :=
  let i := if 0 ≤ x then fwd else rev
  let n := atN acc i + absI x
  (setAt acc i (n % 2 ^ 88), if 2 ^ 88 ≤ n then some i else none)

/-- A channel's accumulators are read, take a charge and an energy and are written (R438), with the marks of a wrap
(R124). -/
def Chip.metAdd (m : Chip) (c : Nat) (q e : Int) : Chip :=
  let here := fun k => decide (k < 100) && k / 4 == c
  let m := (m.unitRead 0x12 here).unitWrite 0x12 here
  let x := m.metCh c
  let a := accAdd x.acc 0 1 q
  let b := accAdd a.1 2 3 e
  let m := m.setMet c { x with acc := b.1, wrapC := x.wrapC || a.2.isSome, wrapE := x.wrapE || b.2.isSome }
  (a.2.toList ++ b.2.toList).foldl (fun m k => (m.irq 4 6).emit 0x1013 [c, k]) m

/-- One quantity of a channel at a boundary (R117): its own integral, or in a held waypoint the value per unit time of
the waypoint before; the correction of the held waypoint before; and the correction this one leaves. `prev` is the
waypoint before with its ticks. DESIGN CHOICE, unsafe (log 127). -/
def metQuantity (own prev : Int) (before t : Nat) (fix : Option MetFix) (held : Bool) : Int × Int × Option MetFix :=
  let per := fun (v : Int) (n d : Nat) => if d = 0 then 0 else divTrunc (v * n) d
  let now := if held then per prev t before else own
  let back := match fix with
    | none => 0
    | some x => divTrunc (per x.prev x.ticks x.before + per now x.ticks t) 2 - x.added
  (now, back, if held then some ⟨prev, before, now, t⟩ else none)

/-- One channel at a boundary (R117): charge depends on its current chain, energy on both its chains. It answers what
was added, and the energy without the correction, which the Ledger uses. DESIGN CHOICE, unsafe (log 127). -/
def Chip.metChannel (m : Chip) (c : Nat) (x : WpInputs) (heldI heldV : Bool) : Chip × (Int × Int) × Int :=
  let ch := m.metCh c
  let t := x.ticks.toNat
  let own := m.metIntegral c x
  let q := metQuantity own.1 ch.q ch.ticks t ch.fixQ heldI
  let e := metQuantity own.2 ch.e ch.ticks t ch.fixE (heldI || heldV)
  let m := m.setMet c { ch with q := q.1, e := e.1, ticks := t, fixQ := q.2.2, fixE := e.2.2, noScale := false }
  (m.metAdd c (q.1 + q.2.1) (e.1 + e.2.1), (q.1 + q.2.1, e.1 + e.2.1), e.1)

/-- A channel that does not count has no waypoint before the next, and no correction to come (R117). -/
def MetCh.forget (x : MetCh) : MetCh := { x with q := 0, e := 0, ticks := 0, fixQ := none, fixE := none }

/-- The Meter's additions of the waypoint just closed (R121–R124), by channel, and what each added. DEDUCED, unsafe
(log 96); DESIGN CHOICE, unsafe (log 127). -/
def Chip.metWaypoint (m : Chip) (x : WpInputs) (held : List Nat) : Chip :=
  let on := m.enabled 3 && m.enabled 4
  let step := fun (a : Chip × List ((Int × Int) × Int)) (c : Nat) =>
    let m := a.1
    if metPresent m.die.part c && m.metScaled c then
      if on && x.ticks.toNat != 0 then
        let r := m.metChannel c x (decide (c < 16) && held.contains c) (decide (c < 16) && held.contains (m.vChain c))
        (r.1, a.2 ++ [r.2])
      else (m.setMet c { (if on then m.metCh c else (m.metCh c).forget) with noScale := false }, a.2 ++ [((0, 0), 0)])
    else (m.setMet c { (m.metCh c).forget with noScale := true }, a.2 ++ [((0, 0), 0)])
  let a := (List.range 24).foldl step (m, [])
  let m := a.1
  let net := (a.2.take 12).foldl (fun (s : Int × Int) v => (s.1 + v.1.1, s.2 + v.1.2)) (0, 0)
  let idle := (List.range 12).all (fun c => !chainPresent m.die.part c || (m.metCh c).noScale)
  let m := m.setMet 24 { m.metCh 24 with noScale := idle }
  let m := if on && !idle then m.metAdd 24 net.1 net.2 else m
  { m with met := { m.met with wp := a.2.map (fun v => (v.1.1, v.2)) ++ [net], ticks := x.ticks.toNat } }

/-- SCALE and VSRC take effect for the whole waypoint that begins (R124). -/
def Chip.metLatch (m : Chip) : Chip :=
  { m with met := { m.met with
      scale := (List.range 24).map (fun c => m.get 5 CAL_SCALE_SCALE c),
      vsrc := [m.get 4 MET_VSRC0_VSRC, m.get 4 MET_VSRC1_VSRC] } }

/-- Low or high word of an accumulator (R120). -/
def accWord (acc : List Nat) (k : Nat) (hi : Bool) : Nat :=
  let v := atN acc k / 2 ^ 24
  if hi then v / 2 ^ 32 % 2 ^ 32 else v % 2 ^ 32

/-- Word `w` 0–7 of the live accumulators of a channel; an absent channel reads 0 (R6). -/
def Chip.liveWord (m : Chip) (c w : Nat) : Nat :=
  if metPresent m.die.part c then accWord (m.metCh c).acc (w / 2) (w % 2 == 1) else 0

/-- A requester reads the live words of a channel (R438). -/
def Chip.liveRead (m : Chip) (c : Nat) : Chip := m.unitRead 0x12 (fun k => decide (k < 100) && k / 4 == c)

/-- A requester reads a word of a channel in a bank (R438). -/
def Chip.snapRead (m : Chip) (b c w : Nat) : Chip := m.unitRead 0x12 (fun k => k == 100 + 100 * b + 4 * c + w / 2)

/-- A snapshot bank. -/
def Chip.bank (m : Chip) (b : Nat) : Snap := if b = 0 then m.met.bankA else m.met.bankB

/-- Word `w` of a channel in a bank; 0 in a free bank (R134). DEDUCED, safe (log 24). -/
def Chip.snapWord (m : Chip) (b c w : Nat) : Nat :=
  let x := m.bank b
  if x.free || !metPresent m.die.part c then 0 else accWord ((x.acc[c]?).getD []) (w / 2) (w % 2 == 1)

/-! ### Snapshots (R128–R130) -/

/-- Is an armed snapshot's boundary this one (R129, R130)? DESIGN CHOICE, unsafe (log 135). -/
def Chip.snapDue (m : Chip) : Bool :=
  let wp := m.tim.angle / 256
  m.has 4 MET_SNAPCTL_ARM &&
  (m.has 4 MET_SNAPCTL_NEXT || m.met.late || m.met.defer ||
   (wp == m.get 4 MET_SNAPCTL_TGTWP &&
    (if m.has 4 MET_SNAPCTL_PER then
       m.tim.cycle % 2 ^ m.get 4 MET_SNAPCTL_DIV == m.get 4 MET_SNAPCYC_CYC % 2 ^ m.get 4 MET_SNAPCTL_DIV
     else m.tim.cycle == m.get 4 MET_SNAPCYC_CYC)))

/-- A snapshot goes into the free bank, or is skipped (R128); a taken one sets IRQ bit SNAP, the snapshot line and the
Depot entry of source 9 (R129, R388). DESIGN CHOICE, unsafe (log 135). -/
def Chip.snapTake (m : Chip) : Chip :=
  let late := m.met.late
  let defer := m.met.defer
  let m := { m with met := { m.met with late := false, defer := false } }
  let b := if m.met.bankA.free then some 0 else if m.met.bankB.free then some 1 else none
  match b with
  | none =>
    let here := m.has 4 MET_SNAPCTL_NEXT || m.has 4 MET_SNAPCTL_PER
    ((m.count 4 MET_SNAPSTAT_SKIP).irq 4 5).emit 0x1014
      (if here then [m.tim.cycle, m.tim.angle / 256] else [m.get 4 MET_SNAPCYC_CYC, m.get 4 MET_SNAPCTL_TGTWP])
  | some k =>
    let m := (m.unitRead 0x12 (fun n => decide (n < 100))).unitWrite 0x12 (fun n => n / 100 == k + 1)
    let sn : Snap := { free := false, acc := m.met.chans.map MetCh.acc, stamp := m.stamp, tick := m.tim.tick,
                       late := late, defer := defer }
    let m := { m with met := if k = 0 then { m.met with bankA := sn } else { m.met with bankB := sn } }
    let m := (m.put 4 MET_SNAPSTAT_SEQ (m.get 4 MET_SNAPSTAT_SEQ + 1)).put 4 MET_SNAPSTAT_LATEST k
    let m := if k = 0 then m.put 4 MET_SNAPSTAT_FREEA 0 else m.put 4 MET_SNAPSTAT_FREEB 0
    let m := if m.has 4 MET_SNAPCTL_PER then m else m.put 4 MET_SNAPCTL_ARM 0
    ((m.irq 4 4).raise 24).depot 9 1 (m.tim.tick % 2 ^ 48 + k * 2 ^ 48 + b2n late * 2 ^ 49 + b2n defer * 2 ^ 50)

/-- The snapshot of stage 2 at a boundary (R129). -/
def Chip.snapStage (m : Chip) : Chip :=
  if m.snapDue then
    if m.has 4 MET_SNAPCTL_LOCKREQ && !m.lockPermitted then { m with met := { m.met with defer := true } }
    else m.snapTake
  else m

/-- A write of SNAPCTL (R129, R130): a target that the present stamp has reached is late. DEDUCED, unsafe (log 96). -/
def Chip.snapctlWrite (m : Chip) (v : Nat) : Chip :=
  let old := (m.rd (MET_SNAPCTL_ARM.addr 4)).toNat
  let m := m.wr (MET_SNAPCTL_ARM.addr 4) (BitVec.ofNat 32 (plainValue (fieldsAt 4 0x80) old v true))
  let tgt := m.get 4 MET_SNAPCYC_CYC * 65536 + m.get 4 MET_SNAPCTL_TGTWP * 256
  let late := m.has 4 MET_SNAPCTL_ARM && !m.has 4 MET_SNAPCTL_NEXT && !m.has 4 MET_SNAPCTL_PER &&
    !stampBefore m.stamp.num tgt
  { m with met := { m.met with late := late, defer := false } }

/-- A forward cycle adjustment skips an armed target: it is taken late (R130). DEDUCED, unsafe (log 96). -/
def Chip.snapSkip (m : Chip) (old new : Nat) : Chip :=
  let skipped := (new + 2 ^ 32 - (old + 1)) % 2 ^ 32
  let ahead := m.get 4 MET_SNAPCYC_CYC + 2 ^ 32 - (old + 1)
  let period := if m.has 4 MET_SNAPCTL_PER then 2 ^ m.get 4 MET_SNAPCTL_DIV else 2 ^ 32
  if m.has 4 MET_SNAPCTL_ARM && !m.has 4 MET_SNAPCTL_NEXT && decide (ahead % period < skipped) then
    { m with met := { m.met with late := true } }
  else m

/-- A write of SNAPREL frees the named banks at once (R128, R134). -/
def Chip.snaprelWrite (m : Chip) (v : Nat) : Chip :=
  let m := if bit v 0 then { m.put 4 MET_SNAPSTAT_FREEA 1 with met := { m.met with bankA := {} } } else m
  if bit v 1 then { m.put 4 MET_SNAPSTAT_FREEB 1 with met := { m.met with bankB := {} } } else m

/-! ### Clearing (R127) -/

/-- Start of MET operations: 0x01 clears accumulators at the next boundary. -/
def Chip.metStart (m : Chip) : Chip :=
  match m.opOf 4 with
  | none => m
  | some o =>
    if o.cmd ≠ 1 then m.endErr 4 0x01 0
    else if !m.unlockedFor o.req 4 then m.endErr 4 0x04 0
    else
      match (List.range 25).find? (fun c => bit o.arg c && !metPresent m.die.part c) with
      | some c => m.endErr 4 0x03 c
      | none => m

/-- A clear that waits applies after the additions and the snapshot of a boundary (R127). -/
def Chip.metClearStage (m : Chip) : Chip :=
  match m.opOf 4 with
  | none => m
  | some o =>
    let m := (List.range 25).foldl (fun m c => if bit o.arg c then m.setMet c { m.metCh c with acc := [0, 0, 0, 0] } else m)
      (m.unitWrite 0x12 (fun k => decide (k < 100) && bit o.arg (k / 4)))
    m.endDone 4 [BitVec.ofNat 32 m.tim.cycle, BitVec.ofNat 32 (m.flags * 65536 + m.tim.angle)]

/-- Stage 2 of R15: additions, snapshot, clear; SCALE and VSRC for the waypoint that begins. -/
def Chip.meterStage (m : Chip) (x : WpInputs) (held : List Nat) : Chip :=
  (((m.metWaypoint x held).snapStage).metClearStage).metLatch

/-- A requester's selected meter channel (R126). -/
def Chip.metSel (m : Chip) (r : Nat) : Nat := (m.rd (reqKey r (MET_SEL_CH.addr 4))).toNat % 32

/-- A requester's selected bank (R134). -/
def Chip.metBank (m : Chip) (r : Nat) : Nat := (m.rd (reqKey r (MET_SNAPBANK_BANK.addr 4))).toNat % 2

/-- The live words of the selected channel go into the requester's shadow (R126). -/
def Chip.liveShadow (m : Chip) (r : Nat) : Chip :=
  (List.range 8).foldl (fun m' w =>
    m'.setShadow r (MET_CHGF_LO_DATA.addr 4 + 4 * w) (BitVec.ofNat 32 (m.liveWord (m.metSel r) w))) m

/-! ### Commands -/

/-- CHGF_LO_READ (R126): the selected channel's eight live words go into the requester's shadow. -/
def execChgfLoRead (r : Requester) (s : State) : Host.Outcome State Fault Refusal :=
  s.run (fun m => (m.liveRead (m.metSel (reqCode r))).liveShadow (reqCode r))

/-- MET_CLEAR_ACCUMULATORS (R127): OPARG takes the mask and OPCMD 0x01 is written. -/
def execMetClearAccumulators (r : Requester) (mask : Word) (s : State) : Host.Outcome State Fault Refusal :=
  s.run (fun m => (m.wr (4 * 0x400 + 0x24) mask).startOp 4 1 (reqCode r) Chip.metStart)

/-- SNAPCTL_WRITE (R130). -/
def execSnapctlWrite (r : Requester) (v : Word) (s : State) : Host.Outcome State Fault Refusal :=
  s.run (fun m => m.onPage (reqCode r) 4 (fun m => m.snapctlWrite v.toNat))

/-- SNAPREL_WRITE (R128). -/
def execSnaprelWrite (r : Requester) (v : Word) (s : State) : Host.Outcome State Fault Refusal :=
  s.run (fun m => m.onPage (reqCode r) 4 (fun m => m.snaprelWrite v.toNat))

end Sys2Proof.Machine
end

