-- ==== Sys2Proof/Machine/Phases.lean ====
section
/-! DEFINITION. The Phase Manager and the PWM phases (R168–R200), with what a change of a loop's mode does at once
(R160): currents, adding and shedding, balance, phase faults, the over-voltage latch, the set-point inputs and the
output levels. -/

namespace Sys2Proof.Machine

/-- Page of a loop. -/
def marPg (x : Nat) : Nat := 6 + x

/-- Page of a phase. -/
def pwmPg (k : Nat) : Nat := 0x0A + k / 8

/-- Names of a loop's modes (R160). -/
abbrev mdOff : Nat := 0
abbrev mdManual : Nat := 1
abbrev mdAuto : Nat := 2
abbrev mdTripped : Nat := 3
abbrev mdStandby : Nat := 4

/-- A loop outside its registers. -/
def Chip.loop (m : Chip) (x : Nat) : LoopSt := (m.mar[x]?).getD {}

/-- Change a loop outside its registers. -/
def Chip.modLoop (m : Chip) (x : Nat) (f : LoopSt → LoopSt) : Chip := { m with mar := setAt m.mar x (f (m.loop x)) }

/-- The Phase Manager's state of a loop. -/
def Chip.phl (m : Chip) (x : Nat) : PhLoop := (m.phm.loops[x]?).getD {}

/-- Change the Phase Manager's state of a loop. -/
def Chip.modPhl (m : Chip) (x : Nat) (f : PhLoop → PhLoop) : Chip :=
  { m with phm := { m.phm with loops := setAt m.phm.loops x (f (m.phl x)) } }

/-- A phase outside its registers. -/
def Chip.ph (m : Chip) (k : Nat) : PhaseSt := (m.phm.phases[k]?).getD {}

/-- Change a phase outside its registers. -/
def Chip.modPh (m : Chip) (k : Nat) (f : PhaseSt → PhaseSt) : Chip :=
  { m with phm := { m.phm with phases := setAt m.phm.phases k (f (m.ph k)) } }

/-- A loop's mode. -/
def Chip.mode (m : Chip) (x : Nat) : Nat := m.get (marPg x) MAR_STAT_MODE

/-- A loop's owner: 0 commands, 1 Hold-up, 2 protection. -/
def Chip.owner (m : Chip) (x : Nat) : Nat := m.get (marPg x) MAR_STAT_OWNER

/-- Is the loop claimed by a rank above Sequencing and Cap (R17, R20, R222): owned, or asked for by a Hold-up transfer
that commits at its next frame boundary? DEDUCED, unsafe (log 111). -/
def Chip.claimed (m : Chip) (x : Nat) : Bool := m.owner x != 0 || bit (m.get 0x1F HLD_STAT_OWNED) x

/-- The loop current in 1/16 A (R152). -/
def Chip.iloop (m : Chip) (x : Nat) : Int := m.getS (marPg x) MAR_ILOOP_I

/-- Feedback chain of a loop; a number outside 16–23 is treated as 16 (R167). -/
def Chip.fbch (m : Chip) (x : Nat) : Nat :=
  let c := m.get (marPg x) MAR_CFG_FBCH
  if 16 ≤ c ∧ c ≤ 23 then c else 16

/-- The latest fast sample of a loop's feedback chain. -/
def Chip.feedback (m : Chip) (x : Nat) : Int := atI m.mea.fast (m.fbch x)

/-! ### Assignment (R176) -/

/-- The loop a phase is assigned to; codes 4–7 leave it unassigned. -/
def Chip.phLoop (m : Chip) (k : Nat) : Option Nat :=
  let l := m.get (pwmPg k) PWM_PHCFG_LOOP (k % 8)
  if k < nPhases m.die.part ∧ l < 4 then some l else none

/-- Phases assigned to a loop, ascending. -/
def Chip.assigned (m : Chip) (x : Nat) : List Nat := (List.range 16).filter (fun k => m.phLoop k == some x)

/-- Is a phase removed (R188)? -/
def Chip.phRemoved (m : Chip) (k : Nat) : Bool :=
  bit (m.get 0x0C PHM_REMOV_SENSE) k || bit (m.get 0x0C PHM_REMOV_OPEN) k

/-- Available phases of a loop: assigned and not removed. -/
def Chip.availPh (m : Chip) (x : Nat) : List Nat := (m.assigned x).filter (fun k => !m.phRemoved k)

/-- Active and shedding phases of a loop. -/
def Chip.actPh (m : Chip) (x : Nat) : List Nat := bitsUp (m.get 0x0C PHM_ACT_ACTIVE x) 16

/-- A loop's active phase count N; a shedding phase counts. -/
def Chip.nAct (m : Chip) (x : Nat) : Nat := (m.actPh x).length

/-- `ACTx.ASSIGNED` follows the assignment. -/
def Chip.actAssigned (m : Chip) : Chip :=
  (List.range 4).foldl (fun m x => m.put 0x0C PHM_ACT_ASSIGNED ((m.assigned x).foldl setBit 0) x) m

/-- Is the phase shedding? -/
def Chip.shedding (m : Chip) (x k : Nat) : Bool :=
  match (m.phl x).shed with
  | some (j, _) => j == k
  | none => false

/-- A phase's current in 1/16 A. -/
def Chip.iph (m : Chip) (k : Nat) : Int := m.getS (pwmPg k) PWM_PHST_I (k % 8)

/-- Store a phase's current. -/
def Chip.setIph (m : Chip) (k : Nat) (i : Int) : Chip := m.putS (pwmPg k) PWM_PHST_I (satS 16 i) (k % 8)

/-- A phase's trim becomes 0, fraction included (R184). -/
def Chip.trimZero (m : Chip) (k : Nat) : Chip :=
  (m.modPh k (fun s => { s with trim := 0 })).put (pwmPg k) PWM_PHD_TRIM 0 (k % 8)

/-- A phase outside the active ones: no pulse, no conversion, and its fault and imbalance counts from 0. -/
def PhaseSt.calm (s : PhaseSt) : PhaseSt :=
  { s with openRun := 0, rangeRun := 0, disRun := 0, others := [], imbRun := 0, okRun := 0, pulse := false, rise := 0, ton := 0,
           tail := 0, reqs := [] }

/-- A phase takes a stored current until its next conversion, and its trim becomes 0. -/
def Chip.seedPh (m : Chip) (k : Nat) (i : Int) : Chip :=
  ((m.setIph k i).modPh k (fun s => { s with seq := m.get 3 MEA_IPHRES_SEQ k })).trimZero k

/-- The mean magnitude of the loop current over `n` phases. -/
def meanAbs (i : Int) (n : Nat) : Int := if n = 0 then 0 else absI i / n

/-! ### Telling of happenings -/

/-- A Depot entry of source 15 (R388). -/
def Chip.phDepot (m : Chip) (x k tag : Nat) : Chip :=
  m.depot 15 tag (x + k * 16 + ux 16 (m.iloop x) * 65536 + m.get 0x0C PHM_DRQ_EXCESS x * 2 ^ 32)

/-- A Depot entry of the loop's source, 11–14 (R388). -/
def Chip.loopDepot (m : Chip) (x tag : Nat) : Chip :=
  let pg := marPg x
  m.depot (11 + x) tag (m.get pg MAR_DUTY_D + m.mode x * 65536 + m.owner x * 2 ^ 19 + m.get pg MAR_INTEG_I * 2 ^ 32)

/-- A write to a PHM or PWM page is refused (R176, R190, R193). DEDUCED, unsafe (log 40). -/
def Chip.phRefuse (m : Chip) (pg off r : Nat) : Chip := (m.irq 0x0C 9).emit 0x201A [pg, off, r]

/-- A command to a loop is refused (R164). -/
def Chip.marRefuse (m : Chip) (x off : Nat) : Chip := (m.irq (marPg x) 9).emit 0x2002 [x, off, m.owner x]

/-! ### Modes (R160) -/

/-- The phase-loss derate request ends (R189). -/
def Chip.drRelease (m : Chip) (x : Nat) : Chip :=
  ((m.put 0x0C PHM_DRQ_ASSERTED 0 x).put 0x0C PHM_DRQ_EXCESS 0 x).modPhl x (fun s => { s with drRun := 0 })

/-- Histories and integrator cleared, and no duty. -/
def Chip.marClear (m : Chip) (x : Nat) : Chip :=
  let pg := marPg x
  let m := m.modLoop x (fun s => { s with x1 := 0, x2 := 0, v1 := 0, v2 := 0, integ := 0 })
  (((m.wr (MAR_INTEG_I.addr pg) 0).wr (MAR_DUTY_D.addr pg) 0).put pg MAR_STAT_CLIM 0).put pg MAR_STAT_SAT 0

/-- A loop's owner changes. -/
def Chip.setOwner (m : Chip) (x o : Nat) : Chip := m.put (marPg x) MAR_STAT_OWNER o

/-- A loop enters a mode under an owner. A change of mode sets IRQ bit MODE, asserts the mode line, counts in XFER and
writes code 0x2001 (R160). -/
def Chip.setMode (m : Chip) (x md o : Nat) : Chip :=
  let was := m.mode x
  let m := (m.put (marPg x) MAR_STAT_MODE md).setOwner x o
  if was = md then m
  else
    let m := if md = mdOff ∨ md = mdTripped ∨ md = mdStandby then m.drRelease x else m
    ((((m.irq (marPg x) 4).raise (32 + x)).count (marPg x) MAR_CNT_XFER).emit 0x2001 [x, was, md, o]).loopDepot x 1

/-- No phase of the loop is driven, and the sum of its phases' currents is 0. -/
def Chip.phStop (m : Chip) (x : Nat) : Chip :=
  ((m.put 0x0C PHM_ACT_ACTIVE 0 x).putS (marPg x) MAR_ILOOP_I 0).modPhl x (fun s =>
    { s with shed := none, removedAge := 0, addRun := 0, shedRun := 0, step := 0 })

/-- Phases of a loop become its active ones, with counts from 0. One that was not active is added, with its trim at 0
(R184); one that was keeps its trim and its imbalance counts (R185). DEDUCED, unsafe (log 136). -/
def Chip.phStart (m : Chip) (x : Nat) (ks : List Nat) : Chip :=
  let was := m.actPh x
  let m := m.put 0x0C PHM_ACT_ACTIVE (ks.foldl setBit 0) x
  let m := ks.foldl (fun m k =>
    if was.contains k then m.modPh k (fun s => { s.calm with imbRun := s.imbRun, okRun := s.okRun })
    else (m.trimZero k).modPh k PhaseSt.calm) m
  m.modPhl x (fun s => { s with addRun := 0, shedRun := 0, shed := none, step := 0, removals := [], removedAge := 0,
                                clim := false, iPrev := m.iloop x })

/-- The loop leaves OFF or STANDBY: the frames of the absolute imbalance threshold start again (R185, R197). -/
def Chip.phWindow (m : Chip) (x : Nat) : Chip := m.modPhl x (fun s => { s with frames := 0 })

/-- The trip of a loop (R160), cause 1 over-voltage latch, 2 no phase: at once, in any mode but OFF. -/
def Chip.trip (m : Chip) (x cause : Nat) : Chip :=
  if m.mode x = mdOff then m
  else
    let pg := marPg x
    let m := if cause = 1 then m.put pg MAR_STAT_TOV 1
      else (m.put pg MAR_STAT_TNOPH 1).modLoop x (fun s => { s with phBack := false })
    if m.mode x = mdTripped then m
    else
      let m := ((m.setMode x mdTripped 2).marClear x).phStop x
      let m := if bit (m.get 0x1F HLD_STAT_OWNED) x then
          { m.maskClr 0x1F HLD_STAT_OWNED x with hld := { m.hld with tripped := setBit m.hld.tripped x } }
        else m
      (m.irq pg 10).emit 0x2006 [x, cause]

/-! ### Currents (R177) -/

/-- Integer current of a conversion (R177), signed by CLPOL. -/
def Chip.phConvert (m : Chip) (x k code : Nat) : Int :=
  let i := ((code : Int) - m.get (pwmPg k) PWM_PHCAL_IOFS (k % 8)) * m.getS (pwmPg k) PWM_PHCAL_IGAIN (k % 8) / 4096
  if m.has (marPg x) MAR_CFG_CLPOL then -i else i

/-- Sum of the currents of a list of phases. -/
def Chip.sumIph (m : Chip) (ks : List Nat) : Int := (ks.map m.iph).foldl (· + ·) 0

/-- The latest conversions of the active and shedding phases and their sum, the loop current. -/
def Chip.phDeliver (m : Chip) (x : Nat) : Chip :=
  let m := (m.actPh x).foldl (fun m k =>
    let q := m.get 3 MEA_IPHRES_SEQ k
    if q = (m.ph k).seq then m
    else
      let code := m.get 3 MEA_IPHRES_CODE k
      (m.setIph k (m.phConvert x k code)).modPh k (fun s => { s with seq := q })) m
  m.putS (marPg x) MAR_ILOOP_I (satS 16 (m.sumIph (m.actPh x)))

/-! ### Adding and shedding (R178–R183) -/

/-- MINPH; 0 is treated as 1. -/
def Chip.minPh (m : Chip) (x : Nat) : Nat := Nat.max 1 (m.get 0x0C PHM_ADSHB_MINPH x)

/-- Is adding and shedding in force: AUTO with ADDTH above SHEDTH (R179)? -/
def Chip.phAuto (m : Chip) (x : Nat) : Bool :=
  m.has 0x0C PHM_ADSHB_AUTO x && decide (m.get 0x0C PHM_ADSHA_SHEDTH x < m.get 0x0C PHM_ADSHA_ADDTH x)

/-- Set or clear one loop's bit of an LSTAT field. -/
def Chip.lstat (m : Chip) (f : Fld) (x : Nat) (v : Bool) : Chip :=
  if v then m.maskSet 0x0C f x else m.maskClr 0x0C f x

/-- LSTAT.CFGERR follows AUTO and the thresholds, in every mode (R179). -/
def Chip.adshCheck (m : Chip) (x : Nat) : Chip :=
  m.lstat PHM_LSTAT_CFGERR x (m.has 0x0C PHM_ADSHB_AUTO x && !m.phAuto x)

/-- A shed ramp is aborted (R181): full share, stored current `i`, trim 0. -/
def Chip.shedAbort (m : Chip) (x : Nat) (i : Int) : Chip :=
  match (m.phl x).shed with
  | some (k, _) => (m.modPhl x (fun s => { s with shed := none, shedRun := 0 })).seedPh k i
  | none => m

/-- Does a hold-off run (R182)? -/
def Chip.holding (m : Chip) (x : Nat) : Bool :=
  bit (m.get 0x0C PHM_LSTAT_HOLDOFF) x && decide ((m.phl x).holdFrames < 256)

/-- A load step of the frame just ended (R181, R182): the ramp is aborted, the hold-off starts or restarts, and the
first abort in it is told. -/
def Chip.stepServe (m : Chip) (x : Nat) : Chip :=
  let s := m.phl x
  if s.step = 0 then m
  else
    let running := m.holding x
    let told := running && s.holdTold
    let m := (m.lstat PHM_LSTAT_HOLDOFF x true).modPhl x (fun s => { s with holdFrames := 0, holdTold := told, step := 0 })
    match s.shed with
    | some (k, _) =>
      let m := (m.shedAbort x (meanAbs s.iPrev (m.nAct x))).count 0x0C PHM_CNT_ABORTS
      if told then m
      else
        (((m.irq 0x0C 4).raise (44 + x)).emit 0x2010 [x, k, sp s.iPrev, s.step]).phDepot x k 1
          |>.modPhl x (fun s => { s with holdTold := true })
    | none => m

/-- A phase is added (R178). -/
def Chip.phAdd (m : Chip) (x k : Nat) : Chip :=
  let i := meanAbs (m.iloop x) (m.nAct x + 1)
  let m := (m.maskSet 0x0C PHM_ACT_ACTIVE k x).modPh k PhaseSt.calm
  (m.seedPh k i).modPhl x (fun s => { s with addRun := 0, shedRun := 0 })

/-- The inactive available phases of a loop. -/
def Chip.idlePh (m : Chip) (x : Nat) : List Nat := (m.availPh x).filter (fun k => !(m.actPh x).contains k)

/-- Adds at a boundary: one phase by the rule of R178; without AUTO every available phase (R183). -/
def Chip.addServe (m : Chip) (x : Nat) : Chip :=
  let s := m.phl x
  if m.phAuto x then
    let due := s.clim || decide (Nat.max 1 (m.get 0x0C PHM_ADSHB_ADDDLY x) ≤ s.addRun)
    match m.idlePh x with
    | k :: _ => if due then m.phAdd x k else m
    | [] => m
  else if s.shed.isSome then m
  else (m.idlePh x).foldl (fun m k => m.phAdd x k) m

/-- The shed ramp moves on a frame, and its end commits the shed (R179). -/
def Chip.shedStep (m : Chip) (x : Nat) : Chip :=
  match (m.phl x).shed with
  | some (k, j) =>
    if j < 4 then m.modPhl x (fun s => { s with shed := some (k, j + 1) })
    else ((m.maskClr 0x0C PHM_ACT_ACTIVE k x).modPh k PhaseSt.calm).modPhl x
      (fun s => { s with shed := none, addRun := 0, shedRun := 0 })
  | none => m

/-- A shed starts (R179, R182, R183): the highest-numbered active phase. -/
def Chip.shedStart (m : Chip) (x : Nat) : Chip :=
  let s := m.phl x
  if m.phAuto x && decide (Nat.max 1 (m.get 0x0C PHM_ADSHB_SHEDDLY x) ≤ s.shedRun) && decide (m.minPh x < m.nAct x) &&
      s.shed.isNone && !m.holding x && m.owner x != 1 then
    match (m.actPh x).getLast? with
    | some k => m.modPhl x (fun s => { s with shed := some (k, 1), shedRun := 0 })
    | none => m
  else m

/-! ### Removal and re-admission (R186–R190) -/

/-- One removal commits (R188, R190). DEDUCED, unsafe (log 39). -/
def Chip.phRemove (m : Chip) (x : Nat) (r : PhRemoval) : Chip :=
  let k := r.phase
  let own := m.shedding x k
  let m := if own then m.modPhl x (fun s => { s with shed := none }) else m
  let m := ((m.maskClr 0x0C PHM_ACT_ACTIVE k x).trimZero k).modPh k PhaseSt.calm
  let m := m.shedAbort x (meanAbs (m.iloop x) (m.nAct x))
  let m := (((m.count 0x0C PHM_CNT_REMOVALS).irq 0x0C 5).raise (48 + x)).modPhl x (fun s =>
    { s with removedAge := 2, addRun := 0, shedRun := 0 })
  if r.sense then
    ((m.maskSet 0x0C PHM_REMOV_SENSE k).emit 0x2012 [x, k, r.par]).phDepot x k 3
  else
    let m := ((m.maskSet 0x0C PHM_REMOV_OPEN k).emit 0x2011 [x, k, r.par]).phDepot x k 2
    let n := m.get (pwmPg k) PWM_PHST_OPNCNT (k % 8)
    let m := m.put (pwmPg k) PWM_PHST_OPNCNT (Nat.min 3 (n + 1)) (k % 8)
    if 2 ≤ n then (m.maskSet 0x0C PHM_OPNLAT_LATCHED k).emit 0x2017 [x, k]
    else m.modPh k (fun s => { s with readmit := true, remTick := m.tim.tick, remPeriod := (m.phl x).period })

/-- Removals decided in the frame just ended commit; the last active phase's removal trips the loop (R188, R160). In a
loop that an over-voltage latch tripped meanwhile they commit too, and no available phase left is a second cause.
DEDUCED, unsafe (log 136). -/
def Chip.removeServe (m : Chip) (x : Nat) : Chip :=
  let rs := (m.phl x).removals
  let m := m.modPhl x (fun s => { s with removals := [] })
  let m := rs.foldl (fun m r => m.phRemove x r) m
  if m.mode x = mdTripped then
    let m := m.modPhl x (fun s => { s with removedAge := 0 })
    if rs.isEmpty || !(m.availPh x).isEmpty then m else m.trip x 2
  else if rs.isEmpty || m.nAct x ≠ 0 then m.putS (marPg x) MAR_ILOOP_I (satS 16 (m.sumIph (m.actPh x)))
  else m.trip x 2

/-- A phase is available again (R190), 1 timed, 2 host clear. -/
def Chip.phReadmit (m : Chip) (k how : Nat) : Chip :=
  let l := m.get (pwmPg k) PWM_PHCFG_LOOP (k % 8)
  let m := ((m.modPh k (fun s => { s with readmit := false })).trimZero k).emit 0x2018 [l, k, how]
  match m.phLoop k with
  | some x => if m.phRemoved k then m else (m.drRelease x).modLoop x (fun s => { s with phBack := true })
  | none => m

/-- The Phase Manager's current limit: IPHMAX times the active count (R153, R188). -/
def Chip.phLimit (m : Chip) (x : Nat) : Nat := m.get 0x0C PHM_LIM_IPHMAX x * m.nAct x

/-- The derate request of a loop in a frame (R189). DEDUCED, unsafe (log 39). -/
def Chip.drFrame (m : Chip) (x : Nat) : Chip :=
  let lim := m.phLimit x
  let i := absI (m.iloop x)
  let ex := satU 16 (i - lim)
  let age := (m.phl x).removedAge
  let m := m.modPhl x (fun s => { s with removedAge := s.removedAge - 1 })
  if m.has 0x0C PHM_DRQ_ASSERTED x then
    (m.put 0x0C PHM_DRQ_EXCESS ex x).modPhl x (fun s => { s with drRun := if i ≤ lim then s.drRun + 1 else 0 })
  else if age = 1 ∧ lim < i then
    let m := ((m.put 0x0C PHM_DRQ_ASSERTED 1 x).put 0x0C PHM_DRQ_EXCESS ex x).modPhl x (fun s => { s with drRun := 0 })
    ((m.irq 0x0C 10).emit 0x2013 [x, m.nAct x, ex]).phDepot x 0 5
  else m

/-! ### Tests of a frame -/

/-- A chain's value in 1/16 of its unit: code times SCALE, 2⁻⁴⁰ A or V per code (R124). -/
def Chip.chain16 (m : Chip) (c : Nat) (code : Int) : Int := code * m.get 5 CAL_SCALE_SCALE c / 2 ^ 36

/-- Balance of one active phase (R184). -/
def Chip.balance (m : Chip) (x k : Nat) : Chip :=
  if m.has (marPg x) MAR_STAT_CLIM || m.shedding x k || bit (m.get 0x0C PHM_LSTAT_CM) x then m
  else
    let n : Int := m.nAct x
    let b : Int := m.get 0x0C PHM_BAL_BALMAX x * 4096
    let t := clampI (-b) b ((m.ph k).trim + divFloor (m.get 0x0C PHM_BAL_KBAL x * (m.iloop x - n * m.iph k)) n)
    (m.modPh k (fun s => { s with trim := t })).putS (pwmPg k) PWM_PHD_TRIM (divNear t 4096) (k % 8)

/-- The imbalance test of one phase (R185). -/
def Chip.imbalance (m : Chip) (x k : Nat) : Chip :=
  let n := m.nAct x
  let iavg := divFloor (m.iloop x) n
  let th := if (m.phl x).frames < 1024 then m.get 0x0C PHM_IMB_IMBABS x
    else Nat.max (m.get 0x0C PHM_IMB_IMBMIN x) (m.get 0x0C PHM_IMB_IMBREL x * absI iavg / 256)
  let isOver := decide (th < absI (m.iph k - iavg))
  let s := m.ph k
  let up := if isOver then s.imbRun + 1 else 0
  let dn := if isOver then 0 else s.okRun + 1
  let m := m.modPh k (fun s => { s with imbRun := Nat.min up 64, okRun := Nat.min dn 64 })
  let was := m.has (pwmPg k) PWM_PHST_IMB (k % 8)
  if !was && decide (64 ≤ up) then
    ((m.put (pwmPg k) PWM_PHST_IMB 1 (k % 8)).irq 0x0C 7).emit 0x2016 [x, k, sp (m.iph k), sp iavg]
  else if was && decide (64 ≤ dn) then m.put (pwmPg k) PWM_PHST_IMB 0 (k % 8)
  else m

/-- Largest less smallest of a list of integers. -/
def spanOf (l : List Int) : Int :=
  match l with
  | [] => 0
  | a :: t => t.foldl maxI a - t.foldl minI a

/-- Which test of R187 a phase's current sense fails in this frame, 0 for none; and the phase with its counts run on. -/
def Chip.senseTest (m : Chip) (x k : Nat) : Nat × PhaseSt :=
  let s := m.ph k
  let code := m.get 3 MEA_IPHRES_CODE k
  let n := m.nAct x
  let i := m.iph k
  let others := m.sumIph (m.actPh x) - i
  let range := if code ≤ 2 ∨ 4093 ≤ code then s.rangeRun + 1 else 0
  let run := if code = s.code then (others :: s.others).take 64 else [others]
  let c := m.get 0x0C PHM_LIM_LTCH x
  let raw := m.chain16 c (atI m.mea.fast c)
  let itot := if m.has (marPg x) MAR_CFG_CLPOL then -raw else raw
  let counted := decide (c < 16) && decide (m.get 0x0C PHM_FLT_SENSMIN x * n ≤ absI itot)
  let off := decide (absI itot < 4 * n * absI (i - (itot - others)))
  let dis := if !counted then s.disRun else if off then s.disRun + 1 else 0
  let t := if 4 ≤ range then 1
    else if 64 ≤ run.length ∧ (m.get 0x0C PHM_FLT_SENSMIN x : Int) < spanOf run then 2
    else if 16 ≤ dis then 3 else 0
  (t, { s with code := code, rangeRun := Nat.min range 4, others := run, disRun := Nat.min dis 16 })

/-- The open test of R186 in this frame: did it hold 8 frames, the phase with its count, and the mean of the others. -/
def Chip.openTest (m : Chip) (x k : Nat) (s : PhaseSt) : Bool × PhaseSt × Nat :=
  let n := m.nAct x
  let rest := ((m.actPh x).filter (· ≠ k)).map (fun j => absI (m.iph j))
  let th := m.get 0x0C PHM_FLT_OPENTH x
  let holds := s.pulse && decide (absI (m.iph k) < th) && decide (4 * th * (n - 1) ≤ rest.sum) && decide (1 < n) &&
    !m.shedding x k
  let run := if holds then s.openRun + 1 else 0
  (decide (8 ≤ run), { s with openRun := Nat.min run 8 }, if n ≤ 1 then 0 else rest.sum / (n - 1))

/-- Fault tests of one phase; a failure waits for the next boundary. Failed sense prevails (R187). -/
def Chip.faultTest (m : Chip) (x k : Nat) : Chip :=
  let a := m.senseTest x k
  let b := m.openTest x k a.2
  let m := m.modPh k (fun _ => b.2.1)
  if a.1 ≠ 0 then m.modPhl x (fun s => { s with removals := s.removals ++ [⟨k, true, a.1⟩] })
  else if b.1 then m.modPhl x (fun s => { s with removals := s.removals ++ [⟨k, false, up b.2.2⟩] })
  else m

/-- Conduction mode (R173), add and shed counts (R178, R179) and the load-step test (R180) of a frame. -/
def Chip.loadTests (m : Chip) (x : Nat) : Chip :=
  let pg := marPg x
  let n := m.nAct x
  let i := absI (m.iloop x)
  let th := m.get 0x0C PHM_LPER_DCMTH x
  let s := m.phl x
  let lo := if i < th * n then Nat.min 16 (s.cmLo + 1) else 0
  let hi := if 5 * th * n ≤ 4 * i then Nat.min 4 (s.cmHi + 1) else 0
  let cm := if th = 0 then false else if 16 ≤ lo then true else if 4 ≤ hi then false else s.cmNext
  let add := if m.get 0x0C PHM_ADSHA_ADDTH x * n < i then Nat.min 255 (s.addRun + 1) else 0
  let shed := if i < m.get 0x0C PHM_ADSHA_SHEDTH x * (n - 1) then Nat.min 65535 (s.shedRun + 1) else 0
  let di := m.get 0x0C PHM_STEP_STEPDI x
  let dv := m.get 0x0C PHM_STEP_STEPDV x
  let step := if di ≠ 0 ∧ di ≤ absI (m.iloop x - s.iPrev) then 1
    else if dv ≠ 0 ∧ m.mode x = mdAuto ∧ dv * 64 ≤ absI (m.getS pg MAR_ERR_X) then 2 else 0
  m.modPhl x (fun s =>
    { s with cmLo := lo, cmHi := hi, cmNext := cm, addRun := add, shedRun := shed, step := step,
             clim := m.has pg MAR_STAT_CLIM, iPrev := m.iloop x })

/-- A frame of the loop's phase clock is counted for the absolute imbalance threshold (R185). -/
def Chip.phCount (m : Chip) (x : Nat) : Chip := m.modPhl x (fun s => { s with frames := Nat.min 1024 (s.frames + 1) })

/-- A frame boundary of the loop's phase clock: a frame of the hold-off has ended (R182), and LPER's PERIOD and DEM
take effect (R169). The first frame runs with the PERIOD in effect when ENABLE was written 1. DEDUCED, unsafe (log
136). -/
def Chip.phClock (m : Chip) (x : Nat) : Chip :=
  m.modPhl x (fun s => { s with
    holdFrames := Nat.min 256 (s.holdFrames + 1), dem := m.has 0x0C PHM_LPER_DEM x,
    period := if m.mode x = mdOff then s.period else m.get 0x0C PHM_LPER_PERIOD x })

/-! ### Duties (R152 step 4, R170–R172, R184) -/

/-- An entry of the offset table of a loop. -/
def Chip.offset (m : Chip) (x b : Nat) : Int :=
  if b % 2 = 1 then m.getS (marPg x) MAR_OT_HI (b / 2) else m.getS (marPg x) MAR_OT_LO (b / 2)

/-- The duty clamps of a loop; DMIN above DMAX is treated as DMAX. -/
def Chip.dmax (m : Chip) (x : Nat) : Nat := m.get (marPg x) MAR_DLIM_DMAX
def Chip.dmin (m : Chip) (x : Nat) : Nat := Nat.min (m.get (marPg x) MAR_DLIM_DMIN) (m.dmax x)

/-- Steps of a frame (R170). -/
def Chip.phUnits (m : Chip) (x : Nat) : Nat := (m.phl x).period * 64

/-- On-time in steps of 39.0625 ps for a duty, with `room` steps from the rise to the next one (R170, R172): the fall
moves earlier where the off-time would lie below TMINOFF, and an on-time below TMINON gives no pulse. -/
def Chip.onTime (m : Chip) (x k duty room : Nat) : Nat :=
  let off := m.get (pwmPg k) PWM_TIMING_TMINOFF * 64
  let ton := Nat.min ((duty * m.phUnits x * 2 + 65536) / 131072) (room - off)
  if ton < m.get (pwmPg k) PWM_TIMING_TMINON * 64 then 0 else ton

/-- Offset of a phase from its rank among the active phases (R171). -/
def Chip.phOffset (m : Chip) (x k : Nat) : Nat :=
  match (m.actPh x).findIdx? (· == k) with
  | some s => (2 * s * m.phUnits x + m.nAct x) / (2 * m.nAct x)
  | none => 0

/-- The final duty of one active phase: offset band, trim, shed ramp. -/
def Chip.phDuty (m : Chip) (x k : Nat) (i : Int) (d : Int) : Nat :=
  let w := Nat.max 1 (m.get (marPg x) MAR_OBW_WIDTH)
  let band := (clampI 0 31 (divFloor i w + 16)).toNat
  let base := clampI (m.dmin x) (m.dmax x) (d + m.offset x band) + divNear (m.ph k).trim 4096
  let v := match (m.phl x).shed with
    | some (j, f) => if j = k then divNear (base * (if f = 1 then 3 else if f = 2 then 2 else if f = 3 then 1 else 0)) 4 else base
    | none => base
  (clampI 0 65535 v).toNat

/-- What the phases emit in the frame that begins, from the loop duty of the frame before (R135, R170–R172, R179): the
final duty, the offset, taken at the first rise and delayed until TMINOFF has passed since the fall before, the
on-time, and the rest of a pulse that reaches into this frame. DEDUCED, unsafe (log 112). -/
def Chip.phRender (m : Chip) (x : Nat) (d : Int) : Chip :=
  let u := m.phUnits x
  (m.actPh x).foldl (fun m k =>
    let duty := m.phDuty x k (m.iph k) d
    let s := m.ph k
    let gap := m.get (pwmPg k) PWM_TIMING_TMINOFF * 64
    let offset := m.phOffset x k
    let rise := if s.ton = 0 then offset else Nat.max offset (s.rise + s.ton + gap - u)
    let mid := match (m.phl x).shed with
      | some (j, f) => j == k && f == 4
      | none => false
    let ton := if m.enabled (pwmPg k) && !mid then m.onTime x k duty (u + offset - rise) else 0
    (m.put (pwmPg k) PWM_PHD_DUTY duty (k % 8)).modPh k (fun s =>
      { s with rise := rise, ton := ton, tail := s.rise + s.ton - u, pulse := decide (0 < ton) })) m

/-! ### Requests of phase-current conversions (R111, R177) -/

/-- The instant of a phase's conversion in the frame that begins, in steps of 39.0625 ps after its boundary (R177): the
middle of the on-time, or of the off-time to the next rise; the offset where it has no pulse. -/
def Chip.phSample (m : Chip) (x k : Nat) : Nat :=
  let s := m.ph k
  if s.ton = 0 then m.phOffset x k
  else if m.has (pwmPg k) PWM_PHCFG_SMP (k % 8) then (s.rise + s.ton + m.phUnits x + m.phOffset x k) / 2
  else s.rise + s.ton / 2

/-- A frame requests one conversion of each active or shedding phase (R177); one not served yet stays. DEDUCED, unsafe
(log 131). -/
def Chip.phRequest (m : Chip) (x : Nat) : Chip :=
  (m.actPh x).foldl (fun m k =>
    let at_ := m.phSample x k
    let u := m.phUnits x
    m.modPh k (fun s => { s with reqs := ((s.reqs.drop (s.reqs.length - 1)).map (fun t => t - u)) ++ [at_] })) m

/-- The clock of a phase's earliest request, counted from its loop's frame boundary, if it is active. -/
def Chip.phAsks (m : Chip) (x k : Nat) : Option Nat :=
  if (m.actPh x).contains k then ((m.ph k).reqs.head?).map (· / 128) else none

/-- Is the phase's conversion the next of its loop: requests in the order of their clocks, those of one clock in
ascending phase number (R111)? -/
def Chip.phServes (m : Chip) (k : Nat) : Bool :=
  match m.phLoop k with
  | none => false
  | some x =>
    match m.phAsks x k with
    | none => false
    | some t => (m.actPh x).all (fun j => match m.phAsks x j with
        | none => true
        | some u => decide (t < u) || (t == u && decide (k ≤ j)))

/-- Does the converter serve the input now: a phase current that is requested, any other input in its turn (R111)?
DESIGN CHOICE, unsafe (log 110); DEDUCED, unsafe (log 131). -/
def Chip.sarServes (m : Chip) (input : Nat) : Bool :=
  sarPresent m.die.part input &&
  (if 24 ≤ input ∧ input < 40 then m.phServes (input - 24) else input == m.mea.sarNext)

/-- The earliest request of a phase is served. -/
def Chip.phServed (m : Chip) (k : Nat) : Chip := m.modPh k (fun s => { s with reqs := s.reqs.drop 1 })

/-! ### Output levels (R175) -/

/-- Level of a PH ball (R168); MID is the driver released, high-impedance the ball of a controller that does not
drive. -/
inductive PhLevel where
  | highZ | low | mid | high
deriving DecidableEq, Repr

/-- The level of an active phase `u` steps of 39.0625 ps after its loop's frame boundary (R170, R173): HIGH in a pulse,
else LOW, or MID with diode emulation in discontinuous conduction. -/
def Chip.pulseLevel (m : Chip) (x k u : Nat) : PhLevel :=
  let s := m.ph k
  if u < s.tail ∨ (s.rise ≤ u ∧ u < s.rise + s.ton) then .high
  else if bit (m.get 0x0C PHM_LSTAT_CM) x && (m.phl x).dem then .mid else .low

/-- The level of a phase's ball `u` steps of 39.0625 ps after its loop's frame boundary; the first row of R175 that
applies decides. -/
def Chip.phLevel (m : Chip) (k u : Nat) : PhLevel :=
  if m.held || !m.leads || m.has 0x37 PIN_STAT_OHOLD || decide (nPhases m.die.part ≤ k) then .highZ
  else
    match m.phLoop k with
    | none => .mid
    | some x =>
      if m.mode x = mdStandby then .highZ
      else if bit m.phm.ovLow x then .low
      else if m.mode x = mdOff ∨ !m.enabled (pwmPg k) then .mid
      else if m.phRemoved k ∨ m.mode x = mdTripped then .mid
      else if (m.actPh x).contains k then
        match (m.phl x).shed with
        | some (j, f) => if j = k ∧ f = 4 then .mid else m.pulseLevel x k u
        | none => m.pulseLevel x k u
      else .mid

/-- `PHSTj.STATE` (R199). -/
def Chip.phState (m : Chip) (k : Nat) : Nat :=
  match m.phLoop k with
  | none => if m.leads then 0 else 7
  | some x =>
    if !m.leads || m.mode x == mdStandby then 7
    else if bit m.phm.ovLow x then 6
    else if bit (m.get 0x0C PHM_REMOV_SENSE) k then 5
    else if bit (m.get 0x0C PHM_REMOV_OPEN) k then 4
    else if m.shedding x k then 3
    else if (m.actPh x).contains k then 2
    else 1

/-! ### Over-voltage (R191–R193) -/

/-- PRESENT of a loop: the comparator, or one of the last two fast samples above OVLVL. -/
def Chip.ovNow (m : Chip) (x : Nat) : Bool :=
  let lvl := m.getS 0x0C PHM_OVCFG_OVLVL x
  bit m.phm.ovComp x || decide (lvl < m.feedback x) || decide (lvl < atI m.mea.fastPrev (m.fbch x))

/-- OVSTAT.PRESENT follows the condition. -/
def Chip.ovPresent (m : Chip) : Chip :=
  m.put 0x0C PHM_OVSTAT_PRESENT
    ((List.range (nLoops m.die.part)).foldl (fun n x => if m.ovNow x then setBit n x else n) 0)

/-- The latch of a loop sets by a source, 1 analogue, 2 digital (R192). -/
def Chip.ovLatch (m : Chip) (x src : Nat) : Chip :=
  if bit (m.get 0x0C PHM_OVSTAT_LATCH) x then m
  else
    let m := m.maskSet 0x0C PHM_OVSTAT_LATCH x
    let m := if src = 1 then m.maskSet 0x0C PHM_OVSTAT_ANALOG x else m
    let m := { m with phm := { m.phm with ovLow := setBit m.phm.ovLow x } }
    let m := (((m.irq 0x0C 6).raise (52 + x)).emit 0x2014 [x, src, sp (m.feedback x)]).phDepot x 0 4
    if (m.assigned x).isEmpty then m else m.trip x 1

/-- The digital test of every loop at a fast sample (R191). -/
def Chip.ovDigital (m : Chip) : Chip :=
  let m := m.ovPresent
  (List.range (nLoops m.die.part)).foldl (fun m x =>
    let lvl := m.getS 0x0C PHM_OVCFG_OVLVL x
    if m.has 0x0C PHM_OVCFG_DIGEN x && m.chainOn (m.fbch x) && decide (lvl < m.feedback x) &&
        decide (lvl < atI m.mea.fastPrev (m.fbch x)) then m.ovLatch x 2 else m) m

/-- A write of OVCFG: PRESENT follows the level, and a comparator already above latches once enabled (R191). -/
def Chip.ovConfig (m : Chip) : Chip :=
  (List.range (nLoops m.die.part)).foldl (fun m x =>
    if bit m.phm.ovComp x && m.has 0x0C PHM_OVCFG_ANEN x then m.ovLatch x 1 else m) m.ovPresent

/-- The comparator of a loop's OV ball switches (R191). -/
def Chip.ovCompare (m : Chip) (x : Nat) (above : Bool) : Chip :=
  if nLoops m.die.part ≤ x then m
  else
    let m := { m with phm := { m.phm with ovComp := if above then setBit m.phm.ovComp x else clearBit m.phm.ovComp x } }
    let m := m.ovPresent
    if above && m.has 0x0C PHM_OVCFG_ANEN x then m.ovLatch x 1 else m

/-- A host write of OVCLR (R193). -/
def Chip.ovclrWrite (m : Chip) (r v : Nat) : Chip :=
  if !isHost r then m
  else if !m.unlockedFor r 0x0C then (if v % 16 = 0 then m else m.lockErr)
  else
    (List.range (nLoops m.die.part)).foldl (fun m x =>
      if !bit v x || !bit (m.get 0x0C PHM_OVSTAT_LATCH) x then m
      else if bit (m.get 0x0C PHM_OVSTAT_PRESENT) x then m.phRefuse 0x0C 0xF0 r
      else
        let m := ((m.maskClr 0x0C PHM_OVSTAT_LATCH x).maskClr 0x0C PHM_OVSTAT_ANALOG x).emit 0x2015 [x, r]
        if m.mode x = mdOff then { m with phm := { m.phm with ovLow := clearBit m.phm.ovLow x } } else m) m

/-- The phases of a cleared latch go MID at a frame boundary (R193). -/
def Chip.ovFrame (m : Chip) (x : Nat) : Chip :=
  if bit (m.get 0x0C PHM_OVSTAT_LATCH) x then m
  else { m with phm := { m.phm with ovLow := clearBit m.phm.ovLow x } }

/-! ### Register writes -/

/-- A write of PHCLR (R190). -/
def Chip.phclrWrite (m : Chip) (r v : Nat) : Chip :=
  if !isHost r then m.phRefuse 0x0C 0xE8 r
  else if !m.unlockedFor r 0x0C then (if v = 0 then m else m.lockErr)
  else
    (List.range (nPhases m.die.part)).foldl (fun m k =>
      let opened := bit v k && (bit (m.get 0x0C PHM_REMOV_OPEN) k || bit (m.get 0x0C PHM_OPNLAT_LATCHED) k)
      let sensed := bit v (16 + k) && bit (m.get 0x0C PHM_REMOV_SENSE) k
      let m := if bit v k then
          ((m.maskClr 0x0C PHM_REMOV_OPEN k).maskClr 0x0C PHM_OPNLAT_LATCHED k).put (pwmPg k) PWM_PHST_OPNCNT 0 (k % 8)
        else m
      let m := if sensed then m.maskClr 0x0C PHM_REMOV_SENSE k else m
      if opened || sensed then m.phReadmit k 2 else m) m

/-- May a loop's assignment change: is it OFF or STANDBY, or no loop (R176)? -/
def Chip.loopIdle (m : Chip) (l : Nat) : Bool := decide (4 ≤ l) || m.mode l == mdOff || m.mode l == mdStandby

/-- A write of PHCFGj (R176). -/
def Chip.phcfgWrite (m : Chip) (r k v : Nat) : Chip :=
  if nPhases m.die.part ≤ k then m.absentHit r (pwmPg k)
  else
    let pg := pwmPg k
    let old := m.get pg PWM_PHCFG_LOOP (k % 8)
    let oldWord := (m.rd (PWM_PHCFG_LOOP.addr pg (k % 8))).toNat
    let new := v % 8
    if !m.unlockedFor r pg then (if oldWord = v % 512 &&& 0x107 then m else m.lockErr)
    else if new ≠ old ∧ (!m.loopIdle old || !m.loopIdle new || (decide (new < 4) && decide (nLoops m.die.part ≤ new))) then
      m.phRefuse pg (0x60 + 4 * (k % 8)) r
    else
      let m := ((m.put pg PWM_PHCFG_SMP (v / 256) (k % 8)).put pg PWM_PHCFG_LOOP new (k % 8))
      if new = old then m
      else ((if old < 4 then m.maskClr 0x0C PHM_ACT_ACTIVE k old else m).actAssigned).trimZero k

/-- A write of LPERx (R169). PERIOD reads as written; in OFF, before ENABLE is written 1, it is in effect at once,
else at the next frame boundary. -/
def Chip.lperWrite (m : Chip) (r x v : Nat) : Chip :=
  if nLoops m.die.part ≤ x then m.absentHit r 0x0C
  else
    let period := clampN 200 8000 (v % 8192)
    let old := m.get 0x0C PHM_LPER_PERIOD x
    let change := decide ((m.rd (PHM_LPER_DCMTH.addr 0x0C x)).toNat ≠ v &&& 0xFFFF9FFF)
    if !m.unlockedFor r 0x0C then (if change then m.lockErr else m)
    else
      let m := (m.put 0x0C PHM_LPER_DCMTH (v / 65536) x).put 0x0C PHM_LPER_DEM (v / 32768) x
      if period = old then m
      else if m.mode x = mdOff ∧ !(m.loop x).reqOn then
        (m.put 0x0C PHM_LPER_PERIOD period x).modPhl x (fun s => { s with period := period })
      else if m.mode x = mdOff ∨ m.mode x = mdStandby then m.put 0x0C PHM_LPER_PERIOD period x
      else m.phRefuse 0x0C (0x40 + 4 * x) r

/-- A write to ADSHAx, ADSHBx, STEPx, IMBx or FLTx restarts the counts of consecutive frames in progress (R200). -/
def Chip.phRestart (m : Chip) (x : Nat) : Chip :=
  let m := m.modPhl x (fun s => { s with addRun := 0, shedRun := 0 })
  (m.assigned x).foldl (fun m k => m.modPh k (fun s =>
    { s with openRun := 0, rangeRun := 0, disRun := 0, others := [], imbRun := 0, okRun := 0 })) m

/-! ### Set-point inputs (R194–R196) -/

/-- A set-point input becomes invalid: IRQ bit INVAL on the fall of VALID. -/
def Chip.inputInvalid (m : Chip) (f : Fld) : Chip := if m.has 0x0C f then (m.put 0x0C f 0).irq 0x0C 8 else m

/-- The changes of the accepted VSEL value within the last 1 ms. -/
def Chip.vselRecent (m : Chip) : List Nat := m.phm.vselChanges.filter (fun t => decide (m.ticksSince t ≤ msTicks))

/-- An accepted VSEL value (R194). DEDUCED, unsafe (log 113). -/
def Chip.vselAccept (m : Chip) (n : Nat) : Chip :=
  let differs := m.phm.vselTick.isSome && m.get 0x0C PHM_VSEL_N != n
  let cs := if differs then m.tim.tick :: m.vselRecent else m.vselRecent
  let m := { m with phm := { m.phm with vselTick := some m.tim.tick, vselChanges := cs } }
  let m := m.put 0x0C PHM_VSEL_N n
  if cs.length ≤ 8 then m.put 0x0C PHM_VSEL_VALID 1 else m.inputInvalid PHM_VSEL_VALID

/-- Is VSEL invalid (R194): no value accepted within the last 1 ms, or more than 8 changes within it? -/
def Chip.vselBad (m : Chip) : Bool :=
  (match m.phm.vselTick with
   | some t => decide (msTicks < m.ticksSince t)
   | none => true) || decide (8 < m.vselRecent.length)

/-- A block of 64 SETA conversions (R195). -/
def Chip.setaBlock (m : Chip) (sum : Nat) (isOver : Bool) : Chip :=
  let m := m.put 0x0C PHM_SETA_X (sum / 4)
  if isOver then { m.inputInvalid PHM_SETA_VALID with phm := { m.phm with setaGood := 0 } }
  else
    let n := Nat.min 4 (m.phm.setaGood + 1)
    let m := { m with phm := { m.phm with setaGood := n } }
    if 4 ≤ n then m.put 0x0C PHM_SETA_VALID 1 else m

/-- After a SOFTRST of the PHM page: no set-point value is known, and an OFF loop's next frame has the reset period
(R169). DEDUCED, unsafe (log 23). -/
def Chip.phmForget (m : Chip) : Chip :=
  let m := { m with phm := { m.phm with vselTick := none, vselChanges := [], setaGood := 0, setpGood := 0, setpShort := 0 } }
  (List.range 4).foldl (fun m x => if m.mode x = mdOff then m.modPhl x (fun s => { s with period := 1000 }) else m) m

/-- A complete SETP period, in ticks of 5 ns (R196). -/
def Chip.setpPeriod (m : Chip) (thigh period : Nat) : Chip :=
  if period = 0 then m
  else
    let m := { m with phm := { m.phm with setpTick := m.tim.tick } }
    let fs := clampN 1000 1000000 (m.get 0x0C PHM_SETPCFG_FS)
    let x := if m.has 0x0C PHM_SETPCFG_MODE then 200000000 * 65536 / (period * fs) else thigh * 65536 / period
    let m := m.put 0x0C PHM_SETP_X (Nat.min x 65535)
    if period < 200 then
      let n := Nat.min 4 (m.phm.setpShort + 1)
      let m := { m with phm := { m.phm with setpShort := n, setpGood := 0 } }
      if 4 ≤ n then m.inputInvalid PHM_SETP_VALID else m
    else
      let n := Nat.min 4 (m.phm.setpGood + 1)
      let m := { m with phm := { m.phm with setpShort := 0, setpGood := n } }
      if 4 ≤ n then m.put 0x0C PHM_SETP_VALID 1 else m

/-- No SETP edge for 1 ms (R196); the end of a period is the edge that the model sees. DEDUCED, unsafe (log 113). -/
def Chip.setpTimeout (m : Chip) : Chip :=
  if m.ticksSince m.phm.setpTick < msTicks then m
  else { m.inputInvalid PHM_SETP_VALID with phm := { m.phm with setpGood := 0, setpShort := 0 } }

/-! ### Commands -/

/-- HOLDOFF_EXPIRY (R182): 256 frames have passed since the last detection. -/
def execHoldoffExpiry (x : Fin 4) (s : State) : Host.Outcome State Fault Refusal :=
  s.run (fun m =>
    if bit (m.get 0x0C PHM_LSTAT_HOLDOFF) x.val && decide (256 ≤ (m.phl x.val).holdFrames) then
      (m.lstat PHM_LSTAT_HOLDOFF x.val false).modPhl x.val (fun s => { s with holdTold := false })
    else m)

/-- DERATE_REQUEST_RELEASE (R189): |ILOOP| has been at or below the limit for 256 frames. -/
def execDerateRequestRelease (x : Fin 4) (s : State) : Host.Outcome State Fault Refusal :=
  s.run (fun m =>
    if m.has 0x0C PHM_DRQ_ASSERTED x.val && decide (256 ≤ (m.phl x.val).drRun) then m.drRelease x.val else m)

/-- Have 65 536 frame periods of the one in effect at removal passed since (R190)? PERIOD is in 2.5 ns, half a tick. -/
def Chip.readmitDue (m : Chip) (k : Nat) : Bool :=
  (m.ph k).readmit && decide (32768 * (m.ph k).remPeriod ≤ m.ticksSince (m.ph k).remTick)

/-- PHASE_READMIT_TIMEOUT (R190): 65 536 frame periods have passed since the removal. -/
def execPhaseReadmitTimeout (k : Fin 16) (s : State) : Host.Outcome State Fault Refusal :=
  s.run (fun m =>
    if m.readmitDue k.val && bit (m.get 0x0C PHM_REMOV_OPEN) k.val then
      (m.maskClr 0x0C PHM_REMOV_OPEN k.val).phReadmit k.val 1
    else m)

/-- PHCLR_WRITE (R190). -/
def execPhclrWrite (r : Requester) (v : Word) (s : State) : Host.Outcome State Fault Refusal :=
  s.run (fun m => m.onRwl (reqCode r) 0x0C (fun m => m.phclrWrite (reqCode r) v.toNat))

/-- OVCLR_WRITE (R193). -/
def execOvclrWrite (r : Requester) (v : Word) (s : State) : Host.Outcome State Fault Refusal :=
  s.run (fun m => m.onRwl (reqCode r) 0x0C (fun m => m.ovclrWrite (reqCode r) v.toNat))

/-- OV_LATCH_SET (R191, R192): the comparator of a loop's OV ball rises above 1.200 V or falls below 1.170 V. -/
def execOvLatchSet (x : Fin 4) (above : Level) (s : State) : Host.Outcome State Fault Refusal :=
  s.run (fun m => m.ovCompare x.val above)

/-- LPER_WRITE (R169). -/
def execLperWrite (r : Requester) (x : Fin 4) (v : Word) (s : State) : Host.Outcome State Fault Refusal :=
  s.run (fun m => m.onRwl (reqCode r) 0x0C (fun m => m.lperWrite (reqCode r) x.val v.toNat))

/-- PHCFG_LOOP_WRITE (R176). -/
def execPhcfgLoopWrite (r : Requester) (k : Fin 16) (v : Word) (s : State) : Host.Outcome State Fault Refusal :=
  s.run (fun m => m.onRwl (reqCode r) (pwmPg k.val) (fun m => m.phcfgWrite (reqCode r) k.val v.toNat))

/-- VSEL_VALUE_ACCEPTED (R194): `run` consecutive samples since the last accepted value gave n; 16 are needed. -/
def execVselValueAccepted (n : Fin 8) (run : BitVec 8) (s : State) : Host.Outcome State Fault Refusal :=
  s.run (fun m => if run.toNat < 16 then m else m.vselAccept n.val)

/-- VSEL_INVALID (R194): no value accepted for 1 ms, or more than 8 changes within 1 ms. -/
def execVselInvalid (s : State) : Host.Outcome State Fault Refusal :=
  s.run (fun m => if m.vselBad then m.inputInvalid PHM_VSEL_VALID else m)

/-- SETA_BLOCK (R195). -/
def execSetaBlock (sum : BitVec 18) (isOver : Level) (s : State) : Host.Outcome State Fault Refusal :=
  s.run (fun m => m.setaBlock sum.toNat isOver)

/-- SETP_PERIOD (R196). -/
def execSetpPeriod (thigh period : BitVec 32) (s : State) : Host.Outcome State Fault Refusal :=
  s.run (fun m => m.setpPeriod thigh.toNat period.toNat)

/-- SETP_TIMEOUT (R196). -/
def execSetpTimeout (s : State) : Host.Outcome State Fault Refusal :=
  s.run (fun m => m.setpTimeout)

end Sys2Proof.Machine
end

