-- ==== Sys2Proof/Machine/Marionette.lean ====
section
/-! DEFINITION. Marionette (R135–R167): strings and gain scheduling, set-points, ripple feed-forward, mode requests, the
compensator and limiter of a frame, adaptation, charge trim and scheduled changes at a waypoint. -/

namespace Sys2Proof.Machine

/-! ### Strings (R138–R146) -/

/-- A stored string. -/
def Chip.storedStr (m : Chip) (x k : Nat) : LoopStr :=
  let pg := marPg x
  { b0 := m.getS pg MAR_STRB0_B k, b1 := m.getS pg MAR_STRB1_B k, b2 := m.getS pg MAR_STRB2_B k,
    a1 := m.getS pg MAR_STRA1_A k, a2 := m.getS pg MAR_STRA2_A k,
    ki := m.get pg MAR_STRKI_KI k, esh := m.get pg MAR_STRKI_ESH k }

/-- The places in the array 0x13 of a string, of an entry of the ripple table, and of the offset table of a loop
(R434). -/
def strPlace (x k : Nat) : Nat → Bool := fun n => n / 3 == 32 * x + k
def ripplePlace (x w : Nat) : Nat → Bool := fun n => n == 96 * x + 32 + w / 4
def offsetPlace (x : Nat) : Nat → Bool := fun n => n / 96 == x && decide (24 ≤ n % 96) && decide (n % 96 < 32)

/-- Is a string valid (R140)? -/
def LoopStr.valid (s : LoopStr) : Bool :=
  decide (absI s.a2 < 2 ^ 22) && decide ((absI s.a1 : Int) < 2 ^ 22 + s.a2) && decide (2 ^ 12 ≤ 2 ^ 22 + s.a1 + s.a2)

/-- The error in error LSB (R137): the stored x under the string's shift. -/
def LoopStr.err (s : LoopStr) (x : Int) : Int := satS 16 (divFloor x (2 ^ s.esh))

/-- gdc × e in 2⁻²⁴ duty LSB (R140). -/
def LoopStr.dc (s : LoopStr) (e : Int) : Int :=
  divFloor ((s.b0 + s.b1 + s.b2) * 4 * e * 2 ^ 24) (2 ^ 22 + s.a1 + s.a2)

/-- The string the region map names (R144). -/
def Chip.regionStr (m : Chip) (x : Nat) : Nat :=
  let r := m.get (marPg x) MAR_STAT_REGION
  bitsOf (m.get (marPg x) MAR_RMAP_MAP (r / 8)) (4 * (r % 8)) 3

/-- The string selected: a forced one replaces the region's (R145). -/
def Chip.wantStr (m : Chip) (x : Nat) : Nat := ((m.loop x).forced).getD (m.regionStr x)

/-- An invalid string is named (R146): code 0x2005 once per naming. -/
def Chip.nameBad (m : Chip) (x k : Nat) : Chip :=
  let m := (m.put (marPg x) MAR_STAT_BADSTR 1).irq (marPg x) 7
  if (m.loop x).badNamed = some k then m
  else (m.modLoop x (fun s => { s with badNamed := some k })).emit 0x2005 [x, k, m.get (marPg x) MAR_STAT_REGION]

/-- Load a stored string into the working copy if it is valid (R142, R146); did it load? -/
def Chip.loadStr (m : Chip) (x k : Nat) : Bool × Chip :=
  let m := m.unitRead 0x13 (strPlace x k)
  let s := m.storedStr x k
  if s.valid then
    (true, (m.modLoop x (fun l =>
      { l with str := s, loaded := true, badNamed := if m.wantStr x = k then none else l.badNamed })).put (marPg x) MAR_STAT_STR k)
  else (false, m.nameBad x k)

/-! ### Operating region (R143) -/

/-- The region from the load bands held, the active phase count and the conduction mode (R143). DEDUCED, unsafe (log
97). -/
def Chip.regionPut (m : Chip) (x : Nat) : Chip :=
  let pg := marPg x
  let n := m.nAct x
  let pb := b2n (decide (m.get pg MAR_PCB_PC1 ≤ n)) + b2n (decide (m.get pg MAR_PCB_PC2 ≤ n)) + b2n (decide (m.get pg MAR_PCB_PC3 ≤ n))
  m.put pg MAR_STAT_REGION (popCount (m.loop x).lb 3 * 8 + pb * 2 + b2n (bit (m.get 0x0C PHM_LSTAT_CM) x))

/-- Bands and region of a frame (R143): a load band rises after 4 frames and falls after 256. -/
def Chip.regionFrame (m : Chip) (x : Nat) : Chip :=
  let pg := marPg x
  let i := absI (m.iloop x)
  let hys := m.get pg MAR_LBTB_HYS
  let th := fun k => if k = 0 then m.get pg MAR_LBTA_LBT1 else if k = 1 then m.get pg MAR_LBTA_LBT2 else m.get pg MAR_LBTB_LBT3
  let s := m.loop x
  let ups := (List.range 3).map (fun k => if th k + hys ≤ i then Nat.min 4 (atN s.lbUp k + 1) else 0)
  let dns := (List.range 3).map (fun k => if i + hys < th k then Nat.min 256 (atN s.lbDn k + 1) else 0)
  let held := (List.range 3).map (fun k =>
    if 4 ≤ atN ups k then true else if 256 ≤ atN dns k then false else bit s.lb k)
  let mask := (List.range 3).foldl (fun n k => if (held[k]?).getD false then setBit n k else n) 0
  (m.modLoop x (fun s => { s with lb := mask, lbUp := ups, lbDn := dns })).regionPut x

/-! ### Ripple feed-forward (R147–R150) -/

/-- An entry of the ripple table. -/
def Chip.ripple (m : Chip) (x w : Nat) : Int :=
  if w % 2 = 1 then m.getS (marPg x) MAR_RF_HI (w / 2) else m.getS (marPg x) MAR_RF_LO (w / 2)

/-- Store an entry of the ripple table. -/
def Chip.setRipple (m : Chip) (x w : Nat) (v : Int) : Chip :=
  m.unitPut 0x13 (ripplePlace x w) (fun m =>
    if w % 2 = 1 then m.putS (marPg x) MAR_RF_HI v (w / 2) else m.putS (marPg x) MAR_RF_LO v (w / 2))

/-- What a frame reads of the tables of a loop (R147, R152): two entries of the ripple table, and the offsets. -/
def Chip.tableRead (m : Chip) (x : Nat) : Chip :=
  let w := m.tim.angle / 256 % 256
  m.unitRead 0x13 (fun n => ripplePlace x w n || ripplePlace x ((w + 1) % 256) n || offsetPlace x n)

/-- FADEWP; 0 is treated as 1. -/
def Chip.fadeWp (m : Chip) (x : Nat) : Nat := Nat.max 1 (m.get (marPg x) MAR_RFLIM_FADEWP)

/-- f[n] in 2⁻²⁴ duty LSB (R147). -/
def Chip.feedForward (m : Chip) (x : Nat) : Int :=
  if m.has (marPg x) MAR_RFCFG_FFEN then
    let w := m.tim.angle / 256 % 256
    let a : Int := m.tim.angle % 256
    let raw := m.ripple x w * 256 + (m.ripple x ((w + 1) % 256) - m.ripple x w) * a
    divFloor (raw * 2 ^ 16 * m.get (marPg x) MAR_RFSTAT_FADE) (m.fadeWp x)
  else 0

/-- A value limited to ±RFMAX (R151). -/
def Chip.rfClamp (m : Chip) (x : Nat) (v : Int) : Int :=
  let r : Int := m.get (marPg x) MAR_RFLIM_RFMAX
  clampI (-r) r v

/-- A requester's write of an RF word (R151). -/
def Chip.rfWrite (m : Chip) (x j v : Nat) : Chip :=
  (m.setRipple x (2 * j) (m.rfClamp x (sx 16 v))).setRipple x (2 * j + 1) (m.rfClamp x (sx 16 (v / 65536)))

/-- CP0's accumulate of a signed value into one entry (R151, R165). -/
def Chip.rfAccum (m : Chip) (x w : Nat) (v : Int) : Chip := m.setRipple x w (m.rfClamp x (m.ripple x w + v))

/-! ### Set-points (R154–R157) -/

/-- A target limited to SPMIN–SPMAX. -/
def Chip.spClamp (m : Chip) (x : Nat) (v : Int) : Int :=
  clampI (m.getS (marPg x) MAR_SPMIN_SP) (m.getS (marPg x) MAR_SPMAX_SP) v

/-- Does the selected source report valid? -/
def Chip.spValid (m : Chip) (x : Nat) : Bool :=
  let s := m.get (marPg x) MAR_CFG_SPSRC
  if s = 1 then m.has 0x0C PHM_VSEL_VALID else if s = 2 then m.has 0x0C PHM_SETA_VALID
  else if s = 3 then m.has 0x0C PHM_SETP_VALID else true

/-- The target of the selected source (R154). -/
def Chip.spSource (m : Chip) (x : Nat) : Int :=
  let pg := marPg x
  let s := m.get pg MAR_CFG_SPSRC
  let frac := fun (f : Fld) =>
    satS 24 (m.getS pg MAR_SPBASE_VAL + divFloor (m.get 0x0C f * m.getS pg MAR_SPSPAN_VAL) 65536)
  if s = 0 then m.getS pg MAR_SPREG_SP
  else if s = 1 then m.getS pg MAR_SPV_SP (m.get 0x0C PHM_VSEL_N)
  else if s = 2 then frac PHM_SETA_X
  else frac PHM_SETP_X

/-- A frame's source check (R157). DEDUCED, unsafe (log 38). -/
def Chip.spCheck (m : Chip) (x : Nat) : Chip :=
  let pg := marPg x
  let flt := m.has pg MAR_STAT_SPFLT
  if !m.spValid x then
    let m := m.modLoop x (fun s => { s with spGood := 0 })
    if flt then m
    else ((m.put pg MAR_STAT_SPFLT 1).irq pg 6).emit 0x2004 [x, m.get pg MAR_CFG_SPSRC]
  else if flt then
    let n := (m.loop x).spGood + 1
    if 16 ≤ n ∨ m.get pg MAR_CFG_SPSRC = 0 then (m.put pg MAR_STAT_SPFLT 0).modLoop x (fun s => { s with spGood := 0 })
    else m.modLoop x (fun s => { s with spGood := n })
  else m

/-- A frame's effective set-point (R155, R156); one that a mirror gave stands for its first frame (R162). -/
def Chip.spFrame (m : Chip) (x : Nat) (stands : Bool) : Chip :=
  let pg := marPg x
  let m := m.spCheck x
  if m.owner x = 1 then
    let m := if m.has pg MAR_STAT_SPFLT then m else m.modLoop x (fun s => { s with target := m.spClamp x (m.spSource x) })
    (m.putS pg MAR_SPEFF_SP (m.spClamp x (m.getS 0x1F HLD_REF_V x))).put pg MAR_STAT_SLEWING 0
  else
    let t := m.spClamp x (if m.has pg MAR_STAT_SPFLT then (m.loop x).target else m.spSource x)
    let eff := m.getS pg MAR_SPEFF_SP
    let slew : Int := m.get pg MAR_SPSLEW_RATE
    let eff' := if stands then eff else if slew = 0 then t else eff + clampI (-slew) slew (t - eff)
    ((m.modLoop x (fun s => { s with target := t, wpDirty := s.wpDirty || decide (eff' ≠ t) })).putS pg MAR_SPEFF_SP eff').putB
      pg MAR_STAT_SLEWING (decide (eff' ≠ t))

/-! ### State preset (R141) -/

/-- The present error x[n] (R137). -/
def Chip.errNow (m : Chip) (x : Nat) : Int :=
  let d := m.getS (marPg x) MAR_SPEFF_SP - m.feedback x
  if m.has (marPg x) MAR_CFG_NEG then -d else d

/-- The integrator's limits: ±2¹⁷ duty LSB, in 2⁻²⁴. -/
def integClamp (i : Int) : Int := clampI (-(2 ^ 41)) (2 ^ 41) i

/-- A state preset at this frame, with dtarget in 2⁻²⁴ duty LSB. DEDUCED, unsafe (log 37). -/
def Chip.preset (m : Chip) (x : Nat) (dtarget f : Int) : Chip :=
  let e0 := m.errNow x
  m.modLoop x (fun s =>
    let g := s.str.dc (s.str.err e0)
    { s with x1 := e0, x2 := e0, v1 := g, v2 := g, integ := integClamp (dtarget - f - g), wpDirty := true })

/-- The state preset of a takeover in AUTO (R162): the integrator takes the mirrored value. -/
def Chip.presetKeep (m : Chip) (x : Nat) (i : Int) : Chip :=
  (m.preset x 0 0).modLoop x (fun s => { s with integ := integClamp i })

/-! ### Mode requests at a frame boundary (R160) -/

/-- What a frame boundary brings beside the loop's own registers: a preset that commits, by its dtarget or by the
mirrored integrator, and whether the mirrored set-point and string stand for this frame. -/
structure ModeResult where
  chip : Chip
  preset : Option Int := none
  keep : Option Int := none
  stands : Bool := false

/-- Does a claim of protection stand over a start (R160): a latch on an assigned phase, or no available phase? -/
def Chip.startBlocked (m : Chip) (x : Nat) : Option Nat :=
  if (m.assigned x).isEmpty then none
  else if bit (m.get 0x0C PHM_OVSTAT_LATCH) x then some 1
  else if (m.availPh x).isEmpty then some 2 else none

/-- Enter TRIPPED from OFF or STANDBY (R160): each cause that holds is set. -/
def Chip.startTripped (m : Chip) (x cause : Nat) : Chip :=
  let pg := marPg x
  let m := if cause = 1 then m.put pg MAR_STAT_TOV 1 else m
  let m := if (m.availPh x).isEmpty then (m.put pg MAR_STAT_TNOPH 1).modLoop x (fun s => { s with phBack := false }) else m
  let m := (((m.setMode x mdTripped 2).marClear x).phStop x).phWindow x
  (m.irq pg 10).emit 0x2006 [x, cause]

/-- A loop leaves TRIPPED by a row of R160 that clears no cause: its trip flags clear. -/
def Chip.tripForget (m : Chip) (x : Nat) : Chip :=
  (m.put (marPg x) MAR_STAT_TOV 0).put (marPg x) MAR_STAT_TNOPH 0

/-- Is a transfer to AUTO refused (R146, R161)? -/
def Chip.autoBarred (m : Chip) (x : Nat) : Bool := m.has (marPg x) MAR_STAT_FBFLT || !(m.loop x).loaded

/-- The loop duty d[n−1] that a takeover starts from, from a duty in 2⁻²⁴ duty LSB. DEDUCED, unsafe (log 37). -/
def Chip.putDuty (m : Chip) (x : Nat) (d : Int) : Chip :=
  m.put (marPg x) MAR_DUTY_D (clampI 0 65535 (divNear d (2 ^ 24))).toNat

/-- MANUAL takes the duty of the frame before, less this frame's feed-forward where MANFF adds it (R160). -/
def Chip.manualDuty (m : Chip) (x : Nat) : Chip :=
  let pg := marPg x
  let d : Int := m.get pg MAR_DUTY_D
  let f := if m.has pg MAR_CFG_MANFF then divNear (m.feedForward x) (2 ^ 24) else 0
  m.put pg MAR_MDUTY_DUTY (clampI 0 65535 (d - f)).toNat

/-- The string at a loop's start (R142, R160): the selected one. No string change is behind it, so none is held off. -/
def Chip.loadFirst (m : Chip) (x : Nat) : Chip :=
  ((m.modLoop x (fun s => { s with strHold := 0 })).loadStr x (m.wantStr x)).2

/-- The working copy at a transfer to AUTO (R142, R144, R146): the selected string, or within the 16 frames after a
string change the working one. An invalid string leaves the copy as it is. A change starts the 16 frames, of which
`strStep` counts this one. -/
def Chip.loadWanted (m : Chip) (x : Nat) : Chip :=
  let present := m.get (marPg x) MAR_STAT_STR
  let k := if (m.loop x).loaded && decide ((m.loop x).strHold ≠ 0) then present else m.wantStr x
  let r := m.loadStr x k
  if r.1 && decide (k ≠ present) then r.2.modLoop x (fun s => { s with strHold := 17 }) else r.2

/-- dtarget of a transfer, a reload or a string change: the duty of the frame before, in 2⁻²⁴ duty LSB. -/
def Chip.dPrev (m : Chip) (x : Nat) : Int := m.get (marPg x) MAR_DUTY_D * 2 ^ 24

/-- A takeover in a mirrored mode OFF or TRIPPED, which carries no duty (R162). DEDUCED, unsafe (log 37). -/
def Chip.takeStopped (m : Chip) (x md : Nat) : Chip :=
  ((m.setMode x md (if md = mdTripped then 2 else 0)).marClear x).phStop x

/-- A takeover in MANUAL with a manual duty (R162). -/
def Chip.takeManual (m : Chip) (x d : Nat) : Chip :=
  ((m.put (marPg x) MAR_MDUTY_DUTY d).putDuty x (d * 2 ^ 24)).setMode x mdManual 0

/-- A takeover in AUTO with a state preset that keeps a duty in 2⁻²⁴ duty LSB (R162). -/
def Chip.takeAuto (m : Chip) (x : Nat) (d : Int) : Chip := (m.putDuty x d).setMode x mdAuto 0

/-- Takeover of a loop that was in STANDBY (R162, R197): from the valid mirror its mode, string, set-point and
integrator word, which stand for this frame; else the selected string, the last mirrored mode and the measured duty.
DEDUCED, unsafe (log 37). -/
def Chip.takeover (m : Chip) (x : Nat) : ModeResult :=
  let pg := marPg x
  let l := m.loop x
  let mir := if m.has 0x35 PAIR_LASTTK_MUSED then m.mirror else none
  match mir with
  | some im =>
    let s := (im.loops[x]?).getD {}
    let acts := (m.availPh x).filter (fun k => bit s.act k)
    let m := ((m.phStart x acts).phWindow x).regionPut x
    let m := m.putS pg MAR_SPEFF_SP (sx 24 s.speff)
    let m := (m.loadStr x s.str).2
    if s.mode = mdOff ∨ s.mode = mdTripped then { chip := m.takeStopped x s.mode }
    else if s.mode = mdAuto ∧ !m.autoBarred x then
      let g := (m.loop x).str.dc ((m.loop x).str.err (m.errNow x))
      let i := sx 32 s.word * 2 ^ 16
      { chip := m.takeAuto x (i + m.feedForward x + g), keep := some i, stands := true }
    else { chip := m.takeManual x (if s.mode = mdManual then s.word else m.dmin x), stands := true }
  | none =>
    let m := (((m.phStart x (m.availPh x)).phWindow x).regionPut x).loadFirst x
    let want := match m.mirror with
      | some im => ((im.loops[x]?).getD {}).mode
      | none => if m.has pg MAR_CFG_TKAUTO then mdAuto else mdManual
    let fresh := l.netSeen && decide (m.ticksSince l.netTick ≤ 2 * msTicks)
    let d := m.get pg MAR_MDMEAS_D
    if want = mdOff ∨ want = mdTripped then { chip := m.takeStopped x want }
    else if !fresh then { chip := m.takeManual x (m.dmin x) }
    else if want = mdAuto ∧ !m.autoBarred x then { chip := m.takeAuto x (d * 2 ^ 24), preset := some (d * 2 ^ 24) }
    else { chip := m.takeManual x d }

/-- OFF at a frame boundary (R160). -/
def Chip.marOff (m : Chip) (x : Nat) : Chip :=
  ((((m.setMode x mdOff 0).marClear x).phStop x).tripForget x).lstat PHM_LSTAT_CM x false
    |>.modPhl x (fun s => { s with cmLo := 0, cmHi := 0, cmNext := false })

/-- A transfer to AUTO under an owner, if nothing bars it (R146, R160, R161): the lost feedback before any load. -/
def Chip.toAuto (m : Chip) (x o : Nat) : Option Chip × Chip :=
  let l := if m.has (marPg x) MAR_STAT_FBFLT then m else m.loadWanted x
  (if l.autoBarred x then none else some (l.setMode x mdAuto o), l)

/-- Requests that commit at this boundary, in the table's order (R160). DEDUCED, unsafe (log 37). -/
def Chip.modeStep (m : Chip) (x : Nat) : ModeResult :=
  let pg := marPg x
  let q := m.loop x
  let began := m.mode x
  let m := m.modLoop x (fun s => { s with reqOff := false, reqOn := false, reqStby := false, reqHu := false,
                                          reqRet := false, reqAuto := false, reqManual := false, fbLost := false })
  let m := if q.reqOff ∧ m.mode x ≠ mdOff then m.marOff x else m
  let m := if q.reqStby ∧ (m.mode x = mdManual ∨ m.mode x = mdAuto ∨ m.mode x = mdTripped) then
      ((((m.setMode x mdStandby 0).marClear x).phStart x (m.availPh x)).tripForget x).maskClr 0x1F HLD_STAT_OWNED x
    else m
  let m := if q.reqOn && m.mode x == mdOff then m.modLoop x (fun s => { s with loaded := false, badNamed := none })
    else m
  let startsOff := q.reqOn && m.mode x == mdOff && m.leads
  let startsStandby := m.mode x == mdStandby && m.leads
  let r : ModeResult :=
    if startsOff || startsStandby then
      match m.startBlocked x with
      | some c => { chip := m.startTripped x c }
      | none =>
        if startsOff then
          { chip := ((((m.setMode x mdManual 0).phStart x (m.availPh x)).phWindow x).regionPut x).loadFirst x }
        else m.takeover x
    else if q.reqOn && m.mode x == mdOff then
      { chip := ((m.setMode x mdStandby 0).phStart x (m.availPh x)).phWindow x }
    else { chip := m }
  let m := r.chip
  let r : ModeResult :=
    if q.reqHu ∧ m.mode x = mdManual then
      let m := if m.owner x = 1 then m else m.modLoop x (fun s => { s with modeWas := mdManual })
      match m.toAuto x 1 with
      | (some m, _) => { chip := m, preset := some (m.dPrev x) }
      | (none, m) => { r with chip := m.maskClr 0x1F HLD_STAT_OWNED x }
    else if q.reqHu ∧ m.mode x = mdAuto ∧ m.owner x = 0 then
      { r with chip := (m.modLoop x (fun s => { s with modeWas := mdAuto })).setOwner x 1 }
    else if q.reqHu ∧ m.owner x ≠ 1 then { r with chip := m.maskClr 0x1F HLD_STAT_OWNED x }
    else r
  let m := r.chip
  let r : ModeResult :=
    if q.reqAuto ∧ m.mode x = mdManual ∧ m.owner x = 0 then
      match m.toAuto x 0 with
      | (some m, _) => { chip := m, preset := some (m.dPrev x) }
      | (none, m) =>
        { r with chip := (if (m.loop x).loaded then m else m.put pg MAR_STAT_BADSTR 1).marRefuse x 0x44 }
    else r
  let m := r.chip
  let r : ModeResult :=
    if q.reqRet ∧ m.mode x = mdAuto ∧ m.owner x = 1 then
      let m := m.maskClr 0x1F HLD_STAT_OWNED x
      if q.modeWas = mdManual then { chip := (m.manualDuty x).setMode x mdManual 0 } else { r with chip := m.setOwner x 0 }
    else if q.reqRet ∧ m.mode x = mdManual ∧ m.owner x = 1 then
      { r with chip := (m.maskClr 0x1F HLD_STAT_OWNED x).setOwner x 0 }
    else if q.reqRet then { r with chip := m.maskClr 0x1F HLD_STAT_OWNED x }
    else r
  let m := r.chip
  let r : ModeResult :=
    if q.reqManual ∧ m.mode x = mdAuto ∧ m.owner x = 0 then { chip := (m.manualDuty x).setMode x mdManual 0 } else r
  let m := r.chip
  let r : ModeResult :=
    if q.fbLost then
      let n := (m.put pg MAR_STAT_FBFLT 1).modLoop x (fun s => { s with good := 0 })
      if m.mode x = mdAuto then
        { chip := ((n.manualDuty x).setMode x mdManual (m.owner x)).emit 0x2006 [x, 3] }
      else { r with chip := n }
    else r
  let m := r.chip
  if began = mdTripped ∧ m.mode x = mdTripped then
    let tov := m.has pg MAR_STAT_TOV && bit (m.get 0x0C PHM_OVSTAT_LATCH) x
    let tno := m.has pg MAR_STAT_TNOPH && !(m.loop x).phBack
    let m := (m.putB pg MAR_STAT_TOV tov).putB pg MAR_STAT_TNOPH tno
    if tov || tno then { chip := m }
    else { chip := ((m.put pg MAR_MDUTY_DUTY (m.dmin x)).setMode x mdManual 0).phStart x (m.availPh x) }
  else r

/-! ### The compensator (R137, R139, R152) -/

/-- String selection at a frame boundary (R144–R146): a change, or a reload; does a preset commit? The naming of an
invalid string lasts while it is the one selected. -/
def Chip.strStep (m : Chip) (x : Nat) : Bool × Chip :=
  let l := m.loop x
  let k := m.wantStr x
  let present := m.get (marPg x) MAR_STAT_STR
  let m := m.modLoop x (fun s => { s with strHold := s.strHold - 1, reload := false,
                                          badNamed := if s.badNamed = some k then s.badNamed else none })
  let r := if k ≠ present ∧ l.strHold = 0 then m.loadStr x k else (false, m)
  if r.1 then (true, r.2.modLoop x (fun s => { s with strHold := 16 }))
  else if l.reload && (k == present || (r.2.storedStr x present).valid) then r.2.loadStr x present
  else r

/-- ILIMEFF for the frame (R153): the minimum of ILIM and the Phase Manager's limit, from the phases active before
this boundary's changes, which take effect at the next frame. DEDUCED, unsafe (log 97). -/
def Chip.limEff (m : Chip) (x : Nat) : Chip :=
  let pg := marPg x
  let p := m.phLimit x
  (m.put pg MAR_ILIMEFF_ILIMP (Nat.min (m.get pg MAR_ILIM_ILIMP) p)).put pg MAR_ILIMEFF_ILIMN
    (Nat.min (m.get pg MAR_ILIM_ILIMN) p)

/-- The compensator's output v[n] in 2⁻²⁴ duty LSB from the present error and the stored past. -/
def LoopSt.filter (s : LoopSt) (e0 : Int) : Int :=
  let c := s.str
  (c.b0 * c.err e0 + c.b1 * c.err s.x1 + c.b2 * c.err s.x2) * 16 - divFloor (c.a1 * s.v1 + c.a2 * s.v2) (2 ^ 22)

/-- The frame's duty from the clamped output and what the limiter makes of it: duty, and is it dlim (R152)? -/
def Chip.limit (m : Chip) (x : Nat) (clamped : Int) : Int × Bool :=
  let pg := marPg x
  let i := m.iloop x
  let p : Int := m.get pg MAR_ILIMEFF_ILIMP
  let n : Int := m.get pg MAR_ILIMEFF_ILIMN
  let k : Int := m.get pg MAR_KLIM_KLIM
  if p < i then
    let dl := m.dPrev x - k * (i - p) * 2 ^ 16
    if dl ≤ clamped then (dl, true) else (clamped, false)
  else if i < -n then
    let dl := m.dPrev x + k * (-n - i) * 2 ^ 16
    if clamped ≤ dl then (dl, true) else (clamped, false)
  else (clamped, false)

/-- The duty of a frame in MANUAL or AUTO (R137, R139, R152): `fresh` marks a frame with a state preset, whose filter
and integrator already hold. -/
def Chip.compute (m : Chip) (x : Nat) (f : Int) (fresh : Bool) : Chip :=
  let pg := marPg x
  let s := m.loop x
  let e0 := m.errNow x
  let lo : Int := m.dmin x * 2 ^ 24
  let hi : Int := m.dmax x * 2 ^ 24
  let auto := m.mode x == mdAuto
  let v := if fresh then s.v1 else s.filter e0
  let add := s.str.ki * s.str.err e0
  let cand := integClamp (s.integ + add)
  let u' := v + cand + f
  let frozen := fresh || (decide (hi < u') && decide (0 < add)) || (decide (u' < lo) && decide (add < 0))
  let i := if frozen then s.integ else cand
  let u := if auto then v + i + f
    else m.get pg MAR_MDUTY_DUTY * 2 ^ 24 + (if m.has pg MAR_CFG_MANFF then f else 0)
  let r := m.limit x (clampI lo hi u)
  let d := clampI 0 65535 (divNear r.1 (2 ^ 24))
  let i := if r.2 && auto then integClamp (d * 2 ^ 24 - v - f) else i
  let was := m.has pg MAR_STAT_CLIM
  let m := if auto then m.modLoop x (fun s => { s with x2 := s.x1, x1 := e0, v2 := s.v1, v1 := v, integ := i })
    else m.modLoop x (fun s => { s with x2 := s.x1, x1 := e0 })
  let m := m.modLoop x (fun s => { s with wpDirty := s.wpDirty || r.2, wpAuto := s.wpAuto && auto })
  let m := ((m.putS pg MAR_ERR_X e0).put pg MAR_DUTY_D d.toNat).putS pg MAR_DUTY_FF (satS 16 (divNear f (2 ^ 24)))
  let m := m.putS pg MAR_INTEG_I (divFloor (m.loop x).integ 65536)
  let m := (m.putB pg MAR_STAT_CLIM r.2).putB pg MAR_STAT_SAT (decide (d = m.dmin x) || decide (d = m.dmax x))
  if r.2 && !was then
    let lim := if 0 ≤ m.iloop x then m.get pg MAR_ILIMEFF_ILIMP else m.get pg MAR_ILIMEFF_ILIMN
    ((((m.irq pg 5).raise (36 + x)).count pg MAR_CNT_CLIMN).emit 0x2003 [x, sp (m.iloop x), lim]).loopDepot x 2
  else m

/-- What the loop sees on the shared nets in a frame (R162, R197): the mean of the last 16 frames' duties, held while
fewer than 8 of them had edges. -/
def Chip.netFrame (m : Chip) (x : Nat) (net : Option Nat) : Chip :=
  let pg := marPg x
  let seen := (net :: (m.loop x).net).take 16
  let vals := seen.filterMap id
  let valid := decide (8 ≤ vals.length)
  let m := m.modLoop x (fun s => { s with net := seen, netTick := if valid then m.tim.tick else s.netTick,
                                          netSeen := s.netSeen || valid })
  let m := m.putB pg MAR_MDMEAS_MDVALID valid
  if valid then m.put pg MAR_MDMEAS_D (meanOf vals) else m

/-- The set-point and the duty of a frame in MANUAL or AUTO, with its strings and presets (R137–R157). -/
def Chip.control (m : Chip) (x : Nat) (r : ModeResult) : Chip :=
  let sr := if r.stands then (false, m) else m.strStep x
  let m := sr.2.spFrame x r.stands
  let f := m.feedForward x
  let m := match r.keep, r.preset with
    | some i, _ => m.presetKeep x i
    | none, some d => m.preset x d f
    | none, none => if sr.1 then m.preset x (m.dPrev x) f else m
  m.compute x f (r.keep.isSome || r.preset.isSome || sr.1)

/-- The frame boundary of a loop whose phase clock runs (R135, R160, R178–R190), in the order: the over-voltage view,
currents, removal, abort, add, shed; mode requests; strings; set-point; the duty; balance and tests; what the phases
emit in the frame that begins. -/
def Chip.frameRun (m : Chip) (x : Nat) (net : Option Nat) : Chip :=
  let md := m.mode x
  let runs := fun (k : Nat) => k = mdManual ∨ k = mdAuto
  let m := m.phClock x
  let m := m.ovFrame x
  let m := if md = mdOff ∨ md = mdTripped then m else m.phDeliver x
  let m := m.lstat PHM_LSTAT_CM x (m.phl x).cmNext
  let m := m.limEff x
  let m := if runs md then
      let m := m.removeServe x
      if m.mode x = mdTripped then m else ((((m.stepServe x).shedStep x).addServe x).shedStart x)
    else if md = mdTripped then m.removeServe x
    else m
  let r := m.modeStep x
  let m := r.chip
  let m := if m.owner x = 1 then m.shedAbort x (meanAbs (m.iloop x) (m.nAct x)) else m
  let m := if m.mode x = mdStandby then m.netFrame x net else m
  let m := if runs (m.mode x) then
      let before := m.dPrev x / 2 ^ 24
      let m := ((if runs md then m else m.limEff x).tableRead x).control x r
      let m := (m.drFrame x).loadTests x
      let m := (m.actPh x).foldl (fun m k => (m.imbalance x k).faultTest x k) m
      let m := (m.actPh x).foldl (fun m k => m.balance x k) m
      ((m.phRender x before).phRequest x).regionFrame x
    else if m.mode x = mdStandby then
      let m := (m.actPh x).foldl (fun m k => (m.imbalance x k).balance x k) m
      ((m.phRequest x).spFrame x false).regionFrame x
    else if m.mode x = mdTripped then (m.spFrame x false).regionFrame x
    else m
  (m.phCount x).modLoop x (fun s => { s with ilSum := s.ilSum + m.iloop x, ilFrames := s.ilFrames + 1 })

/-- A frame boundary of a loop (R169): an OFF loop has none, but for the first one after ENABLE was written 1. -/
def Chip.frame (m : Chip) (x : Nat) (net : Option Nat) : Chip :=
  if m.mode x = mdOff ∧ !(m.loop x).reqOn then m else m.frameRun x net

/-! ### Fast samples (R161) -/

/-- A loss of feedback: it commits at the loop's next frame boundary, and at once in OFF, which has none. -/
def Chip.feedbackLose (m : Chip) (x : Nat) : Chip :=
  let m := m.modLoop x (fun s => { s with good := 0 })
  if m.mode x = mdOff then m.put (marPg x) MAR_STAT_FBFLT 1 else m.modLoop x (fun s => { s with fbLost := true })

/-- Feedback of every loop at a fast sample: 4 saturated samples in a row are a loss, 64 good ones clear FBFLT. -/
def Chip.marFast (m : Chip) : Chip :=
  (List.range (nLoops m.die.part)).foldl (fun m x =>
    let c := m.fbch x
    if !m.chainOn c then m
    else if atN m.mea.satRun c = 0 then
      let n := Nat.min 64 ((m.loop x).good + 1)
      let m := m.modLoop x (fun s => { s with good := n })
      if 64 ≤ n then m.put (marPg x) MAR_STAT_FBFLT 0 else m
    else if 4 ≤ atN m.mea.satRun c then m.feedbackLose x
    else m.modLoop x (fun s => { s with good := 0 })) m

/-! ### At a waypoint boundary -/

/-- The waypoint that the boundary closes. -/
def Chip.closedWp (m : Chip) : Nat := (m.tim.angle / 256 + 255) % 256

/-- Adaptation of the ripple table (R149); was the waypoint adapted? -/
def Chip.adapt (m : Chip) (x : Nat) : Bool × Chip :=
  let pg := marPg x
  let s := m.loop x
  let c := m.fbch x
  if m.has pg MAR_RFCFG_ADAPT && s.wpAuto && m.mode x == mdAuto && m.lockPermitted && !s.wpDirty && bit m.mea.resOk c &&
      !m.has 3 MEA_WP_HELD c && !m.has 3 MEA_WP_OVR c then
    let k := (m.closedWp + 256 - m.get pg MAR_RFCFG_LEAD) % 256
    let d := m.getS pg MAR_SPEFF_SP - m.wpCode c
    let ew := s.str.err (if m.has pg MAR_CFG_NEG then -d else d)
    let mu : Int := m.get pg MAR_RFCFG_RFMU * (if m.get pg MAR_RFSTAT_RFCNT < 64 then 4 else 1)
    let t := m.ripple x k + divFloor (ew * mu) 65536
    let leak := m.get pg MAR_RFCFG_RFLEAK
    let t := if leak = 0 then t else t - divFloor t (2 ^ leak)
    let t' := m.rfClamp x t
    let m := m.setRipple x k t'
    (true, if t' = t then m else (m.irq pg 8).modLoop x (fun s => { s with satNow := satInc 8 s.satNow }))
  else (false, m)

/-- FADE at a boundary (R148). -/
def Chip.fade (m : Chip) (x : Nat) : Chip :=
  let pg := marPg x
  let v := m.get pg MAR_RFSTAT_FADE
  let v' := if m.has pg MAR_RFCFG_FFEN && m.lockPermitted then v + 1 else v - 1
  m.put pg MAR_RFSTAT_FADE (Nat.min v' (m.fadeWp x))

/-- Adaptation and fading of one loop at a waypoint boundary; in STANDBY neither (R163). -/
def Chip.rippleStage (m : Chip) (x : Nat) : Chip :=
  if m.mode x = mdStandby then m.modLoop x (fun s => { s with cycAll := false })
  else
    let r := m.adapt x
    let m := (r.2.fade x)
    m.modLoop x (fun s => { s with cycAll := s.cycAll && r.1, wpAuto := decide (m.mode x = mdAuto), wpDirty := m.has (marPg x) MAR_STAT_CLIM || m.has (marPg x) MAR_STAT_SLEWING })

/-- A loop at a cycle boundary (R150, R167): RFCNT, SATN, the 16-cycle report, and a clear that waits. DEDUCED, unsafe
(log 34). -/
def Chip.rippleCycle (m : Chip) (x : Nat) : Chip :=
  let pg := marPg x
  let s := m.loop x
  let n := m.get pg MAR_RFSTAT_RFCNT
  let m := if s.cycAll then m.put pg MAR_RFSTAT_RFCNT (Nat.min 64 (n + 1)) else m
  let m := (m.put pg MAR_RFSTAT_SATN s.satNow).putB pg MAR_STAT_RFRDY (m.get pg MAR_RFSTAT_RFCNT == 64)
  let cyc := if s.satNow = 0 then 0 else s.satCyc + 1
  let m := m.modLoop x (fun s => { s with cycAll := true, satNow := 0, satCyc := if 16 ≤ cyc then 0 else cyc })
  let m := if 16 ≤ cyc then m.emit 0x2007 [x, s.satNow] else m
  match m.opOf pg with
  | some o =>
    if o.cmd = 1 then
      let m := (List.range 128).foldl (fun m j => m.wr (MAR_RF_LO.addr pg j) 0)
        (m.unitWrite 0x13 (fun n => n / 96 == x && decide (32 ≤ n % 96)))
      ((m.put pg MAR_RFSTAT_RFCNT 0).put pg MAR_STAT_RFRDY 0).endDone pg [BitVec.ofNat 32 m.tim.cycle]
    else m
  | none => m

/-- Charge trim of one loop (R158). -/
def Chip.chargeTrim (m : Chip) (x : Nat) : Chip :=
  let pg := marPg x
  let c := m.get pg MAR_TRIM_TRIMCH
  if m.mode x = mdManual ∧ !m.claimed x ∧ m.has pg MAR_CFG_MSRC then
    let usable := decide (c < 24) && bit m.mea.resOk c && !m.has 3 MEA_WP_HELD c && !m.has 3 MEA_WP_OVR c
    let lim : Int := m.get pg MAR_TRIM_TRIMMAX
    let step := if usable then
        clampI (-lim) lim (divFloor ((m.getS pg MAR_TRIMTGT_TGT - m.wpCode c) * m.get pg MAR_TRIM_KTRIM) (2 ^ 20))
      else 0
    m.put pg MAR_MDUTY_DUTY (clampI (m.dmin x) (m.dmax x) (m.get pg MAR_MDUTY_DUTY + step)).toNat
  else m

/-- A scheduled change applies (R159). -/
def Chip.schApply (m : Chip) (x : Nat) (late : Bool) : Chip :=
  let pg := marPg x
  let m := m.modLoop x (fun s => { s with schLate := false, schDefer := false })
  let m := if late then m.put pg MAR_SCHCTL_LATE 1 else m
  let m := if m.has pg MAR_SCHCTL_SETSP then m.put pg MAR_SPREG_SP (m.get pg MAR_SCHSP_SP) else m
  let m := if m.has pg MAR_SCHCTL_SETSTR then
      let on := m.has pg MAR_SCHCTL_FORCE
      (m.modLoop x (fun s => { s with forced := if on then some (m.get pg MAR_SCHCTL_FSTR) else none })).putB pg
        MAR_STAT_FORCED on
    else m
  let m := (m.put pg MAR_SCHCTL_ARM 0).put pg MAR_STAT_SCHHELD 0
  ((m.irq pg 11).raise (40 + x)).loopDepot x 3

/-- A loop's scheduled change at a waypoint boundary in stage 8 (R159). -/
def Chip.schStage (m : Chip) (x : Nat) : Chip :=
  let pg := marPg x
  let s := m.loop x
  if !m.has pg MAR_SCHCTL_ARM then m
  else
    let held := m.has pg MAR_STAT_SCHHELD
    let hits := m.tim.cycle == m.get pg MAR_SCHCYC_CYC && m.tim.angle / 256 == m.get pg MAR_SCHCTL_TGTWP
    if !(hits || s.schLate || s.schDefer || held) then m
    else if m.has pg MAR_SCHCTL_LOCKREQ && !m.lockPermitted then m.modLoop x (fun s => { s with schDefer := true })
    else if m.claimed x ∨ m.mode x = mdTripped then
      if held then m
      else ((m.put pg MAR_STAT_SCHHELD 1).irq pg 12).emit 0x2008
        [x, up (m.get pg MAR_SCHCYC_CYC), m.get pg MAR_SCHCTL_TGTWP]
    else m.schApply x s.schLate

/-- A write of SCHCTL (R159): a target that the present stamp has reached is late. DEDUCED, unsafe (log 96); DEDUCED,
unsafe (log 97). -/
def Chip.schctlWrite (m : Chip) (x v : Nat) : Chip :=
  let pg := marPg x
  let a := MAR_SCHCTL_ARM.addr pg
  let m := m.wr a (BitVec.ofNat 32 (plainValue (fieldsAt pg 0xCC) (m.rd a).toNat v true))
  let tgt := m.get pg MAR_SCHCYC_CYC * 65536 + m.get pg MAR_SCHCTL_TGTWP * 256
  let armed := m.has pg MAR_SCHCTL_ARM
  let m := m.put pg MAR_STAT_SCHHELD 0
  m.modLoop x (fun s => { s with schLate := armed && !stampBefore m.stamp.num tgt, schDefer := false })

/-- A forward cycle adjustment skips armed targets: they apply at the next boundary, late (R159). -/
def Chip.schSkip (m : Chip) (old new : Nat) : Chip :=
  let skipped := (new + 2 ^ 32 - (old + 1)) % 2 ^ 32
  (List.range 4).foldl (fun m x =>
    let c := m.get (marPg x) MAR_SCHCYC_CYC
    if m.has (marPg x) MAR_SCHCTL_ARM && decide ((c + 2 ^ 32 - (old + 1)) % 2 ^ 32 < skipped) then
      m.modLoop x (fun s => { s with schLate := true })
    else m) m

/-- Stage 8 of R15 for all loops. -/
def Chip.marStage (m : Chip) : Chip :=
  (List.range (nLoops m.die.part)).foldl (fun m x => ((m.schStage x).chargeTrim x)) m

/-- Adaptation and fading of all loops. -/
def Chip.rippleAll (m : Chip) : Chip := (List.range (nLoops m.die.part)).foldl (fun m x => m.rippleStage x) m

/-- All loops at a cycle boundary. DEDUCED, unsafe (log 34). -/
def Chip.rippleCycles (m : Chip) : Chip := (List.range (nLoops m.die.part)).foldl (fun m x => m.rippleCycle x) m

/-! ### Register writes (R164) -/

/-- A MODECMD write (R160, R164). -/
def Chip.modecmdWrite (m : Chip) (x v : Nat) : Chip :=
  let cmd := v % 4
  let names := (cmd = 1 ∧ m.mode x = mdManual) ∨ (cmd = 2 ∧ m.mode x = mdAuto)
  let acts := ((cmd = 1 ∨ cmd = 2) ∧ ¬names) ∨ bit v 2
  if !acts then m
  else if m.owner x ≠ 0 then m.marRefuse x 0x44
  else m.modLoop x (fun s => { s with
    reqManual := s.reqManual || (decide (cmd = 1) && !decide names),
    reqAuto := s.reqAuto || (decide (cmd = 2) && !decide names), reload := s.reload || bit v 2 })

/-- A write of CTRL.ENABLE (R160, R164, R169): an OFF loop's first frame has the PERIOD in effect at the write.
DEDUCED, unsafe (log 97). -/
def Chip.marEnable (m : Chip) (x : Nat) (en : Bool) : Chip :=
  let pg := marPg x
  if m.enabled pg = en then m
  else if m.owner x ≠ 0 then m.marRefuse x 0x08
  else
    let m := (m.putB pg HDR_CTRL_ENABLE en).modLoop x (fun s => { s with reqOn := en, reqOff := s.reqOff || !en })
    if en && m.mode x == mdOff then m.modPhl x (fun s => { s with period := m.get 0x0C PHM_LPER_PERIOD x }) else m

/-- The controller's role became standby: the loops' row of R160 commits at their next frame boundaries. -/
def Chip.marRole (m : Chip) : Chip :=
  if m.leads then m
  else (List.range (nLoops m.die.part)).foldl (fun m x => m.modLoop x (fun s => { s with reqStby := true })) m

/-- A write of CFG (R164): an owned loop keeps SPSRC. -/
def Chip.marCfgWrite (m : Chip) (r x v : Nat) : Chip :=
  let pg := marPg x
  let src := m.get pg MAR_CFG_SPSRC
  let change := decide (bitsOf v 24 2 ≠ src) && m.owner x != 0
  let m := if change then m.marRefuse x 0x40 else m
  m.plainWrite r (MAR_CFG_SPSRC.addr pg) (if change then setBits v 24 2 src else v)

/-- A write of SPREG (R164). DEDUCED, unsafe (log 38). -/
def Chip.spregWrite (m : Chip) (x v : Nat) : Chip :=
  let pg := marPg x
  if v % 2 ^ 24 = m.get pg MAR_SPREG_SP then m
  else if m.owner x ≠ 0 then m.marRefuse x 0x4C
  else m.put pg MAR_SPREG_SP v

/-- A write of MDUTY (R158, R164). -/
def Chip.mdutyWrite (m : Chip) (x v : Nat) : Chip :=
  let pg := marPg x
  if v % 2 ^ 16 = m.get pg MAR_MDUTY_DUTY then m
  else if m.owner x ≠ 0 ∨ m.has pg MAR_CFG_MSRC then m.marRefuse x 0x88
  else m.put pg MAR_MDUTY_DUTY v

/-- Does Cap govern the loop (R211, R213)? -/
def Chip.capGoverns (m : Chip) (x : Nat) : Bool :=
  m.enabled 0x1E && bit (m.get 0x1E CAP_BATMAP_GOV) x && decide (x < nLoops m.die.part) &&
  decide (12 ≤ m.get (marPg x) MAR_TRIM_TRIMCH) && decide (m.get (marPg x) MAR_TRIM_TRIMCH ≤ 15)

/-- A write of TRIMTGT (R158): refused for a loop that Cap governs. -/
def Chip.trimtgtWrite (m : Chip) (x v : Nat) : Chip :=
  if m.capGoverns x then m.marRefuse x 0xC4 else m.put (marPg x) MAR_TRIMTGT_TGT v

/-- Start of a long operation of a MAR page: 0x01 clears the ripple table at the next cycle boundary (R167). -/
def Chip.marStart (m : Chip) (x : Nat) : Chip :=
  match m.opOf (marPg x) with
  | some o => if o.cmd = 1 then m else m.endErr (marPg x) 0x01 0
  | none => m

/-! ### Commands -/

/-- LOOP_FRAME (R137): a frame boundary of loop `x`; `net` is the loop duty seen on the shared PH nets in the frame
before, if edges were seen. -/
def execLoopFrame (x : Fin 4) (net : Option (BitVec 16)) (s : State) : Host.Outcome State Fault Refusal :=
  s.run (fun m => if nLoops m.die.part ≤ x.val then m else m.frame x.val (net.map BitVec.toNat))

/-- FEEDBACK_LOST (R161): the feedback chain has delivered no new fast sample for 20.48 µs, four sample periods. -/
def execFeedbackLost (x : Fin 4) (s : State) : Host.Outcome State Fault Refusal :=
  s.run (fun m =>
    if nLoops m.die.part ≤ x.val ∨ m.ticksSince (atN m.mea.fastTick (m.fbch x.val)) < 4096 then m
    else m.feedbackLose x.val)

/-- RIPPLE_TABLE_CLEAR (R167): OPCMD 0x01 of a MAR page. -/
def execRippleTableClear (r : Requester) (x : Fin 4) (s : State) : Host.Outcome State Fault Refusal :=
  s.run (fun m => m.onPage (reqCode r) (marPg x.val) (fun m =>
    m.startOp (marPg x.val) 1 (reqCode r) (fun m => m.marStart x.val)))

/-- MODECMD_AUTO (R160). -/
def execModecmdAuto (r : Requester) (x : Fin 4) (s : State) : Host.Outcome State Fault Refusal :=
  s.run (fun m => m.onPage (reqCode r) (marPg x.val) (fun m => m.modecmdWrite x.val 2))

/-- MODECMD_MANUAL (R160). -/
def execModecmdManual (r : Requester) (x : Fin 4) (s : State) : Host.Outcome State Fault Refusal :=
  s.run (fun m => m.onPage (reqCode r) (marPg x.val) (fun m => m.modecmdWrite x.val 1))

/-- MODECMD_RELOAD (R142). -/
def execModecmdReload (r : Requester) (x : Fin 4) (s : State) : Host.Outcome State Fault Refusal :=
  s.run (fun m => m.onPage (reqCode r) (marPg x.val) (fun m => m.modecmdWrite x.val 4))

/-- LOOP_ENABLE_WRITE (R160). -/
def execLoopEnableWrite (r : Requester) (x : Fin 4) (en : Bool) (s : State) : Host.Outcome State Fault Refusal :=
  s.run (fun m => m.onPage (reqCode r) (marPg x.val) (fun m => m.marEnable x.val en))

end Sys2Proof.Machine
end

