-- ==== Sys2Proof/Machine/Share.lean ====
section
/-! DEFINITION. Share (R201–R206): the states of rectifier sharing and the trims of a cadence. -/

namespace Sys2Proof.Machine

/-- Names of Share's states (R229). -/
abbrev shOff : Nat := 0
abbrev shStandby : Nat := 1
abbrev shFallback : Nat := 2
abbrev shActive : Nat := 3
abbrev shSuspended : Nat := 4

/-- Share's state. -/
def Chip.shState (m : Chip) : Nat := m.get 0x1D SHR_STAT_STATE

/-- Is ISHARE driven low (R203)? Released while mains is lost (R23). -/
def Chip.ishareLow (m : Chip) : Bool :=
  m.shState == shActive && !m.mainsLost && m.has 0x1D SHR_CFG_ISHEN && m.leads && !m.held && !m.has 0x37 PIN_STAT_OHOLD

/-- The slots that hold a context, ascending. -/
def Chip.usedSlots (m : Chip) : List Nat := (List.range 24).filter (fun n => m.slotCtx n != 0)

/-- A context's last response to a command, in 1/16 of its unit, if it came within `n` waypoints. -/
def Chip.recent (m : Chip) (c cmd n : Nat) : Option Int :=
  match Sparse.find (m.ctx c).tel cmd, Sparse.find (m.ctx c).telAt cmd with
  | some w, some t => if m.tim.wpCount ≤ t + n then some (lin11 w) else none
  | _, _ => none

/-- CAD; 0 is treated as 1. -/
def Chip.shCad (m : Chip) : Nat := Nat.max 1 (m.get 0x1D SHR_CFG_CAD)

/-- Is the rectifier of a slot eligible (R201)? -/
def Chip.shEligible (m : Chip) (n : Nat) : Bool :=
  let c := m.slotCtx n
  let x := m.ctx c
  c != 0 && x.state == 2 && (match x.voutMode with
    | some v => v / 32 == 0
    | none => false) &&
  (m.recent c 0x8C (Nat.max 1 (m.get 0x1D SHR_CFG_STALEC) * m.shCad)).isSome

/-- A trim in mV as the rectifier's word: units of 2^N V, to nearest (R204). -/
def shEncode (mode : Nat) (mv : Int) : Int :=
  let e := sx 5 mode
  if 0 ≤ e then divNear mv (1000 * 2 ^ e.toNat) else divNear (mv * 2 ^ (-e).toNat) 1000

/-- Queue VOUT_TRIM of a slot (R202, R204). While mains is lost it waits in its queue (R23). -/
def Chip.shTrim (m : Chip) (n : Nat) (mv : Int) : Chip :=
  let c := m.slotCtx n
  let m := m.putS 0x1D SHR_SLOT_TRIM (satS 16 mv) n
  (m.setShr n { m.shrSlot n with trim := satS 16 mv, failed := false }).pmWrite c 0x22
    (shEncode (((m.ctx c).voutMode).getD 0) mv) 0

/-- Queue VOUT_TRIM 0 to every slot that is not LOST (R202). -/
def Chip.shTrimsZero (m : Chip) : Chip :=
  m.usedSlots.foldl (fun m n => if (m.ctx (m.slotCtx n)).state = 4 then m else m.shTrim n 0) m

/-- A change of Share's state (R202). The cadence boundaries of FALLBACK go on through SUSPENDED. -/
def Chip.shEnter (m : Chip) (st : Nat) : Chip :=
  let was := m.shState
  if was = st then m
  else
    let m := { m.put 0x1D SHR_STAT_STATE st with shr := if st = shSuspended then m.shr else {} }
    (m.irq 0x1D 4).emit 0x1030 [was, st, m.get 0x1D SHR_STAT_NELIG]

/-- Share enters OFF: ISHARE released and zero trims queued. -/
def Chip.shStop (m : Chip) : Chip := if m.shState = shOff then m else (m.shEnter shOff).shTrimsZero

/-- Queued trims are discarded. -/
def Chip.shDiscard (m : Chip) : Chip :=
  { m with ports := m.ports.map (fun p => { p with trims := p.trims.filter (fun t => t.cmd != 0x22) }) }

/-- The slots whose trim waits in a port's queue. -/
def Chip.shQueued (m : Chip) : List Nat :=
  (m.ports.flatMap (fun p => p.trims)).filterMap (fun t => if t.cmd = 0x22 then m.slotOf t.ctx else none)

/-- Trims that were queued are marked as not sent. -/
def Chip.shUnsent (m : Chip) : Chip :=
  m.shQueued.foldl (fun m n => m.setShr n { m.shrSlot n with rewrite := true, failed := true }) m

/-- Hold-up enters CARRY: SUSPENDED at once. -/
def Chip.shSuspend (m : Chip) : Chip :=
  if m.shState = shActive ∨ m.shState = shFallback then (m.shEnter shSuspended).shDiscard else m

/-- Stage 6 of R15 for Share's states (R202). A cadence falls due every CAD waypoints, counted from the boundary at
which FALLBACK was entered. In FALLBACK while Hold-up carries Share is SUSPENDED. On a standby OFF stays OFF, but an
ENABLE written in boot leads to STANDBY (R508). -/
def Chip.shStage (m : Chip) : Chip :=
  let hu := m.get 0x1F HLD_STAT_STATE
  let was := m.shState
  let m :=
    if !m.enabled 0x1D then m.shStop
    else if !m.leads then
      (if m.shState = shOff && !m.has 0x37 PIN_STAT_OHOLD then m else m.shEnter shStandby)
    else if m.shState = shOff ∨ m.shState = shStandby then m.shEnter shFallback
    else if m.shState = shSuspended ∧ (hu = 0 ∨ hu = 1 ∨ hu = 2) then m.shEnter shFallback
    else m
  let m := if hu = 3 ∨ hu = 4 then m.shSuspend else m
  if m.shState = shOff ∨ (m.shState ≠ was ∧ m.shState ≠ shSuspended) then m
  else
    let c := m.shr.count + 1
    { m with shr := { count := c % m.shCad, due := c % m.shCad == 0 } }

/-- The trim of one eligible slot at a cadence (R204), of `n` with the mean current `iavg` and the common trim
`ctrim`; a standby reports it and queues nothing (R206). -/
def Chip.shSlotTrim (m : Chip) (k n : Nat) (cur iavg ctrim : Int) : Chip :=
  let lim : Int := m.get 0x1D SHR_LIM_TRIMLIM
  let s := m.shrSlot k
  let ind := if n = 1 then 0 else clampI (-lim) lim (s.ind + divFloor (m.get 0x1D SHR_GAIN_KSH * (iavg - cur)) 4096)
  let want := clampI (-lim) lim (ctrim + ind)
  let step : Int := m.get 0x1D SHR_LIM_STEPMAX
  let trim := satS 16 (s.trim + clampI (-step) step (want - s.trim))
  let m := m.setShr k { s with ind := ind, trim := trim }
  let enc := shEncode (((m.ctx (m.slotCtx k)).voutMode).getD 0) trim
  if s.written = some enc ∧ !s.rewrite then m else m.shTrim k trim

/-- A trim whose write failed is queued again (R204), if its rectifier is not LOST. -/
def Chip.shAgain (m : Chip) (n : Nat) : Chip :=
  if (m.shrSlot n).failed && decide ((m.ctx (m.slotCtx n)).state ≠ 4) then m.shTrim n (m.getS 0x1D SHR_SLOT_TRIM n) else m

/-- The trims of one cadence (R204) in ascending slot number (R205): computed for eligible slots, and queued again for
others whose write failed. -/
def Chip.shCompute (m : Chip) : Chip :=
  let elig := m.usedSlots.filter m.shEligible
  let n := elig.length
  let lim : Int := m.get 0x1D SHR_LIM_TRIMLIM
  let vch := m.get 0x1D SHR_VREF_VCH
  let vb := m.wpCode (if 16 ≤ vch ∧ vch ≤ 18 then vch else 16)
  let ev := divFloor (m.getS 0x1D SHR_VREF_VREF - vb) 125
  let ctrim := clampI (-lim) lim (m.getS 0x1D SHR_CTRIM_TRIM + divFloor (m.get 0x1D SHR_GAIN_KV * ev) 256)
  let cur := fun k => (m.recent (m.slotCtx k) 0x8C (16 * 256)).getD 0
  let iavg := divFloor ((elig.map cur).foldl (· + ·) 0) n
  let m := (m.putS 0x1D SHR_CTRIM_TRIM (satS 16 ctrim)).putS 0x1D SHR_IAVG_I (satS 16 iavg)
  m.usedSlots.foldl (fun m k => if elig.contains k then m.shSlotTrim k n (cur k) iavg ctrim else m.shAgain k) m

/-- ELIG and FROZEN of every slot and the number of eligible ones (R204, R229). -/
def Chip.shMarks (m : Chip) : Chip :=
  let m := (List.range 24).foldl (fun m n =>
    let used := m.slotCtx n != 0
    let elig := used && m.shEligible n
    (m.putB 0x1D SHR_SLOT_ELIG elig n).putB 0x1D SHR_SLOT_FROZEN (used && !elig) n) m
  m.put 0x1D SHR_STAT_NELIG (m.usedSlots.filter m.shEligible).length

/-- The writes still queued at a cadence boundary that stay: of Hold-up's, the last to each rectifier. DEDUCED, unsafe
(log 132). -/
def keepLast : List PmTx → List PmTx
  | [] => []
  | t :: ts => if t.cmd = 0x22 || ts.any (fun u => u.ctx == t.ctx && u.cmd == t.cmd) then keepLast ts else t :: keepLast ts

/-- Writes still queued at a cadence boundary (R205): trims give way to that boundary's, a rectifier's other writes to
the last of them, and the boundary counts in OVRUN. DEDUCED, unsafe (log 132). -/
def Chip.shOverrun (m : Chip) : Chip :=
  if m.ports.all (fun p => p.trims.isEmpty) then m
  else
    let m := m.shUnsent
    ({ m with ports := m.ports.map (fun (p : PmPort) => { p with trims := keepLast p.trims }) }).count 0x1D SHR_STAT_OVRUN

/-- A slot whose rectifier was LOST has its trim written at its next eligible cadence. -/
def Chip.shLostMark (m : Chip) : Chip :=
  m.usedSlots.foldl (fun m n =>
    if (m.ctx (m.slotCtx n)).state = 4 then m.setShr n { m.shrSlot n with rewrite := true } else m) m

/-- FALLBACK to ACTIVE (R202): trims 0, VNOM and zero trims queued. -/
def Chip.shActivate (m : Chip) : Chip :=
  let m := (m.shEnter shActive).putS 0x1D SHR_CTRIM_TRIM 0
  let m := m.usedSlots.foldl (fun m n => m.setShr n { m.shrSlot n with ind := 0, trim := 0 }) m
  let vnom := m.get 0x1D SHR_VNOM_VNOM
  let m := if vnom = 0 then m
    else (m.usedSlots.filter m.shEligible).foldl (fun m n => m.pmWrite (m.slotCtx n) 0x21 vnom 0) m
  m.shTrimsZero

/-- One cadence boundary (R202, R204, R205). -/
def Chip.shCadence (m : Chip) : Chip :=
  if !m.shr.due then m
  else
    let m := { m with shr := { m.shr with due := false } }
    let m := (m.shMarks).shLostMark
    let none := (m.usedSlots.filter m.shEligible).isEmpty
    if m.shState = shFallback then
      let m := m.shOverrun
      if none then m.usedSlots.foldl (fun m n => m.shAgain n) m else m.shActivate
    else if m.shState = shActive then
      let m := m.shOverrun
      if none then (m.shEnter shFallback).shTrimsZero else m.shCompute
    else if m.shState = shSuspended then m.shOverrun
    else if m.shState = shStandby ∧ !none then m.shCompute
    else m

/-! ### Commands -/

/-- SHARE_ENABLE_WRITE (R202): Share's conditions are tested at the next waypoint boundary. -/
def execShareEnableWrite (r : Requester) (en : Bool) (s : State) : Host.Outcome State Fault Refusal :=
  s.run (fun m => m.onPage (reqCode r) 0x1D (fun m => m.putB 0x1D HDR_CTRL_ENABLE en))

/-- SHARE_CADENCE (R204): CAD waypoints have passed. -/
def execShareCadence (s : State) : Host.Outcome State Fault Refusal :=
  s.run (fun m => m.shCadence)

end Sys2Proof.Machine
end

