-- ==== Sys2Proof/Machine/Holdup.lean ====
section
/-! DEFINITION. Hold-up (R220–R227): readiness, triggers, the carry and the return of the battery loops. -/

namespace Sys2Proof.Machine

/-- Names of Hold-up's states (R231). -/
abbrev huOff : Nat := 0
abbrev huNotReady : Nat := 1
abbrev huArmed : Nat := 2
abbrev huCarry : Nat := 3
abbrev huReturn : Nat := 4

/-- Hold-up's state. -/
def Chip.huState (m : Chip) : Nat := m.get 0x1F HLD_STAT_STATE

/-- Does Hold-up own a loop? -/
def Chip.huOwns (m : Chip) (x : Nat) : Bool := bit (m.get 0x1F HLD_STAT_OWNED) x

/-- The string of a loop (R213, R220): TRIMCH − 12, if TRIMCH lies in 12–15. -/
def Chip.strOf (m : Chip) (x : Nat) : Option Nat :=
  let c := m.get (marPg x) MAR_TRIM_TRIMCH
  if 12 ≤ c ∧ c ≤ 15 then some (c - 12) else none

/-- Is the battery estimator of a string present and enabled? -/
def Chip.batOn (m : Chip) (s : Nat) : Bool := decide (s < nStrings m.die.part) && m.enabled (0x19 + s)

/-- A string's current of the last waypoint in 1/16 A, charging positive. -/
def Chip.strCurrent (m : Chip) (s : Nat) : Int := m.chain16 (12 + s) (m.wpCode (12 + s))

/-- Is a string exhausted (R224)? -/
def Chip.strExhausted (m : Chip) (s : Nat) : Bool :=
  if m.batOn s then m.has (0x19 + s) BAT_STAT_EODCUT
  else bit m.mea.resOk (19 + s) && decide (m.wpCode (19 + s) < m.getS 0x1F HLD_EXHV_V)

/-- Is a carried loop ready (R220, R227)? A loop in STANDBY has the string it would load in MANUAL. -/
def Chip.huReady (m : Chip) (x : Nat) : Bool :=
  let md := m.mode x
  (md == mdManual || (md == mdAuto && m.owner x == 0) || md == mdStandby) && !m.has (marPg x) MAR_STAT_FBFLT &&
  ((m.loop x).loaded || (md == mdStandby && (m.storedStr x (m.wantStr x)).valid)) && !bit (m.get 0x1F HLD_STAT_EXH) x &&
  (match m.strOf x with
   | some s => !m.strExhausted s
   | none => false)

/-- The carried loops HLOOPS names; bits of absent loops read 0 (R231). -/
def Chip.huLoops (m : Chip) : List Nat := bitsUp (m.get 0x1F HLD_CFG_HLOOPS) (nLoops m.die.part)

/-- READY and CFGERR follow the carried loops. -/
def Chip.huJudge (m : Chip) : Chip :=
  let rd := (m.huLoops.filter m.huReady).foldl setBit 0
  (m.put 0x1F HLD_STAT_READY rd).putB 0x1F HLD_STAT_CFGERR (m.huLoops.any (fun x => (m.strOf x).isNone))

/-- The chain of the sag trigger (R231). -/
def Chip.sagCh (m : Chip) : Nat :=
  let c := m.get 0x1F HLD_CFG_SAGCH
  if 16 ≤ c ∧ c ≤ 18 then c else 16

/-- The latest fast sample of SAGCH. -/
def Chip.sagNow (m : Chip) : Int := atI m.mea.fast m.sagCh

/-- A Depot entry of source 19 with a stamp (R388). -/
def Chip.busDepotAt (m : Chip) (st : Stamp) (tag v : Nat) : Chip :=
  m.depotAt 19 tag (v + m.get 0x1E CAP_OVER_OVER * 2 ^ 32) st

/-- A Depot entry of source 19 at the present stamp. -/
def Chip.busDepot (m : Chip) (tag v : Nat) : Chip := m.busDepotAt m.stamp tag v

/-- A Depot entry of source 19 for a result of a waypoint stage: the stamp of the waypoint boundary (R387). -/
def Chip.busDepotWp (m : Chip) (tag v : Nat) : Chip := m.busDepotAt m.tim.wpStamp tag v

/-- Queue VOUT_COMMAND to a list of slots, in mV; with VNOM = 0 it is never written. PRESUMED, unsafe (log 43). -/
def Chip.huWrite (m : Chip) (slots : List Nat) (mv : Nat) : Chip :=
  if m.has 0x1D SHR_VNOM_VNOM then slots.foldl (fun m n => m.pmWrite (m.slotCtx n) 0x21 mv 0) m else m

/-- The command written at entry into CARRY or RETURN (R221, R223, R225). DEDUCED, unsafe (log 98). -/
def Chip.huLow (m : Chip) (cause : Nat) : Nat :=
  if cause = 3 then m.get 0x1D SHR_VNOM_VNOM - m.hld.testDv else m.get 0x1F HLD_RAMP_RAMPLO

/-- Transfer requests to loops (R222): owned from the request, with REFx at HUREF. -/
def Chip.huTransfer (m : Chip) (xs : List Nat) : Chip :=
  xs.foldl (fun m x =>
    ((m.maskSet 0x1F HLD_STAT_OWNED x).put 0x1F HLD_REF_V (m.get 0x1F HLD_HUREF_V) x).modLoop x
      (fun s => { s with reqHu := true, reqRet := false })) m

/-- CAUSE, TCYC and TANG of a trigger, and MINBUS anew (R221, R227). -/
def Chip.huMark (m : Chip) (cause : Nat) : Chip :=
  let m := (m.put 0x1F HLD_STAT_CAUSE cause).put 0x1F HLD_TCYC_CYCLE m.tim.cycle
  let m := ((m.put 0x1F HLD_TANG_FLAGS m.flags).put 0x1F HLD_TANG_ANGLE m.tim.angle).putS 0x1F HLD_MINBUS_V m.sagNow
  { m with hld := { m.hld with minLeft := 256 } }

/-- The loops owned whose hand-back has not committed stay with Hold-up, but for exhausted ones (R221). DEDUCED,
unsafe (log 98). -/
def Chip.huKeep (m : Chip) : Chip :=
  (bitsUp (m.get 0x1F HLD_STAT_OWNED) 4).foldl (fun m x =>
    if bit (m.get 0x1F HLD_STAT_EXH) x then m else m.modLoop x (fun s => { s with reqRet := false })) m

/-- The carried loops that have been handed back and are ready (R221). -/
def Chip.huHanded (m : Chip) : List Nat :=
  m.huLoops.filter (fun x => bit m.hld.handed x && m.huReady x && !m.huOwns x)

/-- Entry into CARRY by a trigger (R221): transfers, Share suspended, the low command, code 0x1020. From RETURN the ramp
stops, and loops handed back are transferred again. -/
def Chip.huCarryEnter (m : Chip) (cause : Nat) : Chip :=
  let again := m.huState == huReturn
  let xs := if again then m.huHanded else m.huLoops.filter m.huReady
  let old := fun (n : Nat) => if again then xs.foldl clearBit n else 0
  let m := if again then m.huKeep else m
  let m := (m.huMark cause).put 0x1F HLD_STAT_STATE huCarry
  let m := { m with hld := { m.hld with carryWp := 0, lockRun := 0, startDue := false, rampDue := false, repeatDue := false,
                                        timeoutDue := false, retiRun := [0, 0, 0, 0], handed := 0,
                                        exhHanded := again && m.hld.exhHanded,
                                        hloops := if again then m.hld.hloops else m.get 0x1F HLD_CFG_HLOOPS,
                                        tripped := old m.hld.tripped, fbLost := old m.hld.fbLost, maxDis := 0 } }
  let m := (m.huTransfer xs).shSuspend
  let m := if again then m else m.huWrite m.usedSlots (m.huLow cause)
  (((m.irq 0x1F 4).raise 58).emit 0x1020 [cause, m.get 0x1F HLD_STAT_OWNED, sp m.sagNow]).busDepot 1 cause

/-- A trigger (R220, R221, R227): 1 mains loss, 2 sag, 3 test. -/
def Chip.huTrigger (m : Chip) (cause : Nat) : Chip :=
  let allowed := if cause = 1 then m.has 0x1F HLD_CFG_LOSSEN else if cause = 2 then m.has 0x1F HLD_CFG_SAGEN else true
  if !allowed || !m.enabled 0x1F then m
  else if !m.leads then m.huMark cause
  else if m.huState = huNotReady then
    (m.irq 0x1F 6).emit 0x1021 [cause, m.get 0x1F HLD_STAT_READY]
  else if m.huState = huArmed then (m.huJudge).huCarryEnter cause
  else if m.huState = huReturn ∧ cause ≠ 3 then (m.huJudge).huCarryEnter cause
  else m

/-- Bus samples of a fast sample (R220): MINBUS, and the sag test, once per run below SAGLVL. -/
def Chip.huFast (m : Chip) : Chip :=
  let v := m.sagNow
  let m := if 0 < m.hld.minLeft ∧ v < m.getS 0x1F HLD_MINBUS_V then m.putS 0x1F HLD_MINBUS_V v else m
  if !m.chainOn m.sagCh then m
  else if v < m.getS 0x1F HLD_SAGLVL_V then
    let run := Nat.min 2 (m.hld.sagRun + 1)
    let m := { m with hld := { m.hld with sagRun := run } }
    if 2 ≤ run ∧ m.hld.sagArmed ∧ m.has 0x1F HLD_CFG_SAGEN then
      ({ m with hld := { m.hld with sagArmed := false } }).huTrigger 2
    else m
  else { m with hld := { m.hld with sagRun := 0, sagArmed := true } }

/-- Hand a loop back at its next frame boundary; a transfer that waits for it commits before (R160). -/
def Chip.huHand (m : Chip) (x : Nat) : Chip :=
  let m := m.modLoop x (fun s => { s with reqRet := true })
  { m with hld := { m.hld with handed := setBit m.hld.handed x, lastHand := m.hld.returnWp } }

/-- A test that no RETURN will complete ends as an abort does (R225). DEDUCED, unsafe (log 98). -/
def Chip.huTestLost (m : Chip) : Chip :=
  match m.opOf 0x1F with
  | some _ => m.endErr 0x1F 0x05 (m.get 0x1F HDR_STATUS_PROGRESS)
  | none => m

/-- Hold-up enters OFF (R221): owned loops are handed back. -/
def Chip.huStop (m : Chip) : Chip :=
  let m := m.huTestLost.put 0x1F HLD_STAT_STATE huOff
  let m := { m with hld := { m.hld with startDue := false, rampDue := false, repeatDue := false, timeoutDue := false } }
  (bitsUp (m.get 0x1F HLD_STAT_OWNED) 4).foldl (fun m x => m.huHand x) m

/-- From OFF by readiness (R221). -/
def Chip.huStart (m : Chip) : Chip :=
  let m := m.huJudge
  m.put 0x1F HLD_STAT_STATE (if m.has 0x1F HLD_STAT_READY then huArmed else huNotReady)

/-- A write of CTRL.ENABLE (R221). -/
def Chip.huEnable (m : Chip) (en : Bool) : Chip :=
  let m := m.putB 0x1F HDR_CTRL_ENABLE en
  if !en then (if m.huState = huOff then m else m.huStop)
  else if m.huState = huOff ∧ m.leads then m.huStart else m

/-- The controller's role changed: OFF on a standby; from OFF, readiness on a master or solo (R221). -/
def Chip.huRole (m : Chip) : Chip :=
  if !m.leads then (if m.huState = huOff then m else m.huStop)
  else if m.huState = huOff ∧ m.enabled 0x1F then m.huStart else m

/-- The references of owned loops (R222, R224). -/
def Chip.huRefs (m : Chip) : Chip :=
  let own := bitsUp (m.get 0x1F HLD_STAT_OWNED) 4
  let dis := fun x => match m.strOf x with
    | some s => -m.strCurrent s
    | none => 0
  let davg := divFloor ((own.map dis).foldl (· + ·) 0) own.length
  let slew : Int := m.get 0x1F HLD_RELSLEW_SLEW
  let mx : Int := m.get 0x1F HLD_SHRG_SHRMAX
  own.foldl (fun m x =>
    let ref := if bit m.hld.exhausted x then m.getS 0x1F HLD_SAGLVL_V
      else m.getS 0x1F HLD_HUREF_V - clampI (-mx) mx (m.get 0x1F HLD_SHRG_KSHR * (dis x - davg))
    let old := m.getS 0x1F HLD_REF_V x
    m.putS 0x1F HLD_REF_V (satS 24 (old + clampI (-slew) slew (ref - old))) x) m

/-- The owned loops whose string is exhausted now; EXH clears outside CARRY and RETURN when the string has recovered
(R224). -/
def Chip.huExhaust (m : Chip) : Chip :=
  let inCarry := m.huState == huCarry || m.huState == huReturn
  let now : Nat → Bool := fun x => match m.strOf x with
    | some s => m.strExhausted s
    | none => false
  if inCarry then
    { m with hld := { m.hld with exhausted := ((bitsUp (m.get 0x1F HLD_STAT_OWNED) 4).filter now).foldl setBit 0 } }
  else
    let m := { m with hld := { m.hld with exhausted := 0 } }
    (bitsUp (m.get 0x1F HLD_STAT_EXH) 4).foldl (fun m x => if now x then m else m.maskClr 0x1F HLD_STAT_EXH x) m

/-- Hand-backs by current (R223): 4 waypoints no more negative than −RETI, in RETURN for every owned loop, in CARRY for
an exhausted one and for one that HLOOPS no longer names; a loop that lost its feedback at once. -/
def Chip.huHandBacks (m : Chip) : Chip :=
  let reti : Int := m.get 0x1F HLD_RET_RETI
  (bitsUp (m.get 0x1F HLD_STAT_OWNED) 4).foldl (fun m x =>
    let ok := match m.strOf x with
      | some s => decide (-reti ≤ m.strCurrent s)
      | none => true
    let run := if ok then Nat.min 4 (atN m.hld.retiRun x + 1) else 0
    let m := { m with hld := { m.hld with retiRun := setAt m.hld.retiRun x run } }
    let exh := bit m.hld.exhausted x
    let may := m.huState == huReturn || exh || !bit m.hld.hloops x
    if (m.loop x).reqRet then m
    else if m.mode x = mdManual ∧ m.owner x = 1 then
      { m.huHand x with hld := { (m.huHand x).hld with fbLost := setBit m.hld.fbLost x } }
    else if may && decide (4 ≤ run) then
      let m := m.huHand x
      if exh then
        let m := (m.maskSet 0x1F HLD_STAT_EXH x).emit 0x1024 [x, (m.strOf x).getD 0]
        { m with hld := { m.hld with exhHanded := true } }
      else m
    else m) m

/-- Loops transferred again in CARRY or RETURN: after a trip (code 0x1025), after lost feedback, or newly in HLOOPS. -/
def Chip.huAgain (m : Chip) : Chip :=
  let old := m.hld.hloops
  let m := { m with hld := { m.hld with hloops := m.get 0x1F HLD_CFG_HLOOPS } }
  m.huLoops.foldl (fun m x =>
    if m.huOwns x || !m.huReady x then m
    else if bit m.hld.tripped x then
      { (m.huTransfer [x]).emit 0x1025 [x] with hld := { m.hld with tripped := clearBit m.hld.tripped x } }
    else if bit m.hld.fbLost x then
      { m.huTransfer [x] with hld := { m.hld with fbLost := clearBit m.hld.fbLost x, handed := clearBit m.hld.handed x } }
    else if !bit old x then m.huTransfer [x]
    else m) m

/-- RETURN ends with every loop handed back and the ramp at VNOM (R221): result 1; a test's operation ends. -/
def Chip.huComplete (m : Chip) : Chip :=
  let m := (m.put 0x1F HLD_STAT_STATE (if m.has 0x1F HLD_STAT_READY then huArmed else huNotReady))
  let m := (m.emit 0x1023 [1, up m.hld.returnWp, m.hld.handed]).busDepot 3 (m.get 0x1F HLD_STAT_CAUSE)
  match m.opOf 0x1F with
  | some o =>
    if o.phase = 9 then m.endErr 0x1F 0x05 o.a
    else if m.get 0x1F HLD_STAT_CAUSE = 3 then
      m.endDone 0x1F [BitVec.ofNat 32 (m.get 0x1F HLD_MINBUS_V), BitVec.ofNat 32 m.hld.lastHand,
                      BitVec.ofInt 32 (clampI 0 65535 m.hld.maxDis)]
    else m.endErr 0x1F 0x05 (m.get 0x1F HDR_STATUS_PROGRESS)
  | none => m

/-- The largest string discharge of a test. -/
def Chip.huMaxDis (m : Chip) : Chip :=
  (bitsUp (m.get 0x1F HLD_STAT_OWNED) 4).foldl (fun m x => match m.strOf x with
    | some s => { m with hld := { m.hld with maxDis := maxI m.hld.maxDis (-m.strCurrent s) } }
    | none => m) m

/-- What CARRY and RETURN do at every boundary: references, hand-backs, transfers again, readiness. -/
def Chip.huOwned (m : Chip) : Chip :=
  let m := m.huMaxDis
  let m := m.huRefs
  let m := m.huHandBacks
  let m := m.huAgain
  m.huJudge

/-- Is RETURN due in CARRY, by cause, with `run` boundaries in LOCKED and `wp` boundaries in CARRY (R221)? DEDUCED,
unsafe (log 41). -/
def Chip.huStartDue (m : Chip) (run wp : Nat) : Bool :=
  let cause := m.get 0x1F HLD_STAT_CAUSE
  if cause = 1 then decide (Nat.max 1 (m.get 0x1F HLD_RET_RETDLY) < run)
  else if cause = 2 then decide (Nat.max 1 (m.get 0x1F HLD_TIMEOUT_SAGHOLD) ≤ run)
  else decide (m.hld.testWp ≤ wp)

/-- Hold-up at a boundary in CARRY. DEDUCED, unsafe (log 41). -/
def Chip.huCarryStage (m : Chip) : Chip :=
  let run := if m.ttb = ttbLocked then m.hld.lockRun + 1 else 0
  let wp := m.hld.carryWp + 1
  let due := m.huStartDue run wp
  let rep := m.hld.repeatDue || wp % 256 == 0
  let m := { m with hld := { m.hld with lockRun := run, carryWp := wp, startDue := due, repeatDue := rep } }
  let m := m.huOwned
  if m.get 0x1F HLD_STAT_OWNED == 0 && m.hld.exhHanded && !m.has 0x1F HLD_STAT_READY then
    ((m.huTestLost.put 0x1F HLD_STAT_STATE huNotReady).irq 0x1F 7).raise 60
  else m

/-- Hold-up at a boundary in RETURN. -/
def Chip.huReturnStage (m : Chip) : Chip :=
  let wp := m.hld.returnWp + 1
  let vnom := m.get 0x1D SHR_VNOM_VNOM
  let ramp := m.hld.rampDue || (wp % Nat.max 1 (m.get 0x1F HLD_RAMP_RAMPDIV) == 0 && decide (m.hld.rampMv < vnom))
  let late := decide (Nat.max 1 (m.get 0x1F HLD_TIMEOUT_RETTO) ≤ wp)
  let m := { m with hld := { m.hld with returnWp := wp, rampDue := ramp, timeoutDue := late } }
  let m := m.huOwned
  if m.get 0x1F HLD_STAT_OWNED == 0 && decide (vnom ≤ m.hld.rampMv) then m.huComplete else m

/-- Stage 4 of R15: Hold-up at a waypoint boundary. In ARMED a Timetable without mains triggers before readiness changes
the state (R221). -/
def Chip.huStage (m : Chip) : Chip :=
  let m := { m with hld := { m.hld with minLeft := m.hld.minLeft - 1 } }
  let m := m.huExhaust
  let m := m.huJudge
  if m.huState = huArmed ∧ m.mainsLost ∧ m.has 0x1F HLD_CFG_LOSSEN then m.huTrigger 1
  else if m.huState = huArmed ∨ m.huState = huNotReady then
    m.put 0x1F HLD_STAT_STATE (if m.has 0x1F HLD_STAT_READY then huArmed else huNotReady)
  else if m.huState = huCarry then m.huCarryStage
  else if m.huState = huReturn then m.huReturnStage
  else m

/-- Entry into RETURN (R221, R223), with the stamp of its Depot entry. -/
def Chip.huReturnEnter (m : Chip) (st : Stamp) : Chip :=
  let low := m.huLow (m.get 0x1F HLD_STAT_CAUSE)
  let m := (m.put 0x1F HLD_STAT_STATE huReturn).put 0x1F HLD_STAT_RAMPN 0
  let m := { m with hld := { m.hld with returnWp := 0, startDue := false, repeatDue := false, rampDue := false,
                                        timeoutDue := false, retiRun := [0, 0, 0, 0], handed := 0, lastHand := 0,
                                        rampMv := if m.has 0x1D SHR_VNOM_VNOM then low else 0 } }
  let m := m.huWrite m.usedSlots low
  (((m.irq 0x1F 5).raise 59).emit 0x1022 [up ((m.tim.cycle + 2 ^ 32 - m.get 0x1F HLD_TCYC_CYCLE) % 2 ^ 32)]).busDepotAt st 2
    (m.get 0x1F HLD_STAT_CAUSE)

/-- One step of the ramp (R223). -/
def Chip.huRampStep (m : Chip) : Chip :=
  let vnom := m.get 0x1D SHR_VNOM_VNOM
  let mv := Nat.min vnom (m.hld.rampMv + Nat.max 1 (m.get 0x1F HLD_RAMP_RAMPSTEP))
  let m := { m with hld := { m.hld with rampMv := mv, rampDue := false } }
  (m.huWrite m.usedSlots mv).count 0x1F HLD_STAT_RAMPN

/-- RETURN without completion (R221): back to CARRY, the ramp stops, ready loops handed back are transferred again. -/
def Chip.huTimeout (m : Chip) : Chip :=
  let m := ((m.irq 0x1F 8).emit 0x1023 [2, up m.hld.returnWp, m.hld.handed]).put 0x1F HLD_STAT_STATE huCarry
  let cause := m.get 0x1F HLD_STAT_CAUSE
  let m := m.busDepotWp 3 cause
  let again := m.huHanded
  let m := m.huKeep
  let m := { m with hld := { m.hld with carryWp := 0, lockRun := 0, startDue := false, rampDue := false,
                                        timeoutDue := false, repeatDue := false, retiRun := [0, 0, 0, 0], handed := 0 } }
  (((m.huTransfer again).irq 0x1F 4).raise 58).busDepotWp 1 cause

/-- Start of a HLD operation (R225): 0x01 tests the transfer. -/
def Chip.huOpStart (m : Chip) : Chip :=
  match m.opOf 0x1F with
  | none => m
  | some o =>
    if o.cmd ≠ 1 then m.endErr 0x1F 0x01 0
    else if !m.unlockedFor o.req 0x1F then m.endErr 0x1F 0x04 0
    else if o.arg % 65536 = 0 then m.endErr 0x1F 0x02 0
    else if m.huState ≠ huArmed ∨ m.ttb ≠ ttbLocked then m.endErr 0x1F 0x10 0
    else if !m.has 0x1D SHR_VNOM_VNOM then m.endErr 0x1F 0x11 0
    else
      let m := { m with hld := { m.hld with testDv := o.arg / 65536, testWp := o.arg % 65536 } }
      m.huTrigger 3

/-- Abort of a test (R225): RETURN at once; the operation ends with reason 0x05 when RETURN completes. -/
def Chip.huAbort (m : Chip) : Chip :=
  match m.opOf 0x1F with
  | none => m
  | some o =>
    let m := m.setOp { o with phase := 9, a := m.get 0x1F HDR_STATUS_PROGRESS }
    if m.huState = huCarry then m.huReturnEnter m.stamp else m

/-- Takeover with a usable mirror that shows CARRY or RETURN (R495): CARRY with the loops shown owned and ready. -/
def Chip.huTakeover (m : Chip) (im : Mirror) : Chip :=
  if !m.enabled 0x1F ∨ (im.huState ≠ huCarry ∧ im.huState ≠ huReturn) then m.huRole
  else
    let m := m.huJudge
    let own := m.huLoops.filter (fun x => bit im.huOwned x && m.huReady x)
    let m := (m.put 0x1F HLD_STAT_STATE huCarry).put 0x1F HLD_STAT_CAUSE im.huCause
    let m := { m with hld := { m.hld with carryWp := 0, lockRun := 0, startDue := false, rampDue := false,
                                          repeatDue := false, timeoutDue := false, retiRun := [0, 0, 0, 0], handed := 0,
                                          exhHanded := false, hloops := m.get 0x1F HLD_CFG_HLOOPS } }
    let m := m.huTransfer own
    let m := own.foldl (fun m x => m.put 0x1F HLD_REF_V ((im.loops[x]?).getD {}).ref x) m
    (((m.huWrite m.usedSlots (m.get 0x1F HLD_RAMP_RAMPLO)).irq 0x1F 4).raise 58).busDepot 1 im.huCause

/-! ### Commands -/

/-- HOLDUP_ENABLE_WRITE (R221). -/
def execHoldupEnableWrite (r : Requester) (en : Bool) (s : State) : Host.Outcome State Fault Refusal :=
  s.run (fun m => m.onPage (reqCode r) 0x1F (fun m => m.huEnable en))

/-- HOLDUP_RETURN_START (R221): the count of the cause has passed in CARRY. -/
def execHoldupReturnStart (s : State) : Host.Outcome State Fault Refusal :=
  s.run (fun m => if m.huState = huCarry ∧ m.hld.startDue then m.huReturnEnter m.tim.wpStamp else m)

/-- HOLDUP_RAMP_STEP (R223): RAMPDIV waypoints have passed in RETURN. DESIGN CHOICE, safe (log 2). -/
def execHoldupRampStep (s : State) : Host.Outcome State Fault Refusal :=
  s.run (fun m => if m.huState = huReturn ∧ m.hld.rampDue then m.huRampStep else m)

/-- HOLDUP_RAMPLO_REPEAT (R223): 256 waypoints have passed in CARRY; the slots whose last write failed. -/
def execHoldupRamploRepeat (s : State) : Host.Outcome State Fault Refusal :=
  s.run (fun m =>
    if m.huState = huCarry ∧ m.hld.repeatDue then
      ({ m with hld := { m.hld with repeatDue := false } }).huWrite
        (m.usedSlots.filter (fun n => (m.ctx (m.slotCtx n)).lastFailed)) (m.huLow (m.get 0x1F HLD_STAT_CAUSE))
    else m)

/-- HOLDUP_RETURN_TIMEOUT (R221): RETTO waypoints have passed in RETURN. -/
def execHoldupReturnTimeout (s : State) : Host.Outcome State Fault Refusal :=
  s.run (fun m => if m.huState = huReturn ∧ m.hld.timeoutDue then m.huTimeout else m)

/-- HOLDUP_TEST (R225): OPARG takes `arg` and OPCMD 0x01 is written. -/
def execHoldupTest (r : Requester) (arg : Word) (s : State) : Host.Outcome State Fault Refusal :=
  s.run (fun m => m.onPage (reqCode r) 0x1F (fun m =>
    (m.wr (0x1F * 0x400 + 0x24) arg).startOp 0x1F 1 (reqCode r) Chip.huOpStart))

end Sys2Proof.Machine
end

