-- ==== Sys2Proof/Machine/Cap.lean ====
section
/-! DEFINITION. The Ledger (R207–R210) and Cap (R211–R219, R538). Powers are in 1/16 W unless a name says otherwise. -/

namespace Sys2Proof.Machine

/-! ### The Ledger -/

/-- An efficiency in 2⁻¹⁵, clamped (R230). -/
def Chip.eta (m : Chip) (f : Fld) : Int := clampN 0x4000 0x8000 (m.get 0x1E f)

/-- Mean power of a meter channel over the waypoint just closed (R207), from its integral in 2⁻²⁴ µJ. DESIGN CHOICE,
unsafe (log 36). -/
def Chip.wpPower (m : Chip) (c : Nat) : Int :=
  match m.met.wp[c]? with
  | some e => divNear (e.2 * 3200) (2 ^ 24 * m.met.ticks)
  | none => 0

/-- Sum of the positive values of a list. -/
def sumPos (l : List Int) : Int := (l.map (fun x => maxI x 0)).foldl (· + ·) 0

/-- Sum of the magnitudes of the negative values of a list. -/
def sumNeg (l : List Int) : Int := (l.map (fun x => maxI (-x) 0)).foldl (· + ·) 0

/-- Loops that Cap governs (R213). -/
def Chip.capGov (m : Chip) : List Nat := (List.range 4).filter m.capGoverns

/-- Strings of the governed loops, each once. -/
def Chip.capStrings (m : Chip) : List Nat :=
  (List.range 4).filter (fun s => m.capGov.any (fun x => m.strOf x == some s))

/-- The aux flow (R207): AUXS voltage times mean ILOOP over the waypoint's frames. -/
def Chip.auxPower (m : Chip) : Int :=
  let x := m.get 0x1E CAP_BATMAP_AUXL
  let l := m.loop x
  if m.has 0x1E CAP_BATMAP_AUXEN && decide (x < nLoops m.die.part) && l.ilFrames != 0 && bit m.mea.resOk 23 then
    divFloor (divFloor (m.wpCode 23 * m.get 5 CAL_SCALE_SCALE 23 * l.ilSum) (2 ^ 40 * l.ilFrames) * 2 ^ 15) (m.eta CAP_EFF1_ETAAUX)
  else 0

/-- Store one signed power of the Ledger. -/
def Chip.putPow (m : Chip) (f : Fld) (v : Int) : Chip := m.putS 0x1E f (satS 32 v)

/-- One signed power of the Ledger. -/
def Chip.pow (m : Chip) (f : Fld) : Int := m.getS 0x1E f

/-- The flows of the waypoint just closed (R207). -/
def Chip.ledFlows (m : Chip) : Chip :=
  let dom := (List.range 12).map m.wpPower
  let port := (List.range 8).map (fun n => m.wpPower (16 + n))
  let bat := m.capStrings.map (fun s => m.wpPower (12 + s))
  let ep := m.eta CAP_EFF1_ETAPORT
  let eb := m.eta CAP_EFF0_ETABAT
  let aux := m.auxPower
  let m := (m.putPow CAP_LDOMF_P (sumPos dom)).putPow CAP_LDOMR_P (sumNeg dom)
  let m := (m.putPow CAP_LPORTF_P (divFloor (sumPos port * 2 ^ 15) ep)).putPow CAP_LPORTR_P (divFloor (sumNeg port * ep) (2 ^ 15))
  let m := (m.putPow CAP_LBATC_P (divFloor (sumPos bat * 2 ^ 15) eb)).putPow CAP_LBATD_P (divFloor (sumNeg bat * eb) (2 ^ 15))
  let m := m.putPow CAP_LAUX_P aux
  m.putPow CAP_LRECOV_P (m.pow CAP_LDOMR_P + m.pow CAP_LPORTR_P)

/-- The balance (R208). -/
def Chip.ledBalance (m : Chip) : Chip :=
  let p := m.pow CAP_LDOMF_P - m.pow CAP_LDOMR_P + m.pow CAP_LPORTF_P - m.pow CAP_LPORTR_P + m.pow CAP_LAUX_P
    + m.pow CAP_LBATC_P - m.pow CAP_LBATD_P
  if m.huState = huCarry ∨ m.huState = huReturn then
    ((m.putPow CAP_LGRID_P 0).putPow CAP_LSURP_P 0).putPow CAP_LRESID_P p
  else
    ((m.putPow CAP_LGRID_P (divFloor (maxI p 0 * 2 ^ 15) (m.eta CAP_EFF0_ETAREC))).putPow CAP_LSURP_P (maxI (-p) 0)).putPow
      CAP_LRESID_P 0

/-- The energies (R210): LGRID and the absorbed recovered power times the waypoint's duration. -/
def Chip.ledEnergy (m : Chip) (ticks : Nat) : Chip :=
  let full := 2 ^ 64 * 3200
  let g := (m.cap.grid + (maxI (m.pow CAP_LGRID_P) 0).toNat * ticks) % full
  let r := (((m.cap.recv : Int) + (m.pow CAP_LRECOV_P - m.pow CAP_LSURP_P) * ticks) % full).toNat
  let m := { m with cap := { m.cap with grid := g, recv := r } }
  let m := (m.put 0x1E CAP_GRIDE_LO_DATA (g / 3200)).put 0x1E CAP_GRIDE_HI_DATA (g / 3200 / 2 ^ 32)
  (m.put 0x1E CAP_RECE_LO_DATA (r / 3200)).put 0x1E CAP_RECE_HI_DATA (r / 3200 / 2 ^ 32)

/-- The ONLINE rectifiers. -/
def Chip.rectifiers (m : Chip) : List Nat :=
  (List.range 128).filter (fun c =>
    (m.ctx c).cls == 1 && (m.ctx c).state == 2 && ((m.ctx c).bus == 1 || (m.ctx c).bus == 2))

/-- The cross-check against READ_POUT (R209). -/
def Chip.ledCheck (m : Chip) : Chip :=
  let rs := m.rectifiers
  let pout := rs.map (fun c => m.recent c 0x96 (m.get (0x31 + (m.ctx c).bus) PMB_CFG_POLLDIV))
  if rs.isEmpty || pout.any Option.isNone then m
  else
    let sum := (pout.map (fun p => p.getD 0)).foldl (· + ·) 0
    let bus := divFloor (m.pow CAP_LGRID_P * m.eta CAP_EFF0_ETAREC) (2 ^ 15)
    let off := decide (16 * m.get 0x1E CAP_MMTOL_TOL < absI (bus - sum))
    let bad := if off then Nat.min 16 (m.cap.mmBad + 1) else 0
    let good := if off then 0 else Nat.min 16 (m.cap.mmGood + 1)
    let m := { m with cap := { m.cap with mmBad := bad, mmGood := good } }
    let was := m.has 0x1E CAP_STAT_MISMATCH
    if 16 ≤ bad ∧ !was then
      ((m.put 0x1E CAP_STAT_MISMATCH 1).irq 0x1E 6).emit 0x1043 [sp (m.pow CAP_LGRID_P), sp sum]
    else if 16 ≤ good then m.put 0x1E CAP_STAT_MISMATCH 0 else m

/-- Over in 1/16 W (R211). -/
def Chip.capOver (m : Chip) : Int :=
  m.pow CAP_LGRID_P - 16 * ((m.get 0x1E CAP_CAPW_CAPW : Int) - m.get 0x1E CAP_MARG_MARG)

/-- Stage 3 of R15: the Ledger, with Over by its result (R211, R372). A waypoint of zero duration has no mean power,
and its values stand. -/
def Chip.ledStage (m : Chip) (ticks : Nat) : Chip :=
  let m := if ticks = 0 then m
    else ((((m.ledFlows).ledBalance).ledEnergy ticks).ledCheck)
  let m := m.putS 0x1E CAP_OVER_OVER (satS 32 (divFloor m.capOver 16))
  let m := (m.put 0x1E CAP_LCYC_CYCLE m.tim.cycle)
  let m := (m.put 0x1E CAP_LANG_ANGLE m.tim.angle).put 0x1E CAP_LANG_FLAGS m.flags
  (List.range 4).foldl (fun m x => m.modLoop x (fun s => { s with ilSum := 0, ilFrames := 0 })) m

/-! ### Conversions (R538) -/

/-- A chain's voltage of this boundary times 2⁴⁰, 0 where it gives no result. -/
def Chip.volt40 (m : Chip) (c : Nat) : Int :=
  if bit m.mea.resOk c then m.wpCode c * m.get 5 CAL_SCALE_SCALE c else 0

/-- The voltage that meters a domain, times 2⁴⁰. -/
def Chip.domVolt (m : Chip) (n : Nat) : Int := m.volt40 (m.vChain n)

/-- A current in 1/16 A for a power at a voltage, none where the voltage gives no result. -/
def amps16 (p v40 : Int) : Option Int := if v40 ≤ 0 then none else some (divFloor (p * 2 ^ 40) v40)

/-- A power for a current in 1/16 A at a voltage. -/
def watts16 (i v40 : Int) : Int := divFloor (i * v40) (2 ^ 40)

/-- A 16-bit number of watts. -/
def w16 (p : Int) : Nat := satU 16 (maxI (divFloor p 16) 0).toNat

/-! ### Domains (step 4, R216) -/

/-- Present forward currents of the drawing domains in 1/16 A. -/
def Chip.domDraw (m : Chip) : List (Nat × Int) :=
  (List.range (nDomains m.die.part)).filterMap (fun n =>
    match amps16 (m.wpPower n) (m.domVolt n) with
    | some i => if 0 < i then some (n, i) else none
    | none => none)

/-- A domain's part of step 4: what its limit stands below the current before the first lowering. Where the chain
gives no result the power last converted stands (R538). DESIGN CHOICE, unsafe (log 36). -/
def Chip.capDom4 (m : Chip) (n : Nat) : Int :=
  match (m.cap.base[n]?).getD none with
  | some b =>
    if bit m.mea.resOk (m.vChain n) then watts16 (maxI (b - m.get 0x1E CAP_DLIM_FWDLIM n) 0) (m.domVolt n)
    else atI m.cap.s4w n
  | none => 0

/-- Amount of step 4. DESIGN CHOICE, unsafe (log 36). -/
def Chip.capS4 (m : Chip) : Int := ((List.range 12).map m.capDom4).foldl (· + ·) 0

/-- Lower FWDLIM of the drawing domains by a power in proportion to their currents, down to DFLOOR. -/
def Chip.capCut4 (m : Chip) (p : Int) : Chip :=
  let ds := m.domDraw
  let total := (ds.map (fun d => watts16 d.2 (m.domVolt d.1))).foldl (· + ·) 0
  if p ≤ 0 ∨ total ≤ 0 then m
  else
    ds.foldl (fun m d =>
      let n := d.1
      let now := minI d.2 (m.get 0x1E CAP_DLIM_FWDLIM n)
      let lim := maxI (m.get 0x1E CAP_FLOOR_DFLOOR) (now - divFloor (p * d.2) total)
      let b := match (m.cap.base[n]?).getD none with
        | some b => b
        | none => d.2.toNat
      ({ m with cap := { m.cap with base := setAt m.cap.base n (some b) } }).put 0x1E CAP_DLIM_FWDLIM (satU 16 (minI lim now).toNat) n) m

/-- The reductions of step 4 commanded and not yet shown by the currents. -/
def Chip.capPending4 (m : Chip) : Int :=
  (m.domDraw.map (fun d => watts16 (maxI (d.2 - m.get 0x1E CAP_DLIM_FWDLIM d.1) 0) (m.domVolt d.1))).foldl (· + ·) 0

/-- Step 4 for an Over that still shows the reductions pending. -/
def Chip.capLower4 (m : Chip) (p : Int) : Chip := m.capCut4 (p - m.capPending4)

/-- Give back a power of step 4, in equal shares of which no unit is exceeded; a limit that reaches its base is none
again. DESIGN CHOICE, unsafe (log 36). -/
def Chip.capRaise4 (m : Chip) (p : Int) : Chip :=
  let ns := (List.range 12).filter (fun n => ((m.cap.base[n]?).getD none).isSome)
  (ns.foldl (fun (a : Int × Nat × Chip) n =>
    let m := a.2.2
    let v := m.domVolt n
    let left := a.2.1 - 1
    match amps16 (divFloor a.1 a.2.1) v, (m.cap.base[n]?).getD none with
    | some i, some b =>
      let cur := m.get 0x1E CAP_DLIM_FWDLIM n
      if (b : Int) ≤ cur + i then
        (a.1 + divFloor (-((b - cur : Int) * v)) (2 ^ 40), left,
          ({ m with cap := { m.cap with base := setAt m.cap.base n none } }).put 0x1E CAP_DLIM_FWDLIM 0xFFFF n)
      else (a.1 + divFloor (-(i * v)) (2 ^ 40), left, m.put 0x1E CAP_DLIM_FWDLIM (cur + i.toNat) n)
    | _, _ => (a.1, left, m)) (p, ns.length, m)).2.2

/-! ### Cassettes (steps 2 and 3, R215, R217) -/

/-- Is a context a cassette: CLASS 2 or 3? -/
def Chip.isCassette (m : Chip) (c : Nat) : Bool := (m.ctx c).cls == 2 || (m.ctx c).cls == 3

/-- The cassette contexts in state ONLINE. -/
def Chip.cassettes (m : Chip) : List Nat :=
  (List.range 128).filter (fun c => m.isCassette c && (m.ctx c).state == 2)

/-- A cassette's reported draw in 1/16 W: a port's meter channel, or READ_PIN. PRESUMED, unsafe (log 42). -/
def Chip.ctxDraw (m : Chip) (c : Nat) : Int :=
  let x := m.ctx c
  if x.bus = 3 then maxI (m.wpPower (16 + x.addr)) 0
  else match Sparse.find x.tel 0x97 with
    | some w => maxI (lin11 w) 0
    | none => 0

/-- CAPSHARE of a context in 1/16 W, none set reads above every draw. -/
def Chip.ctxShare (m : Chip) (c : Nat) : Int := (m.ctx c).capshare * 16

/-- A derate request reaches a cassette on a PMBus port (R215): its own limit is read first and kept, and the new one
is written in that format. Without a result of VCH the limit waits for a boundary that has one (R538). PRESUMED,
unsafe (log 42). -/
def Chip.capSend (m : Chip) (c : Nat) : Chip :=
  let x := m.ctx c
  if x.bus ≠ 1 ∧ x.bus ≠ 2 then m
  else
    let vch := m.get 0x1D SHR_VREF_VCH
    let i := amps16 (x.capshare * 16) (m.volt40 (if 16 ≤ vch ∧ vch ≤ 18 then vch else 16))
    let m := m.setCtx c { x with ocDue := i.isNone, ocWant := if x.ocKept.isSome then none else i.or x.ocWant }
    match x.ocKept, i with
    | some w, some i => m.pmWrite c 0x4A (linLike w i) 2
    | some _, none => m
    | none, _ =>
      let p := m.pm (x.bus - 1)
      if (p.cur.toList ++ p.polls).any (fun t => t.ctx == c && t.cmd == 0x4A) then m else m.pmRead c 0x4A

/-- Set CAPSHARE of a derated cassette. -/
def Chip.capSetShare (m : Chip) (c w : Nat) : Chip :=
  let x := m.ctx c
  let first := x.derateAt.isNone
  let m := m.setCtx c { x with
    capshare := w, derateAt := some (x.derateAt.getD m.tim.wpCount), offSeen := x.offSeen && !first,
    noresp := x.noresp && !first, capBase := if first then (m.ctxDraw c / 16).toNat else x.capBase }
  m.capSend c

/-- The release of a cassette's derate (R215): no allowance, the kept limit written back, and OPERATION = 0x80 if it
has reported OFF since. PRESUMED, unsafe (log 42). -/
def Chip.capFreeShare (m : Chip) (c : Nat) : Chip :=
  let x := m.ctx c
  if x.derateAt.isNone then m
  else
    let m := m.setCtx c { x with
      capshare := 0xFFFF, derateAt := none, noresp := false, offSeen := false, capBase := 0, ocKept := none, ocWant := none, ocDue := false }
    if x.bus = 1 ∨ x.bus = 2 then
      let m := match x.ocKept with
        | some w => m.pmWrite c 0x4A w 2
        | none => m
      if x.offSeen then m.pmWrite c 0x01 0x80 2 else m
    else m

/-- Cassettes under a derate. -/
def Chip.derated (m : Chip) : List Nat := (List.range 128).filter (fun c => (m.ctx c).derateAt.isSome && m.isCassette c)

/-- Amount of step 3 in 1/16 W. -/
def Chip.capS3 (m : Chip) : Int :=
  (m.derated.map (fun c => maxI (((m.ctx c).capBase : Int) * 16 - m.ctxShare c) 0)).foldl (· + ·) 0

/-- Lower CAPSHARE of the ONLINE cassettes by a power in proportion to their draw, down to SHMIN. -/
def Chip.capCut3 (m : Chip) (p : Int) : Chip :=
  let cs := m.cassettes.filter (fun c => 0 < m.ctxDraw c)
  let total := (cs.map m.ctxDraw).foldl (· + ·) 0
  if p ≤ 0 ∨ total ≤ 0 then m
  else
    cs.foldl (fun m c =>
      let now := minI (m.ctxDraw c) (m.ctxShare c)
      let w := divFloor (now - divFloor (p * m.ctxDraw c) total) 16
      m.capSetShare c (Nat.min 0xFFFE (Nat.max (m.get 0x1E CAP_FLOOR_SHMIN) (maxI w 0).toNat))) m

/-- Step 3 for an Over that still shows the reductions commanded and not yet followed. -/
def Chip.capLower3 (m : Chip) (p : Int) : Chip :=
  m.capCut3 (p - (m.cassettes.map (fun c => maxI (m.ctxDraw c - m.ctxShare c) 0)).foldl (· + ·) 0)

/-- Give back a power of step 3, in equal shares of whole watts. DESIGN CHOICE, unsafe (log 36). -/
def Chip.capRaise3 (m : Chip) (p : Int) : Chip :=
  let cs := m.derated
  (cs.foldl (fun (a : Nat × Nat × Chip) c =>
    let m := a.2.2
    let x := m.ctx c
    let w := a.1 / a.2.1
    if x.capBase ≤ x.capshare + w then (a.1 - (x.capBase - x.capshare), a.2.1 - 1, m.capFreeShare c)
    else (a.1 - w, a.2.1 - 1, if w = 0 then m else (m.setCtx c { x with capshare := x.capshare + w }).capSend c))
    ((maxI (divFloor p 16) 0).toNat, cs.length, m)).2.2

/-- The limits that waited for a result of VCH (R538). -/
def Chip.capSendDue (m : Chip) : Chip :=
  (m.derated.filter (fun c => (m.ctx c).ocDue)).foldl (fun m c => m.capSend c) m

/-- Set or clear the recovery-advance flag of every cassette context (R217). -/
def Chip.capAdvance (m : Chip) (on : Bool) : Chip :=
  (List.range 128).foldl (fun m c => if m.isCassette c ∧ c ≠ 0 then m.setCtx c { m.ctx c with radv := on } else m) m

/-- A port context that sources recovered energy (R216): its meter channel is negative. -/
def Chip.portRecovers (m : Chip) (c : Nat) : Bool :=
  decide ((m.ctx c).state ≠ 0) && (m.ctx c).bus == 3 && decide (m.wpPower (16 + (m.ctx c).addr) < 0)

/-- Every reverse allowance at its maximum (R216). -/
def Chip.capOpenReverse (m : Chip) : Chip :=
  if m.has 0x1E CAP_STAT_SURPLUS then m
  else
    let m := (List.range 12).foldl (fun m n => m.put 0x1E CAP_DLIM_REVLIM 0xFFFF n) m
    (List.range 128).foldl (fun m c => if m.portRecovers c then m.setCtx c { m.ctx c with capshare := 0xFFFF } else m) m

/-! ### The ladder (R211, R212) -/

/-- The present step. -/
def Chip.capStep (m : Chip) : Nat := m.get 0x1E CAP_STAT_STEP

/-- Does Hold-up own a governed loop? -/
def Chip.capHuOwn (m : Chip) : Bool := m.capGov.any m.huOwns

/-- May the ladder enter a step: enabled, and steps 1 and 2 not while Hold-up owns a battery loop (R23)? -/
def Chip.capMay (m : Chip) (k : Nat) : Bool :=
  bit (m.get 0x1E CAP_LAD_STEPEN) (k - 1) && !(decide (k ≤ 2) && m.capHuOwn)

/-- Has the present step reached the end of its range (R211, R213)? -/
def Chip.capAtEnd (m : Chip) : Bool :=
  let k := m.capStep
  if k = 0 then true
  else if k = 1 then m.cap.s1End
  else if k = 2 then false
  else if k = 3 then m.cassettes.all (fun c =>
    decide (m.ctxDraw c ≤ 0) || decide ((m.ctx c).capshare ≤ m.get 0x1E CAP_FLOOR_SHMIN))
  else m.domDraw.all (fun d => decide (m.get 0x1E CAP_DLIM_FWDLIM d.1 ≤ m.get 0x1E CAP_FLOOR_DFLOOR))

/-- A higher step is entered (R212, R217), without its reduction. -/
def Chip.capMark (m : Chip) (k : Nat) : Chip :=
  let m := m.put 0x1E CAP_STAT_STEP k
  let m := { m with cap := { m.cap with stab := 0, relRun := 0, entered := setBit m.cap.entered k } }
  let m := if k = 2 then
      let m := { m with cap := { m.cap with absBase := some m.cap.absorbed } }
      (m.capOpenReverse).capAdvance true
    else m
  (((m.irq 0x1E 4).raise 56).emit 0x1040 [k, sp (m.getS 0x1E CAP_OVER_OVER)]).busDepotWp 4 k

/-- Entry into a higher step by the ladder (R212): steps 3 and 4 take what Over asks for. -/
def Chip.capEnter (m : Chip) (k : Nat) : Chip :=
  let isOver := m.capOver
  let m := m.capMark k
  if k = 3 then m.capLower3 isOver else if k = 4 then m.capLower4 isOver else m

/-- The next step the ladder may enter above the present one. -/
def Chip.capNext (m : Chip) : Option Nat :=
  ([1, 2, 3, 4].filter (fun k => decide (m.capStep < k) && m.capMay k)).head?

/-- A power goes to step 4 at once (R215, R218). -/
def Chip.capTake4 (m : Chip) (p : Int) : Chip :=
  if m.capMay 4 then (if m.capStep < 4 then m.capMark 4 else m).capCut4 p else m

/-- A reduction through steps 3 and then 4 at once for the request of a loop, which holds it (R218). -/
def Chip.capReduce (m : Chip) (x : Nat) (p : Int) : Chip :=
  let s3 := m.capS3
  let s4 := m.capS4
  let m := if m.capMay 3 then (if m.capStep < 3 then m.capMark 3 else m).capCut3 p else m
  let left := p - (m.capS3 - s3)
  let m := if 0 < left then m.capTake4 left else m
  { m with cap := { m.cap with locks := setAt m.cap.locks x (m.capS3 - s3, m.capS4 - s4) } }

/-- The amounts in W (R212). -/
def Chip.capAmounts (m : Chip) (s1 : Int) : Chip :=
  let k := m.capStep
  let m := m.put 0x1E CAP_APPL0_S1 (if 1 ≤ k then w16 s1 else 0)
  let m := m.put 0x1E CAP_APPL0_S2 (match m.cap.absBase with
    | some b => w16 (m.cap.absorbed - b)
    | none => 0)
  let m := { m with cap := { m.cap with s4w := (List.range 12).map m.capDom4 } }
  (m.put 0x1E CAP_APPL1_S3 (w16 m.capS3)).put 0x1E CAP_APPL1_S4 (w16 m.capS4)

/-! ### Governed strings (R213, R214) -/

/-- Is a string full (R214)? -/
def Chip.strFull (m : Chip) (s : Nat) : Bool :=
  if m.batOn s then m.get (0x19 + s) BAT_STAT_EOCL == 3
  else bit m.mea.resOk (19 + s) && decide (m.getS 0x1E CAP_FULLV_V ≤ m.wpCode (19 + s))

/-- Is a string's charging forbidden by its pack temperature window? -/
def Chip.strInhibited (m : Chip) (s : Nat) : Bool := decide (s < nStrings m.die.part) && m.has (0x19 + s) BAT_STAT_CHGINH

/-- Is a string at its reserve (R214), or held at 0 or above after its cut-off (R310)? -/
def Chip.strReserve (m : Chip) (s : Nat) : Bool :=
  (decide (s < nStrings m.die.part) && m.has (0x19 + s) BAT_STAT_EODCUT) ||
  if m.batOn s then decide (m.get (0x19 + s) BAT_SOC_SOC ≤ 100 * m.get 0x1E CAP_RESSOC_SOC)
  else bit m.mea.resOk (19 + s) && decide (m.wpCode (19 + s) ≤ m.getS 0x1E CAP_RESV_V)

/-- What the charging targets of a boundary bring: S1 and whether step 1 is at its end. -/
structure CapTargets where
  chip : Chip
  atMax : Int := 0
  ended : Bool := true

/-- Power left for the battery (R213); raised by the surplus once R219 asks for it. -/
def Chip.capAvail (m : Chip) : Int :=
  16 * ((m.get 0x1E CAP_CAPW_CAPW : Int) - m.get 0x1E CAP_MARG_MARG)
    - (divFloor (m.pow CAP_LGRID_P * m.eta CAP_EFF0_ETAREC) (2 ^ 15) - m.pow CAP_LBATC_P + m.pow CAP_LBATD_P)
    + (if m.cap.raise then m.pow CAP_LSURP_P else 0)

/-- TRIMTGT of one governed loop (R213, R218); without a result of the string's voltage what was converted last stands
(R538). -/
def Chip.capTarget (t : CapTargets) (pstr : Int) (noDis : Bool) (x : Nat) : CapTargets :=
  let m := t.chip
  match m.strOf x with
  | none => t
  | some s =>
    let v := m.volt40 (19 + s)
    let sc : Int := m.get 5 CAL_SCALE_SCALE (12 + s)
    if m.huOwns x ∨ v ≤ 0 ∨ sc = 0 then { t with atMax := t.atMax + atI m.cap.s1w x }
    else
      let chg : Int := m.get 0x1E CAP_CHG_CHGMAX
      let dis : Int := m.get 0x1E CAP_CHG_DISMAX
      let hi := if m.strFull s || m.strInhibited s then 0 else chg
      let held := m.strReserve s || noDis || bit (m.get 0x1F HLD_STAT_EXH) x
      let lo := if held then 0 else -dis
      let want := divFloor (pstr * 2 ^ 40) v
      let i := clampI lo hi want
      let i := if bit m.cap.limited x ∧ m.mode x = mdManual then
          clampI (-(m.get (marPg x) MAR_ILIMEFF_ILIMN)) (m.get (marPg x) MAR_ILIMEFF_ILIMP) i
        else i
      let ended := (m.strReserve s && decide (want < 0)) || (!held && decide (want ≤ -dis))
      let w := watts16 chg v
      ⟨{ m.putS (marPg x) MAR_TRIMTGT_TGT (satS 24 (divNear (i * 2 ^ 36) sc.toNat)) with
          cap := { m.cap with s1w := setAt m.cap.s1w x w } }, t.atMax + w, t.ended && ended⟩

/-- The targets of every governed loop. -/
def Chip.capTrim (m : Chip) : CapTargets :=
  let gov := m.capGov
  if gov.isEmpty then ⟨m, 0, true⟩
  else
    let pstr := divFloor (m.capAvail * m.eta CAP_EFF0_ETABAT) (2 ^ 15 * gov.length)
    let noDis := m.capHuOwn || !bit (m.get 0x1E CAP_LAD_STEPEN) 0
    let t := gov.foldl (fun t x => Chip.capTarget t pstr noDis x) ⟨m, 0, true⟩
    { t with atMax := maxI 0 (t.atMax - gov.length * pstr) }

/-! ### Phase-loss requests (R218) and surplus (R219) -/

/-- A phase-loss request of one loop at the first waypoint after its rise. -/
def Chip.capDrq (m : Chip) (x : Nat) : Chip :=
  let on := m.has 0x0C PHM_DRQ_ASSERTED x
  let seen := bit m.cap.drqSeen x
  if !on then
    { m with cap := { m.cap with drqSeen := clearBit m.cap.drqSeen x, limited := clearBit m.cap.limited x,
                                 locks := setAt m.cap.locks x (0, 0) } }
  else if seen then m
  else
    let m := { m with cap := { m.cap with drqSeen := setBit m.cap.drqSeen x } }
    let ex : Nat := m.get 0x0C PHM_DRQ_EXCESS x
    let gov := m.capGoverns x
    let aux := m.get 0x1E CAP_BATMAP_AUXL == x
    if !gov && !aux then m
    else
      let v := match gov, m.strOf x with
        | true, some s => m.volt40 (19 + s)
        | _, _ => m.volt40 23
      let p := watts16 (ex : Int) v
      let m := m.emit 0x1044 [x, ex, w16 p]
      if gov && !m.huOwns x then { m with cap := { m.cap with limited := setBit m.cap.limited x } }
      else m.capReduce x p

/-- The recovery allowances while SURPLUS is set (R219). -/
def Chip.capAllow (m : Chip) : Chip :=
  let allow := maxI 0 (m.pow CAP_LDOMF_P + m.pow CAP_LPORTF_P + m.pow CAP_LAUX_P + m.pow CAP_LBATC_P
    - 16 * m.get 0x1E CAP_SURP_SURPMARG)
  let doms := (List.range (nDomains m.die.part)).filter (fun n => m.wpPower n < 0)
  let ports := (List.range 128).filter m.portRecovers
  let total := m.pow CAP_LDOMR_P + sumNeg ((List.range 8).map (fun n => m.wpPower (16 + n)))
  if total ≤ 0 then m
  else
    let m := doms.foldl (fun m n =>
      match amps16 (divFloor (allow * -m.wpPower n) total) (m.domVolt n) with
      | some i => m.put 0x1E CAP_DLIM_REVLIM (satU 16 i.toNat) n
      | none => m) m
    ports.foldl (fun m c =>
      m.setCtx c { m.ctx c with capshare := satU 16 (divFloor (divFloor (allow * -m.wpPower (16 + (m.ctx c).addr)) total) 16).toNat }) m

/-- Give the recovery allowances back at RELMARG per waypoint (R219), in equal shares of which no unit is exceeded.
DESIGN CHOICE, unsafe (log 36). -/
def Chip.capGiveBack (m : Chip) : Chip :=
  let ns := (List.range 12).filter (fun n => m.get 0x1E CAP_DLIM_REVLIM n != 0xFFFF)
  let cs := (List.range 128).filter (fun c =>
    (m.ctx c).bus == 3 && (m.ctx c).derateAt.isNone && (m.ctx c).capshare != 0xFFFF)
  let k := ns.length + cs.length
  if k = 0 then { m with cap := { m.cap with give := false } }
  else
    let a := ns.foldl (fun (a : Int × Nat × Chip) n =>
      let m := a.2.2
      let v := m.domVolt n
      match amps16 (divFloor a.1 a.2.1) v with
      | some i => (a.1 + divFloor (-(i * v)) (2 ^ 40), a.2.1 - 1,
          m.put 0x1E CAP_DLIM_REVLIM (satU 16 (m.get 0x1E CAP_DLIM_REVLIM n + i.toNat)) n)
      | none => (a.1, a.2.1 - 1, m)) ((16 * m.get 0x1E CAP_MARG_RELMARG : Int), k, m)
    (cs.foldl (fun (a : Int × Nat × Chip) c =>
      let m := a.2.2
      let w := (divFloor (divFloor a.1 a.2.1) 16).toNat
      (a.1 - 16 * w, a.2.1 - 1, m.setCtx c { m.ctx c with capshare := satU 16 ((m.ctx c).capshare + w) })) a).2.2

/-- The runs of surplus at a boundary, its end, and the allowances (R219). -/
def Chip.capSurplusStage (m : Chip) : Chip :=
  let on := decide (0 < m.pow CAP_LSURP_P)
  let m := { m with cap := { m.cap with
    surpRun := if on then Nat.min 255 (m.cap.surpRun + 1) else 0, surpNone := if on then 0 else Nat.min 255 (m.cap.surpNone + 1),
    raise := m.cap.raise && on } }
  let m := if m.has 0x1E CAP_STAT_SURPLUS then
      if m.get 0x1E CAP_LAD_RELWP ≤ m.cap.surpNone then
        { m.put 0x1E CAP_STAT_SURPLUS 0 with cap := { m.cap with give := true } }
      else m.capAllow
    else m
  if m.cap.give then m.capGiveBack else m

/-- Surplus for SURPWP waypoints (R219): charging is raised while a string can take it, else SURPLUS. -/
def Chip.capSurplus (m : Chip) : Chip :=
  if !m.enabled 0x1E || decide (m.cap.surpRun < Nat.max 1 (m.get 0x1E CAP_SURP_SURPWP)) then m
  else if m.capGov.any (fun x => match m.strOf x with
      | some s => !m.strFull s && !m.strInhibited s
      | none => false) then { m with cap := { m.cap with raise := true } }
  else if m.has 0x1E CAP_STAT_SURPLUS then m
  else
    let m := { m.put 0x1E CAP_STAT_SURPLUS 1 with cap := { m.cap with give := false } }
    let m := ((m.irq 0x1E 5).raise 57).emit 0x1042 [sp (m.pow CAP_LSURP_P)]
    (m.busDepotWp 6 0).capAllow

/-! ### Stage 5 and the commands' operations -/

/-- The amount of the present step in W, as APPL0 and APPL1 report it. -/
def Chip.capAmount (m : Chip) : Nat :=
  let k := m.capStep
  if k = 1 then m.get 0x1E CAP_APPL0_S1 else if k = 2 then m.get 0x1E CAP_APPL0_S2
  else if k = 3 then m.get 0x1E CAP_APPL1_S3 else if k = 4 then m.get 0x1E CAP_APPL1_S4 else 0

/-- The amounts of the present step follow a positive Over, and the runs of R212: STEPWP counts from the waypoint at
which the step reached its present amount. An Over in step 2 sets its flag and allowances anew. -/
def Chip.capLadder (m : Chip) (s1 : Int) : Chip :=
  let isOver := m.capOver
  let before := m.capAmount
  let m := if 0 < isOver then
      (if m.capStep = 2 then (m.capOpenReverse).capAdvance true
       else if m.capStep = 3 then m.capLower3 isOver else if m.capStep = 4 then m.capLower4 isOver else m)
    else m
  let m := m.capAmounts s1
  let moved := decide (m.capAmount ≠ before)
  let below := decide (m.pow CAP_LGRID_P < 16 * ((m.get 0x1E CAP_CAPW_CAPW : Int) - m.get 0x1E CAP_MARG_MARG
    - m.get 0x1E CAP_MARG_RELMARG))
  { m with cap := { m.cap with
      stab := if 0 < isOver ∧ !moved then Nat.min 255 (m.cap.stab + 1) else 0,
      relRun := if below then Nat.min 255 (m.cap.relRun + 1) else 0, released := false } }

/-- Stage 5 of R15: Cap. -/
def Chip.capStage (m : Chip) : Chip :=
  if !m.enabled 0x1E then m
  else
    let m := { m with cap := { m.cap with absorbed := m.pow CAP_LRECOV_P - m.pow CAP_LSURP_P } }
    let cfg := (bitsUp (m.get 0x1E CAP_BATMAP_GOV) (nLoops m.die.part)).any (fun x => (m.strOf x).isNone)
    let m := (m.putB 0x1E CAP_STAT_CFGERR cfg).putB 0x1E CAP_STAT_HUOWN m.capHuOwn
    let m := (List.range (nLoops m.die.part)).foldl (fun m x => m.capDrq x) m
    let t := m.capTrim
    let m := { t.chip with cap := { t.chip.cap with s1End := t.ended } }
    ((m.capSurplusStage).capSendDue).capLadder t.atMax

/-- Entry into the next step, when it is due (R212). -/
def Chip.capStepUp (m : Chip) : Chip :=
  if !m.enabled 0x1E || decide (m.capOver ≤ 0) then m
  else if m.capAtEnd || decide (m.get 0x1E CAP_LAD_STEPWP ≤ m.cap.stab) then
    match m.capNext with
    | some k => m.capEnter k
    | none => m
  else m

/-- The next lower step that was entered, once a step's amount is zero (R212). -/
def Chip.capDown (m : Chip) : Chip :=
  let k := m.capStep
  let low := (([1, 2, 3].filter (fun j => decide (j < k) && bit m.cap.entered j)).getLast?).getD 0
  let m := { m with cap := { m.cap with
    entered := clearBit m.cap.entered k, absBase := if k = 2 then none else m.cap.absBase } }
  ((m.put 0x1E CAP_STAT_STEP low).emit 0x1041 [k]).busDepotWp 5 k

/-- What a waypoint may give back of an amount of which requests still asserted hold a part (R212, R218). -/
def Chip.capGive (m : Chip) (amount held : Int) : Int :=
  let p : Int := 16 * m.get 0x1E CAP_MARG_RELMARG
  if held ≤ 0 then p else minI p (amount - held)

/-- One waypoint's release (R212): RELMARG of the highest step, which ends when its amount is zero. -/
def Chip.capStepDown (m : Chip) : Chip :=
  let k := m.capStep
  if !m.enabled 0x1E || k = 0 || m.cap.released || decide (m.cap.relRun < m.get 0x1E CAP_LAD_RELWP) then m
  else
    let m := { m with cap := { m.cap with released := true } }
    if k = 4 then
      let p := m.capGive m.capS4 ((m.cap.locks.map Prod.snd).foldl (· + ·) 0)
      let m := if p ≤ 0 then m else m.capRaise4 p
      if m.cap.base.all Option.isNone then m.capDown else m
    else if k = 3 then
      let p := m.capGive m.capS3 ((m.cap.locks.map Prod.fst).foldl (· + ·) 0)
      let m := if p ≤ 0 then m else m.capRaise3 p
      if m.derated.isEmpty then m.capDown else m
    else if k = 2 then
      let m := m.capAdvance false
      if m.has 0x1E CAP_APPL0_S2 then m else m.capDown
    else if m.has 0x1E CAP_APPL0_S1 then m else m.capDown

/-- A cassette that does not follow its derate (R215). -/
def Chip.capNoResp (m : Chip) (c : Nat) : Chip :=
  let x := m.ctx c
  match x.derateAt with
  | none => m
  | some t =>
    let draw := m.ctxDraw c
    if !m.enabled 0x1E || !m.isCassette c || x.noresp || decide (m.tim.wpCount < t + m.get 0x1E CAP_LAD_DRESP) ||
        decide (draw ≤ m.ctxShare c) then m
    else
      let m := (m.setCtx c { x with noresp := true }).put 0x1E CAP_STAT_NORESP 1
      let m := (m.irq 0x1E 7).emit 0x1045 [c, x.capshare, w16 draw]
      m.capTake4 (draw - m.ctxShare c)

/-- Cap released at once (R211): steps 0, no limits, no allowances, no flag, SURPLUS clear. -/
def Chip.capStop (m : Chip) : Chip :=
  let m := m.derated.foldl (fun m c => m.capFreeShare c) m
  let m := (List.range 128).foldl (fun m c =>
    if (m.ctx c).capshare = 0xFFFF ∧ !(m.ctx c).radv then m
    else m.setCtx c { m.ctx c with capshare := 0xFFFF, radv := false }) m
  let m := (List.range 12).foldl (fun m n => m.wr (CAP_DLIM_FWDLIM.addr 0x1E n) (BitVec.ofNat 32 0xFFFFFFFF)) m
  let m := ((m.put 0x1E CAP_STAT_STEP 0).put 0x1E CAP_STAT_SURPLUS 0)
  let m := (m.put 0x1E CAP_STAT_HUOWN 0).put 0x1E CAP_STAT_CFGERR 0
  let m := (m.wr (CAP_APPL0_S1.addr 0x1E) 0).wr (CAP_APPL1_S3.addr 0x1E) 0
  { m with cap := { grid := m.cap.grid, recv := m.cap.recv, mmBad := m.cap.mmBad, mmGood := m.cap.mmGood } }

/-- A write of CTRL.ENABLE (R211). -/
def Chip.capEnable (m : Chip) (en : Bool) : Chip :=
  let m := m.putB 0x1E HDR_CTRL_ENABLE en
  if en then m else m.capStop

/-! ### Commands -/

/-- LGRID_READ (R210): the words LGRID–LANG go into the requester's shadow. -/
def execLgridRead (r : Requester) (s : State) : Host.Outcome State Fault Refusal :=
  s.run (fun m => (List.range 13).foldl (fun m' k =>
    let a := CAP_LGRID_P.addr 0x1E + 4 * k
    m'.setShadow (reqCode r) a (m.rd a)) m)

/-- GRIDE_LO_READ (R210): the four energy words go into the requester's shadow. -/
def execGrideLoRead (r : Requester) (s : State) : Host.Outcome State Fault Refusal :=
  s.run (fun m => (List.range 4).foldl (fun m' k =>
    let a := CAP_GRIDE_LO_DATA.addr 0x1E + 4 * k
    m'.setShadow (reqCode r) a (m.rd a)) m)

/-- CAP_STEP_ADVANCE (R212): the step has reached its end, or Over stayed positive for STEPWP waypoints. -/
def execCapStepAdvance (s : State) : Host.Outcome State Fault Refusal := s.run (fun m => m.capStepUp)

/-- CAP_STEP_RELEASE (R212): RELWP waypoints below the release level. -/
def execCapStepRelease (s : State) : Host.Outcome State Fault Refusal := s.run (fun m => m.capStepDown)

/-- CAP_SURPLUS (R219): LSURP has been positive for SURPWP waypoints. -/
def execCapSurplus (s : State) : Host.Outcome State Fault Refusal := s.run (fun m => m.capSurplus)

/-- CAP_DERATE_NORESP (R215): DRESP waypoints have passed since a cassette's derate. -/
def execCapDerateNoresp (ctx : Fin 128) (s : State) : Host.Outcome State Fault Refusal :=
  s.run (fun m => m.capNoResp ctx.val)

/-- CAP_ENABLE_WRITE (R211). -/
def execCapEnableWrite (r : Requester) (en : Bool) (s : State) : Host.Outcome State Fault Refusal :=
  s.run (fun m => m.onPage (reqCode r) 0x1E (fun m => m.capEnable en))

end Sys2Proof.Machine
end

