-- ==== Sys2Proof/Machine/Domains.lean ====
section
/-! DEFINITION. The switched domains (R232–R255). Times are counted in monitor steps of 2 µs and ticks of 5 ns,
currents in 1/16 A, voltages in 10 mV, temperatures in 1/16 °C. -/

namespace Sys2Proof.Machine

/-- States of a domain (R236). -/
def dmOff : Nat := 0
def dmEmpty : Nat := 1
def dmInsert : Nat := 2
def dmRamp : Nat := 3
def dmOn : Nat := 4
def dmRetry : Nat := 5
def dmLatched : Nat := 6
def dmDamaged : Nat := 7
def dmStandby : Nat := 8

/-- The page of a domain (R255). -/
def domPg (n : Nat) : Nat := 0x0D + n / 4

/-- A field of a domain's own registers. -/
def Chip.dg (m : Chip) (f : Fld) (n : Nat) : Nat := m.get (domPg n) f (n % 4)

/-- Store a field of a domain's own registers. -/
def Chip.dp (m : Chip) (f : Fld) (v n : Nat) : Chip := m.put (domPg n) f v (n % 4)

/-- What a domain keeps outside its registers. -/
def Chip.dm (m : Chip) (n : Nat) : DomSt := (m.dom[n]?).getD {}

/-- Change what a domain keeps. -/
def Chip.modDm (m : Chip) (n : Nat) (f : DomSt → DomSt) : Chip := { m with dom := setAt m.dom n (f (m.dm n)) }

/-- `STn.STATE`. -/
def Chip.dst (m : Chip) (n : Nat) : Nat := m.dg DOM_ST_STATE n

/-- A current of MONn, signed. -/
def Chip.domI (m : Chip) (n : Nat) : Int := sx 16 (m.dg DOM_MON_I n)

/-- `MON2n.TJM`, signed 1/16 °C. -/
def Chip.domTj (m : Chip) (n : Nat) : Int := sx 16 (m.dg DOM_MON2_TJM n)

/-! ### Levels (R233, R235, R242) -/

/-- A level as a number of converter steps times `CAL.SCALEn` × 10⁷: 1/16 A through 2.5 nV × 2⁴⁰ / SCALE over 0.390625
mV (R233). DEDUCED, unsafe (log 44). -/
def levelNum (lev : Nat) : Nat := lev * 2 ^ 42

/-- Converter steps of a level, rounded to nearest (R233). DEDUCED, unsafe (log 44). -/
def levelSteps (scale lev : Nat) : Nat := (divNear (levelNum lev) (scale * 10000000)).toNat

/-- The current in 1/16 A at which a converted level stands. DEDUCED, unsafe (log 44). -/
def levelAmps (scale lev : Nat) : Nat := levelSteps scale lev * (scale * 10000000) / 2 ^ 42

/-- The levels as the registers hold them. -/
def Chip.domRegLevels (m : Chip) (n : Nat) : DomLevels :=
  { brk := m.dg DOM_FWD_BRKLVL n, ilim := m.dg DOM_FWD_ILIM n, sc := m.dg DOM_SC_SCLVL n, rsc := m.dg DOM_SC_RSCLVL n,
    rev := m.dg DOM_REV_REVLIM n, rblk := m.dg DOM_REV_RBLK n }

/-- Is the configuration of the registers valid (R235)? -/
def Chip.domValid (m : Chip) (n : Nat) : Bool :=
  let l := m.domRegLevels n
  let scale := m.get 5 CAL_SCALE_SCALE n
  scale != 0 && decide (l.brk ≤ l.ilim) && decide (l.ilim < l.sc) && decide (l.rev < l.rsc) &&
  [l.brk, l.ilim, l.sc, l.rsc, l.rev, l.rblk].all (fun v => decide (levelNum v ≤ 256 * (scale * 10000000)))

/-- FWDEFF (R242): ILIM and Cap's limit by minimum; in RAMP the configured ILIM alone (R240). -/
def Chip.domFwdEff (m : Chip) (n : Nat) : Nat :=
  if m.dst n = dmRamp then (m.dm n).lev.ilim else Nat.min (m.dm n).lev.ilim (m.get 0x1E CAP_DLIM_FWDLIM n)

/-- REVEFF (R242). -/
def Chip.domRevEff (m : Chip) (n : Nat) : Nat := Nat.min (m.dm n).lev.rev (m.get 0x1E CAP_DLIM_REVLIM n)

/-- Is the forward limit set by Cap (R242)? -/
def Chip.domCapLim (m : Chip) (n : Nat) : Bool := decide (m.domFwdEff n < (m.dm n).lev.ilim)

/-- The effective limits and the flags that follow them. -/
def Chip.domEff (m : Chip) (n : Nat) : Chip :=
  let m := m.put (domPg n) DOM_EFF_FWDEFF (m.domFwdEff n) (n % 4)
  let m := m.put (domPg n) DOM_EFF_REVEFF (m.domRevEff n) (n % 4)
  m.dp DOM_ST_CAPLIM (b2n (m.domCapLim n)) n

/-- A write of FWDn, SCn or REVn has been stored (R235). DEDUCED, unsafe (log 44). -/
def Chip.domLevelsWritten (m : Chip) (n : Nat) : Chip :=
  if m.domValid n then (m.modDm n (fun d => { d with levWait := true })).dp DOM_ST_CFGERR 0 n
  else
    let m := m.modDm n (fun d => { d with levWait := false })
    if m.dst n = dmOff ∨ m.dst n = dmStandby then m else (m.dp DOM_ST_CFGERR 1 n).irq (domPg n) 11

/-- The level registers, by offset in the page: FWDn, SCn and REVn. -/
def domLevelReg (which : Nat) : Fld :=
  if which = 0 then DOM_FWD_ILIM else if which = 1 then DOM_SC_SCLVL else DOM_REV_REVLIM

/-- A write of a level register. -/
def Chip.domLevelWrite (m : Chip) (r n which v : Nat) : Chip :=
  let a := (domLevelReg which).addr (domPg n) (n % 4)
  let m1 := m.plainWrite r a v
  if m.unlockedFor r (domPg n) then m1.domLevelsWritten n else m1

/-! ### Changes of state (R236) -/

/-- Enter a state; every run restarts. -/
def Chip.domGo (m : Chip) (n st : Nat) (g : Gate) : Chip :=
  (m.modDm n (fun d => { d with
    gate := g, waiting := false, waitRun := 0, insRun := 0, brkRun := 0, limRun := 0, onRun := 0, rdvRun := 0 })).dp
    DOM_ST_STATE st n |>.dp DOM_ST_BLOCK 0 n

/-- The gate is commanded off: the damaged-FET test counts DMGDLY from here (R248). -/
def Chip.domOffNow (m : Chip) (n : Nat) : Chip := m.modDm n (fun d => { d with offAge := 0, dmgSrc := 0, dmgOut := 0 })

/-- Enter a state in which the gate is commanded off. -/
def Chip.domGoOff (m : Chip) (n st : Nat) (g : Gate) : Chip :=
  let was := (m.dm n).gate
  let m := m.domGo n st g
  if was = .off ∨ was = .strong then m else m.domOffNow n

/-- Is a cassette present (R237)? -/
def Chip.domPresent (m : Chip) (n : Nat) : Bool :=
  m.dg DOM_GCTL_PRSEN n == 0 || bit (m.get (domPg n) DOM_PRS_PRES) (n % 4)

/-- Does OUTn stand at the bus less PGVDS or above? -/
def Chip.domUp (m : Chip) (n : Nat) : Bool :=
  decide (m.dg DOM_MON2_VBUS n ≤ m.dg DOM_MON_VOUT n + m.dg DOM_DCFG_PGVDS n)

/-- Enter INSERT with a fresh delay (R238). -/
def Chip.domInsert (m : Chip) (n : Nat) : Chip := (m.domGoOff n dmInsert .off).irq (domPg n) 8

/-- The 1 ms with the gate off before INSERT (R239), in the state the domain is to leave. DEDUCED, unsafe (log 45). -/
def Chip.domWait (m : Chip) (n : Nat) : Chip :=
  let was := (m.dm n).gate
  let m := m.modDm n (fun d => { d with gate := .off, waiting := true, waitRun := 0 })
  if was = .off ∨ was = .strong then m else m.domOffNow n

/-- The choice of R239 when a domain leaves OFF, LATCHED, DAMAGED or STANDBY; a domain whose own DAMAGED is set stays
DAMAGED (R252). DEDUCED, unsafe (log 45). -/
def Chip.domEnter (m : Chip) (n : Nat) : Chip :=
  if m.dg DOM_ST_DAMAGED n = 1 then m.domGoOff n dmDamaged .strong
  else if !m.domPresent n then m.domGoOff n dmEmpty .off
  else if m.dg DOM_GCTL_ADOPT n == 1 && m.domUp n && (m.dm n).gateHigh then
    ((m.domGo n dmOn .on).modDm n (fun d => { d with rampTicks := 0 })).emit 0x3005 [n, up (m.dg DOM_MON_VOUT n)]
  else m.domWait n

/-- A ramp starts: INRE cleared, the gate charged from OUTn as it stands (R236, R240). -/
def Chip.domRampStart (m : Chip) (n : Nat) : Chip :=
  let m := m.domGo n dmRamp .ramp
  (m.modDm n (fun d => { d with rampTicks := 0, rampOut := m.dg DOM_MON_VOUT n, inre := 0, offLeft := 0 })).dp DOM_INRE_E 0 n

/-- The reference that OUTn follows in RAMP, in 10 mV: DVDT × 0.1 V/ms from OUTn at ramp start (R240). -/
def Chip.domRef (m : Chip) (n : Nat) : Nat :=
  (m.dm n).rampOut + clampN 1 500 (m.dg DOM_DCFG_DVDT n) * (m.dm n).rampTicks / 20000

/-- Has the ramp lasted 2 × bus / (DVDT × 0.1 V/ms) (R240)? DESIGN CHOICE, unsafe (log 36). -/
def Chip.domRampLate (m : Chip) (n : Nat) : Bool :=
  decide (2 * m.dg DOM_MON2_VBUS n * 20000 ≤ clampN 1 500 (m.dg DOM_DCFG_DVDT n) * (m.dm n).rampTicks)

/-- What the Depot holds of a domain (R388). -/
def Chip.domDepot (m : Chip) (n tag : Nat) : Chip :=
  m.depot 16 tag (n + m.dg DOM_MON_I n * 2 ^ 16 + m.dg DOM_MON2_TJM n * 2 ^ 32)

/-- The off-time after a trip in ticks (R245). -/
def Chip.domOffTime (m : Chip) (n ta : Nat) : Nat :=
  Nat.max (Nat.max 1 (m.dg DOM_TIM_RETRYT n) * 2000000) (2 ^ m.dg DOM_TIM_RDUTY n * ta)

/-- A trip (R241, R245), `ta` ticks after ramp start. DEDUCED, unsafe (log 45). -/
def Chip.domTrip (m : Chip) (n cause ta : Nat) : Chip :=
  let m := ((m.domGoOff n dmRetry .strong).dp DOM_ST_CAUSE cause n).count (domPg n) DOM_CNT_TRIPS (n % 4)
  let m := (m.emit 0x3001 [n, cause, sp (m.domI n), sp (m.domTj n)]).irq (domPg n) 4
  let m := (m.domDepot n cause).raise (64 + n)
  let top := m.dg DOM_TIM_RETRYN n
  if top ≠ 15 ∧ m.dg DOM_ST_RCNT n = top then
    let m := ((m.dp DOM_ST_STATE dmLatched n).dp DOM_ST_LATCHED 1 n).irq (domPg n) 5
    (m.emit 0x3003 [n, cause]).domDepot n 7
  else m.modDm n (fun d => { d with offLeft := m.domOffTime n ta })

/-- Is the domain in a state that trips? -/
def Chip.domLive (m : Chip) (n : Nat) : Bool := m.dst n == dmRamp || m.dst n == dmOn

/-- The removal of a cassette (R236, R246): in every state it clears the fault latch and the retry count and cancels
the off-time. DEDUCED, unsafe (log 45). -/
def Chip.domRemoved (m : Chip) (n : Nat) : Chip :=
  let st := m.dst n
  let m := ((m.dp DOM_ST_LATCHED 0 n).dp DOM_ST_RCNT 0 n).modDm n (fun d => { d with offLeft := 0 })
  if dmInsert ≤ st ∧ st ≤ dmLatched then ((m.domGoOff n dmEmpty .off).irq (domPg n) 7).emit 0x3006 [n, st] else m

/-- The gain of presence (R236, R238). -/
def Chip.domGained (m : Chip) (n : Nat) : Chip := if m.dst n = dmEmpty then m.domInsert n else m

/-! ### The thermal model (R243, R244) -/

/-- RTH in mK/W and TAU in µs of a stage. -/
def Chip.domStage (m : Chip) (n k : Nat) : Nat × Nat :=
  if k = 0 then (m.dg DOM_THA_RTH1 n, Nat.max 20 (m.dg DOM_THA_TAU1 n))
  else if k = 1 then (m.dg DOM_THB_RTH2 n, Nat.max 1 (m.dg DOM_THB_TAU2 n) * 100)
  else (m.dg DOM_THC_RTH3 n, Nat.max 1 (m.dg DOM_THC_TAU3 n) * 10000)

/-- The rise of a stage for an energy in 1.25 nJ: E × RTH / TAU. DESIGN CHOICE, unsafe (log 46). -/
def stageRise (e rth tau : Nat) : Int := ((e * rth * 2 ^ 40 * 5 / (tau * 4000000) : Nat) : Int)

/-- Add an energy to every stage. DESIGN CHOICE, unsafe (log 46). -/
def Chip.domHeat (m : Chip) (n e : Nat) : Chip :=
  m.modDm n (fun d => { d with dts := (List.range 3).map (fun k =>
    atI d.dts k + stageRise e (m.domStage n k).1 (m.domStage n k).2) })

/-- One step of each stage's decay over 2 µs. DESIGN CHOICE, unsafe (log 46). -/
def Chip.domCool (m : Chip) (n : Nat) : Chip :=
  m.modDm n (fun d => { d with dts := (List.range 3).map (fun k =>
    atI d.dts k - divFloor (atI d.dts k * 2) (m.domStage n k).2) })

/-- The model's junction temperature. -/
def Chip.domTjNow (m : Chip) (n : Nat) : Int :=
  satS 16 (sx 8 (m.dg DOM_TJ_TAMB n) * 16 + divFloor ((m.dm n).dts.foldl (· + ·) 0) (2 ^ 36))

/-- MON2n.TJM and the warning with its hysteresis of 5 °C. -/
def Chip.domTemp (m : Chip) (n : Nat) : Chip :=
  let tj := m.domTjNow n
  let m := m.dp DOM_MON2_TJM (ux 16 tj) n
  let warn : Int := m.dg DOM_TJ_TJWARN n
  if warn * 16 ≤ tj then
    if m.dg DOM_ST_TWARN n = 1 then m
    else ((m.dp DOM_ST_TWARN 1 n).irq (domPg n) 9).emit 0x3009 [n, sp tj]
  else if tj < (warn - 5) * 16 then m.dp DOM_ST_TWARN 0 n else m

/-- Energy in 1.25 nJ of |bus − OUTn| × |I| over 2 µs. -/
def Chip.domStepEnergy (m : Chip) (n : Nat) : Nat :=
  absI ((m.dg DOM_MON2_VBUS n : Int) - m.dg DOM_MON_VOUT n) * absI (m.domI n)

/-- INRE in mJ from the energy it holds. DESIGN CHOICE, unsafe (log 46). -/
def Chip.domInre (m : Chip) (n : Nat) : Chip := m.dp DOM_INRE_E (satU 32 ((m.dm n).inre * 5 / 4000000)) n

/-- The energy the model has not sampled at a short circuit (R244), in 1.25 nJ: bus × SCLVL × ticks. -/
def Chip.domUnsampled (m : Chip) (n ticks : Nat) : Nat :=
  m.dg DOM_MON2_VBUS n * levelAmps (m.get 5 CAL_SCALE_SCALE n) (m.dm n).lev.sc * ticks / 400

/-! ### The monitor step (R234, R251) -/

/-- Store what the step converted. -/
def Chip.domStore (m : Chip) (n : Nat) (x : MonIn) : Chip :=
  let m := (m.dp DOM_MON_VOUT x.out.toNat n).dp DOM_MON_I x.i.toNat n
  let m := (m.dp DOM_MON2_VBUS x.bus.toNat n).dp DOM_DMG_VSRC x.src.toNat n
  let m := m.dp DOM_ST_LIMIT (b2n x.limiting) n
  m.modDm n (fun d => { d with gateHigh := x.gateHigh, gateLow := x.gateLow })

/-- The energy of a ramp, and the time since its start. -/
def Chip.domRampCount (m : Chip) (n e : Nat) : Chip :=
  let m := if m.domLive n then m.modDm n (fun d => { d with rampTicks := d.rampTicks + 400 }) else m
  if m.dst n = dmRamp then (m.modDm n (fun d => { d with inre := d.inre + e })).domInre n else m

/-- The thermal trip, then the end of a ramp, through which the limit timer runs on (R241, R240). -/
def Chip.domDecide (m : Chip) (n : Nat) : Chip :=
  if m.domLive n && decide ((m.dg DOM_TJ_TJTRIP n : Int) * 16 ≤ m.domTj n) then m.domTrip n 4 (m.dm n).rampTicks
  else if m.dst n = dmRamp ∧ m.domUp n = true then
    (m.domGo n dmOn .on).modDm n (fun d => { d with limRun := (m.dm n).limRun })
  else m

/-- The damaged-FET test counts while the gate is commanded off (R248, R252). -/
def Chip.domTests (m : Chip) (n : Nat) : Bool :=
  let st := m.dst n
  if st = dmStandby then (m.dm n).gateLow
  else (st == dmOff && m.enabled (domPg n)) || st == dmEmpty || st == dmInsert || st == dmRetry || st == dmLatched

/-- Count one more step of a condition that holds. -/
def runIf (b : Bool) (n : Nat) : Nat := if b then n + 1 else 0

/-- The counts of the damaged-FET test. -/
def Chip.domDmgCount (m : Chip) (n : Nat) : Chip :=
  if m.domTests n then
    let lvl := m.dg DOM_DMG_DMGLVL n * 25
    let from_ := Nat.max 1 (m.dg DOM_DMG_DMGDLY n) * 500
    m.modDm n (fun d =>
      let on := decide (from_ ≤ d.offAge)
      { d with offAge := d.offAge + 1, dmgSrc := runIf (on && decide (lvl ≤ m.dg DOM_DMG_VSRC n)) d.dmgSrc,
               dmgOut := runIf (on && decide (lvl ≤ m.dg DOM_MON_VOUT n)) d.dmgOut })
  else m.domOffNow n

/-- Does the breaker's test hold in this step (R241 cause 2)? -/
def Chip.domOverBrk (m : Chip) (n : Nat) : Bool :=
  m.dst n == dmOn && decide ((levelAmps (m.get 5 CAL_SCALE_SCALE n) (m.dm n).lev.brk : Int) ≤ m.domI n)

/-- Does the limit timer run in this step (R241 cause 3, R242)? -/
def Chip.domLimiting (m : Chip) (n : Nat) : Bool :=
  m.domLive n && m.dg DOM_ST_LIMIT n == 1 && !m.domCapLim n && decide (0 ≤ m.domI n)

/-- Is OUTn below the bus by RDV (R247)? -/
def Chip.domBelowBus (m : Chip) (n : Nat) : Bool :=
  decide (m.dg DOM_MON_VOUT n + m.dg DOM_REV_RDV n ≤ m.dg DOM_MON2_VBUS n)

/-- The counts of every timed test. -/
def Chip.domCounts (m : Chip) (n : Nat) : Chip :=
  (m.modDm n (fun d => { d with
    brkRun := runIf (m.domOverBrk n) d.brkRun
    limRun := runIf (m.domLimiting n) d.limRun
    onRun := runIf (m.dst n == dmOn) d.onRun
    rdvRun := runIf (m.dg DOM_ST_BLOCK n == 1 && m.domBelowBus n) d.rdvRun
    waitRun := runIf d.waiting d.waitRun
    insRun := runIf (m.dst n == dmInsert) d.insRun
    offLeft := d.offLeft - 400 })).domDmgCount n

/-- Has a timed cause of R241 completed: 2 breaker, 3 limit timeout, 5 ramp timeout? -/
def Chip.domDue (m : Chip) (n cause : Nat) : Bool :=
  if cause = 2 then m.dst n == dmOn && decide (Nat.max 1 (m.dg DOM_TIM_BRKT n) * 5 ≤ (m.dm n).brkRun)
  else if cause = 3 then m.domLive n && decide (Nat.max 1 (m.dg DOM_TIM_LIMT n) * 500 ≤ (m.dm n).limRun)
  else m.dst n == dmRamp && m.domRampLate n

/-- A timed cause trips the domain, if it has completed. -/
def Chip.domTimed (m : Chip) (n cause : Nat) : Chip :=
  if m.domDue n cause then m.domTrip n cause (m.dm n).rampTicks else m

/-- The timed causes that have completed trip the domain before what comes after them in a monitor step (R251). -/
def Chip.domTripsDue (m : Chip) (n : Nat) : Chip := [2, 3, 5].foldl (fun m c => m.domTimed n c) m

/-- Presence as the step finds it, where PRSEN has changed it (R237); trips of the step come before a removal (R251). -/
def Chip.domPresence (m : Chip) (n : Nat) : Chip :=
  if m.domPresent n then m.domGained n else (m.domTripsDue n).domRemoved n

/-- The damaged-FET test, once it has held for 64 monitor steps (R248); SRC takes precedence. -/
def Chip.domDamaged (m : Chip) (n : Nat) : Chip :=
  let d := m.dm n
  let src := decide (64 ≤ d.dmgSrc)
  if m.domTests n && (src || decide (64 ≤ d.dmgOut)) && m.dg DOM_ST_DAMAGED n == 0 then
    let m := (m.dp DOM_ST_DAMAGED 1 n).dp DOM_ST_DMGC (if src then 1 else 2) n
    let m := if m.dst n = dmStandby then m else m.domGoOff n dmDamaged .strong
    let v := if src then m.dg DOM_DMG_VSRC n else m.dg DOM_MON_VOUT n
    let m := (m.irq (domPg n) 6).emit 0x3004 [n, if src then 1 else 2, up v]
    (m.domDepot n 8).raise (64 + n)
  else m

/-- Levels written since the last step take effect. DEDUCED, unsafe (log 44). -/
def Chip.domLevels (m : Chip) (n : Nat) : Chip :=
  let m := if (m.dm n).levWait then m.modDm n (fun d => { d with lev := m.domRegLevels n, levWait := false }) else m
  (m.dp DOM_ST_REVON (b2n (m.dst n == dmOn && decide (m.domI n < 0))) n).domEff n

/-- A monitor step of a domain. -/
def Chip.monStep (m : Chip) (n : Nat) (x : MonIn) : Chip :=
  let m := m.domStore n x
  let e := m.domStepEnergy n
  let m := ((m.domCool n).domHeat n e).domTemp n
  let m := ((m.domRampCount n e).domCounts n).domDecide n
  (m.domPresence n).domLevels n

/-! ### Enables, clears, role (R249–R252) -/

/-- Does protection claim the domain (R250)? DEDUCED, unsafe (log 45). -/
def Chip.domClaimed (m : Chip) (n : Nat) : Bool :=
  m.dg DOM_ST_LATCHED n == 1 || m.dg DOM_ST_DAMAGED n == 1 || decide (0 < (m.dm n).offLeft)

/-- A write of `GCTLn.EN`, after the trips and the damaged-FET test of the monitor step (R251); `req` is none for
Sequencing, whose requester parameter the spec leaves open. DESIGN CHOICE, safe (log 3); DEDUCED, unsafe (log 45). -/
def Chip.domEn (m : Chip) (n : Nat) (en : Bool) (req : Option Nat) : Chip :=
  let m := (m.domTripsDue n).domDamaged n
  if !en then
    let m := (m.dp DOM_GCTL_EN 0 n).dp DOM_ST_HELD 0 n
    if (m.dm n).waiting then m.domGoOff n dmOff .off
    else if m.dst n = dmStandby ∨ m.dst n = dmDamaged ∨ m.dst n = dmOff then m else m.domGoOff n dmOff .off
  else if m.dg DOM_GCTL_EN n = 1 then m
  else
    let w := match req with
      | some r => (r, m)
      | none => (m.freeWord.1.toNat % 2 ^ 24, m.freeWord.2)
    if !m.domValid n then
      ((w.2.dp DOM_ST_CFGERR 1 n).irq (domPg n) 11).emit 0x300B [n, 1, w.1]
    else if m.domClaimed n then
      let m := if req.isNone then w.2.dp DOM_ST_HELD 1 n else w.2.irq (domPg n) 10
      m.emit 0x300B [n, 2, w.1]
    else
      let m := ((m.dp DOM_GCTL_EN 1 n).dp DOM_ST_HELD 0 n).dp DOM_ST_CFGERR 0 n
      let m := m.modDm n (fun d => { d with lev := m.domRegLevels n, levWait := false })
      if m.dst n = dmOff ∧ m.enabled (domPg n) = true then m.domEnter n else m

/-- A write of GCTLn (R250): EN, and the other fields when the page is unlocked. -/
def Chip.gctlWrite (m : Chip) (r n v : Nat) : Chip :=
  let a := DOM_GCTL_EN.addr (domPg n) (n % 4)
  let m := m.plainWrite r a (setBits v 0 1 (m.dg DOM_GCTL_EN n))
  m.domEn n (bit v 0) (some r)

/-- Held requests of Sequencing are tried again at each waypoint boundary (R20). DESIGN CHOICE, unsafe (log 126). -/
def Chip.domHeldStage (m : Chip) : Chip :=
  (List.range (nDomains m.die.part)).foldl (fun m n =>
    if m.dg DOM_ST_HELD n == 1 && !m.domClaimed n then (m.dp DOM_ST_HELD 0 n).domEn n true none else m) m

/-- A host clear of the fault latch (R249). -/
def Chip.domClearLatch (m : Chip) (r n : Nat) : Chip :=
  if m.dg DOM_ST_LATCHED n = 0 then m
  else
    let m := ((m.dp DOM_ST_LATCHED 0 n).dp DOM_ST_RCNT 0 n).emit 0x3008 [n, 1, r]
    let waits := m.dst n == dmOff && m.dg DOM_GCTL_EN n == 1 && m.enabled (domPg n) && m.leads
    if m.dst n = dmLatched ∨ waits then m.domEnter n else m

/-- A host clear of the damaged-FET latch (R249). -/
def Chip.domClearDamage (m : Chip) (r n : Nat) : Chip :=
  if m.dg DOM_ST_DAMAGED n = 0 then m
  else
    let m := ((m.dp DOM_ST_DAMAGED 0 n).emit 0x3008 [n, 2, r]).domOffNow n
    if m.dst n = dmDamaged then
      if m.dg DOM_GCTL_EN n = 0 then m.domGoOff n dmOff .off else m.domEnter n
    else m

/-- A write of DCLR on page `p` (R249): only a host requester that unlocked the page clears. -/
def Chip.dclrWrite (m : Chip) (r p v : Nat) : Chip :=
  if bitsOf v 0 8 = 0 then m
  else if !isHost r then m.irq (0x0D + p) 10
  else if !m.unlockedFor r (0x0D + p) then m.lockErr
  else (List.range 4).foldl (fun m j =>
    let m := if bit v j then m.domClearLatch r (4 * p + j) else m
    if bit v (4 + j) then m.domClearDamage r (4 * p + j) else m) m

/-- A write of a DOM page's CTRL.ENABLE (R236); while the role is standby an enabled page's domains are in STANDBY
(R508). A domain that its latch claims stays OFF, as EN = 1 is not accepted then (R250). DEDUCED, unsafe (log 45). -/
def Chip.domPageEnable (m : Chip) (p : Nat) (en : Bool) : Chip :=
  let pg := 0x0D + p
  if m.enabled pg && en then m
  else
    let m := m.putB pg HDR_CTRL_ENABLE en
    (List.range 4).foldl (fun m j =>
      let n := 4 * p + j
      if !en then m.domGo n dmOff .highZ
      else if !m.leads then m.domGo n dmStandby .highZ
      else if (m.dg DOM_GCTL_EN n = 1 ∧ m.dg DOM_ST_LATCHED n = 0) ∨ m.dg DOM_ST_DAMAGED n = 1 then m.domEnter n
      else m.domGoOff n dmOff .off) m

/-- The controller role has changed (R236, R252). -/
def Chip.domRole (m : Chip) : Chip :=
  (List.range (nDomains m.die.part)).foldl (fun m n =>
    if !m.leads then (if m.dst n = dmStandby ∧ !(m.dm n).waiting then m else m.domGo n dmStandby .highZ)
    else if m.dst n ≠ dmStandby then m
    else if !m.enabled (domPg n) then m.domGo n dmOff .highZ
    else if m.dg DOM_GCTL_EN n = 1 ∨ m.dg DOM_ST_DAMAGED n = 1 then m.domEnter n
    else m.domGoOff n dmOff .off) m

/-- Do something to a domain that the member carries. -/
def Chip.onDom (m : Chip) (n : Nat) (f : Chip → Chip) : Chip := if n < nDomains m.die.part then f m else m

/-! ### Commands -/

/-- MONITOR_STEP (R234, R240, R243). -/
def execMonitorStep (n : Fin 12) (x : MonIn) (s : State) : Host.Outcome State Fault Refusal :=
  s.run (fun m => m.onDom n.val (fun m => m.monStep n.val x))

/-- PRESENCE_GAINED (R237): sixteen low samples in a row. -/
def execPresenceGained (n : Fin 12) (s : State) : Host.Outcome State Fault Refusal :=
  s.run (fun m => m.onDom n.val (fun m =>
    let m := m.maskSet (domPg n.val) DOM_PRS_PRES (n.val % 4)
    m.domGained n.val))

/-- PRESENCE_LOST (R237): sixteen high samples in a row. -/
def execPresenceLost (n : Fin 12) (s : State) : Host.Outcome State Fault Refusal :=
  s.run (fun m => m.onDom n.val (fun m =>
    let m := m.maskClr (domPg n.val) DOM_PRS_PRES (n.val % 4)
    if m.domPresent n.val then m else (m.domTripsDue n.val).domRemoved n.val))

/-- INSERTION_DELAY_END (R238): INSDLY × 10 ms counted. -/
def execInsertionDelayEnd (n : Fin 12) (s : State) : Host.Outcome State Fault Refusal :=
  s.run (fun m => m.onDom n.val (fun m =>
    if m.dst n.val == dmInsert &&
        decide (Nat.max 1 (m.dg DOM_DCFG_INSDLY n.val) * 5000 ≤ (m.dm n.val).insRun) then
      (m.domRampStart n.val).emit 0x3007 [n.val, up (m.dg DOM_MON2_VBUS n.val)]
    else m))

/-- GATE_OFF_WAIT_END (R239): 1 ms with the gate off counted; the domain enters INSERT, or EMPTY if the cassette has
gone meanwhile. -/
def execGateOffWaitEnd (n : Fin 12) (s : State) : Host.Outcome State Fault Refusal :=
  s.run (fun m => m.onDom n.val (fun m =>
    if (m.dm n.val).waiting && decide (500 ≤ (m.dm n.val).waitRun) then
      if m.domPresent n.val then m.domInsert n.val else m.domGoOff n.val dmEmpty .off
    else m))

/-- DOMAIN_SHORT_CIRCUIT (R241, R244), `since` ticks after the last monitor step. -/
def execDomainShortCircuit (n : Fin 12) (since : BitVec 9) (s : State) : Host.Outcome State Fault Refusal :=
  s.run (fun m => m.onDom n.val (fun m =>
    if m.domLive n.val then
      let e := m.domUnsampled n.val (since.toNat + 40)
      let ramp := m.dst n.val == dmRamp
      let m := (m.domHeat n.val e).domTemp n.val
      let m := if ramp then (m.modDm n.val (fun d => { d with inre := d.inre + e })).domInre n.val else m
      m.domTrip n.val 1 ((m.dm n.val).rampTicks + since.toNat + 40)
    else m))

/-- DOMAIN_REVERSE_SHORT (R241), `since` ticks after the last monitor step. -/
def execDomainReverseShort (n : Fin 12) (since : BitVec 9) (s : State) : Host.Outcome State Fault Refusal :=
  s.run (fun m => m.onDom n.val (fun m =>
    if m.domLive n.val then m.domTrip n.val 6 ((m.dm n.val).rampTicks + since.toNat + 40) else m))

/-- DOMAIN_BREAKER_TRIP (R241): BRKT × 10 µs at or above BRKLVL in ON. -/
def execDomainBreakerTrip (n : Fin 12) (s : State) : Host.Outcome State Fault Refusal :=
  s.run (fun m => m.onDom n.val (fun m =>
    m.domTimed n.val 2))

/-- DOMAIN_LIMIT_TIMEOUT (R241): LIMT ms of regulation. -/
def execDomainLimitTimeout (n : Fin 12) (s : State) : Host.Outcome State Fault Refusal :=
  s.run (fun m => m.onDom n.val (fun m =>
    m.domTimed n.val 3))

/-- DOMAIN_RAMP_TIMEOUT (R240). -/
def execDomainRampTimeout (n : Fin 12) (s : State) : Host.Outcome State Fault Refusal :=
  s.run (fun m => m.onDom n.val (fun m =>
    m.domTimed n.val 5))

/-- DOMAIN_RETRY_START (R245): the off-time is over and the model has cooled; otherwise the domain waits. -/
def execDomainRetryStart (n : Fin 12) (s : State) : Host.Outcome State Fault Refusal :=
  s.run (fun m => m.onDom n.val (fun m =>
    if m.dst n.val == dmRetry && (m.dm n.val).offLeft == 0 && m.dg DOM_GCTL_EN n.val == 1 &&
        decide (m.domTj n.val ≤ (m.dg DOM_TJ_TJCOOL n.val : Int) * 16) then
      let m := m.dp DOM_ST_RCNT (satInc 4 (m.dg DOM_ST_RCNT n.val)) n.val
      let m := (m.count (domPg n.val) DOM_CNT_RETRIES (n.val % 4)).domRampStart n.val
      m.emit 0x3002 [n.val, m.dg DOM_ST_RCNT n.val]
    else m))

/-- DOMAIN_RCNT_RESET (R245): 10 s of ON. -/
def execDomainRcntReset (n : Fin 12) (s : State) : Host.Outcome State Fault Refusal :=
  s.run (fun m => m.onDom n.val (fun m =>
    if m.dst n.val == dmOn && decide (5000000 ≤ (m.dm n.val).onRun) then m.dp DOM_ST_RCNT 0 n.val else m))

/-- DOMAIN_REVERSE_BLOCK (R247): a reverse current, given as its magnitude, above RBLK where reverse flow is not
permitted. -/
def execDomainReverseBlock (n : Fin 12) (i : BitVec 16) (s : State) : Host.Outcome State Fault Refusal :=
  s.run (fun m => m.onDom n.val (fun m =>
    if m.dst n.val == dmOn && m.dg DOM_ST_BLOCK n.val == 0 &&
        (m.dg DOM_GCTL_REVEN n.val == 0 || m.domRevEff n.val == 0) && decide (levelAmps (m.get 5 CAL_SCALE_SCALE n.val) (m.dm n.val).lev.rblk < i.toNat) then
      let m := (m.dp DOM_ST_BLOCK 1 n.val).modDm n.val (fun d => { d with gate := .off, rdvRun := 0 })
      (m.count (domPg n.val) DOM_CNT_BLOCKS (n.val % 4)).emit 0x300A [n.val, up i.toNat]
    else m))

/-- DOMAIN_REVERSE_REENABLE (R247): four monitor steps with OUTn at the bus less RDV or below. -/
def execDomainReverseReenable (n : Fin 12) (s : State) : Host.Outcome State Fault Refusal :=
  s.run (fun m => m.onDom n.val (fun m =>
    if m.dg DOM_ST_BLOCK n.val == 1 && decide (4 ≤ (m.dm n.val).rdvRun) then
      (m.dp DOM_ST_BLOCK 0 n.val).modDm n.val (fun d => { d with gate := .on, rdvRun := 0 })
    else m))

/-- DOMAIN_DAMAGED_FET (R248): 64 monitor steps at or above DMGLVL; SRC takes precedence. -/
def execDomainDamagedFet (n : Fin 12) (s : State) : Host.Outcome State Fault Refusal :=
  s.run (fun m => m.onDom n.val (fun m => m.domDamaged n.val))

/-- DOMAIN_CLEAR_LATCH (R249). -/
def execDomainClearLatch (r : Requester) (n : Fin 12) (s : State) : Host.Outcome State Fault Refusal :=
  s.run (fun m => m.onRwl (reqCode r) (domPg n.val) (fun m =>
    m.dclrWrite (reqCode r) (n.val / 4) (2 ^ (n.val % 4))))

/-- DOMAIN_CLEAR_DAMAGE (R249). -/
def execDomainClearDamage (r : Requester) (n : Fin 12) (s : State) : Host.Outcome State Fault Refusal :=
  s.run (fun m => m.onRwl (reqCode r) (domPg n.val) (fun m =>
    m.dclrWrite (reqCode r) (n.val / 4) (2 ^ (4 + n.val % 4))))

/-- DOMAIN_EN_WRITE (R250). -/
def execDomainEnWrite (r : Requester) (n : Fin 12) (en : Bool) (s : State) : Host.Outcome State Fault Refusal :=
  s.run (fun m => m.onPage (reqCode r) (domPg n.val) (fun m => m.domEn n.val en (some (reqCode r))))

/-- DOMAIN_LEVEL_WRITE (R235): FWDn, SCn or REVn. -/
def execDomainLevelWrite (r : Requester) (n : Fin 12) (which : Fin 3) (v : Word) (s : State) :
    Host.Outcome State Fault Refusal :=
  s.run (fun m => m.onRwl (reqCode r) (domPg n.val) (fun m => m.domLevelWrite (reqCode r) n.val which.val v.toNat))

/-- DOM_PAGE_ENABLE_WRITE (R236). -/
def execDomPageEnableWrite (r : Requester) (p : Fin 3) (en : Bool) (s : State) : Host.Outcome State Fault Refusal :=
  s.run (fun m => m.onPage (reqCode r) (0x0D + p.val) (fun m => m.domPageEnable p.val en))

end Sys2Proof.Machine
end

