-- ==== Sys2Proof/Machine/PdMessage.lean ====
section
/-! DEFINITION. Messages of USB Power Delivery as the ports read and build them (R257, R265–R274). Header and object
layouts are those of USB Power Delivery Revision 3.1, which R257 and R270 name. -/

namespace Sys2Proof.Machine

/-- The payload bytes as words, first byte in [7:0] (R296). -/
def pdWords : List Byte → List Nat
  | a :: b :: c :: d :: t => bytesLE [a, b, c, d] :: pdWords t
  | [] => []
  | t => [bytesLE t]

/-- Message type, header bits [4:0]. -/
def pdType (hdr : Nat) : Nat := bitsOf hdr 0 5

/-- Number of data objects, header bits [14:12]. -/
def pdCount (hdr : Nat) : Nat := bitsOf hdr 12 3

/-- Kinds of control messages. PRESUMED, unsafe (log 47). -/
def pdControl (t : Nat) : PdKind :=
  match t with
  | 2 => .gotoMin | 3 => .accept | 4 => .reject | 5 => .ping | 6 => .psRdy | 7 => .getSourceCap | 8 => .getSinkCap
  | 9 => .drSwap | 10 => .prSwap | 11 => .vconnSwap | 12 => .wait | 13 => .softReset | 14 => .dataReset
  | 16 => .notSupported | 17 => .getSourceCapExt | 18 => .getStatus | 19 => .frSwap | 20 => .getPpsStatus
  | 21 => .getCountryCodes | 22 => .getSinkCapExt | 23 => .getSourceInfo | 24 => .getRevision
  | _ => .other

/-- Kinds of data messages. PRESUMED, unsafe (log 47). -/
def pdData (t : Nat) : PdKind :=
  match t with
  | 1 => .sourceCaps | 2 => .request | 3 => .bist | 4 => .sinkCaps | 6 => .alert | 7 => .getCountryInfo
  | 8 => .enterUsb | 9 => .eprRequest | 10 => .eprMode | 11 => .sourceInfo | 12 => .revision | 15 => .vdm
  | _ => .other

/-- Kinds of extended messages; Extended_Control carries its type in its first byte. PRESUMED, unsafe (log 47). -/
def pdExtended (t first : Nat) : PdKind :=
  match t with
  | 1 => .sourceCapsExt | 2 => .status | 3 => .getBatteryCap | 4 => .getBatteryStatus | 6 => .getManufacturerInfo
  | 8 => .securityRequest | 10 => .firmwareRequest | 12 => .ppsStatus | 15 => .sinkCapsExt
  | 16 => match first with
    | 1 => .eprGetSourceCap | 2 => .eprGetSinkCap | 3 => .eprKeepAlive | 4 => .eprKeepAliveAck | _ => .other
  | 17 => .eprSourceCaps | 18 => .eprSinkCaps
  | _ => .other

/-- The kind of a message by its header and its first payload word. PRESUMED, unsafe (log 47). -/
def pdKind (hdr w0 : Nat) : PdKind :=
  if bit hdr 15 then pdExtended (pdType hdr) (w0 % 256)
  else if pdCount hdr = 0 then pdControl (pdType hdr)
  else pdData (pdType hdr)

/-- A word of a message, 0 past its end. -/
def PdRx.word (x : PdRx) (k : Nat) : Nat := (x.words[k]?).getD 0

/-- The kind of a received message. -/
def PdRx.kind (x : PdRx) : PdKind := pdKind x.hdr (x.word 0)

/-- Is an extended message not chunked: bit 15 of its extended header 0 (R257)? -/
def PdRx.unchunked (x : PdRx) : Bool := bit x.hdr 15 && !bit x.ext 15

/-- Class (0 control, 1 data, 2 extended) and type number of a kind: the inverse of `pdKind`. PRESUMED, unsafe (log
47). -/
def PdKind.code : PdKind → Nat × Nat
  | .gotoMin => (0, 2) | .accept => (0, 3) | .reject => (0, 4) | .ping => (0, 5) | .psRdy => (0, 6)
  | .getSourceCap => (0, 7) | .getSinkCap => (0, 8) | .drSwap => (0, 9) | .prSwap => (0, 10) | .vconnSwap => (0, 11)
  | .wait => (0, 12) | .softReset => (0, 13) | .dataReset => (0, 14) | .notSupported => (0, 16)
  | .getSourceCapExt => (0, 17) | .getStatus => (0, 18) | .frSwap => (0, 19) | .getPpsStatus => (0, 20)
  | .getCountryCodes => (0, 21) | .getSinkCapExt => (0, 22) | .getSourceInfo => (0, 23) | .getRevision => (0, 24)
  | .sourceCaps => (1, 1) | .request => (1, 2) | .bist => (1, 3) | .sinkCaps => (1, 4) | .alert => (1, 6)
  | .getCountryInfo => (1, 7) | .enterUsb => (1, 8) | .eprRequest => (1, 9) | .eprMode => (1, 10)
  | .sourceInfo => (1, 11) | .revision => (1, 12) | .vdm => (1, 15)
  | .sourceCapsExt => (2, 1) | .status => (2, 2) | .getBatteryCap => (2, 3) | .getBatteryStatus => (2, 4)
  | .getManufacturerInfo => (2, 6) | .securityRequest => (2, 8) | .firmwareRequest => (2, 10) | .ppsStatus => (2, 12)
  | .sinkCapsExt => (2, 15) | .eprGetSourceCap | .eprGetSinkCap | .eprKeepAlive | .eprKeepAliveAck => (2, 16)
  | .eprSourceCaps => (2, 17) | .eprSinkCaps => (2, 18)
  | .other => (0, 0)

/-- Payload bytes of an extended message of CP2. PRESUMED, unsafe (log 47). -/
def PdTx.bytes (t : PdTx) : Nat :=
  match t.kind with
  | .eprGetSourceCap | .eprGetSinkCap | .eprKeepAlive | .eprKeepAliveAck => 2
  | .status => 7
  | .sourceCapsExt => 25
  | .sinkCapsExt => 24
  | _ => 4 * t.words.length

/-- The extended header of a message on the line: chunked, chunk 0, its size (R257); E2's as it stands. PRESUMED,
unsafe (log 47). -/
def PdTx.extHdr (t : PdTx) : Nat := if t.byE2 then t.ext else if t.kind.code.1 = 2 then 2 ^ 15 + t.bytes else 0

/-- The header of a message on the line: type, roles on SOP, number of objects; MessageID and revision 3.1 filled in
by CP2 in every message (R258, R265, R296). PRESUMED, unsafe (log 47). -/
def PdTx.header (t : PdTx) (prole drole id : Nat) : Nat :=
  let c := t.kind.code
  let roles := if t.sopp then 0 else drole * 32 + prole * 256
  let count := if c.1 = 2 then Nat.min 7 ((t.bytes + 5) / 4) else t.words.length % 8
  let base := if t.byE2 then t.hdr else c.2 + roles + count * 2 ^ 12 + b2n (c.1 == 2) * 2 ^ 15
  setBits (setBits base 6 2 2) 9 3 id

/-- Does a message ask its receiver for an answer and so begin an exchange? PRESUMED, unsafe (log 47). -/
def pdAsks (k : PdKind) (w0 : Nat) : Bool :=
  match k with
  | .sourceCaps | .eprSourceCaps | .request | .eprRequest | .prSwap | .drSwap | .vconnSwap | .frSwap | .softReset
  | .getSourceCap | .getSinkCap | .getSourceCapExt | .getSinkCapExt | .getSourceInfo | .getRevision | .getPpsStatus
  | .getStatus | .eprGetSourceCap | .eprGetSinkCap | .eprKeepAlive => true
  | .eprMode => w0 / 2 ^ 24 == 1
  | .vdm => bit w0 15 && bitsOf w0 6 2 == 0
  | _ => false

/-- Does a message end the wait of the one asked with `a`? What starts a power sequence, and FR_Swap, are left to
their own answers; a table offered is answered by a Request, every other question by any message that asks nothing.
PRESUMED, unsafe (log 47). -/
def pdEnds (a k : PdKind) (w0 : Nat) : Bool :=
  match a with
  | .request | .eprRequest | .prSwap | .drSwap | .vconnSwap | .frSwap | .eprMode => false
  | .sourceCaps | .eprSourceCaps => k == .request || k == .eprRequest || !pdAsks k w0
  | _ => !pdAsks k w0

/-! ### Objects -/

/-- Actions of EPR_Mode, data object bits [31:24]. -/
def emEnter : Nat := 1
def emAck : Nat := 2
def emOk : Nat := 3
def emFail : Nat := 4
def emExit : Nat := 5

/-- An EPR_Mode data object of an action with its data byte. PRESUMED, unsafe (log 47). -/
def emWord (action data : Nat) : Nat := action * 2 ^ 24 + data * 2 ^ 16

/-- Type of a power data object, [31:30]: 0 fixed, 3 augmented. PRESUMED, unsafe (log 47). -/
def pdoType (w : Nat) : Nat := bitsOf w 30 2

/-- Voltage of a fixed object in mV. PRESUMED, unsafe (log 47). -/
def pdoMv (w : Nat) : Nat := bitsOf w 10 10 * 50

/-- Is an object a programmable supply of the SPR range? -/
def pdoPps (w : Nat) : Bool := pdoType w == 3 && bitsOf w 28 2 == 0

/-- Is an object an adjustable supply of the EPR range? -/
def pdoAvs (w : Nat) : Bool := pdoType w == 3 && bitsOf w 28 2 == 1

/-- What a request object asks of the power data object it names. PRESUMED, unsafe (log 47). -/
def pdCandidate (rdo pdo : Nat) : PdCand :=
  if pdoPps pdo then
    { pos := bitsOf rdo 28 4, iop := bitsOf rdo 0 7 * 5, vop := bitsOf rdo 9 12, pps := true }
  else if pdoAvs pdo then
    { pos := bitsOf rdo 28 4, iop := bitsOf rdo 0 7 * 5, vop := bitsOf rdo 9 12 * 25 / 20 }
  else { pos := bitsOf rdo 28 4, iop := bitsOf rdo 10 10, vop := pdoMv pdo / 20 }

/-- Current that an object offers, in 10 mA; an adjustable supply offers a power instead. -/
def pdoMa10 (w : Nat) : Option Nat :=
  if pdoType w = 0 then some (bitsOf w 0 10) else if pdoPps w then some (bitsOf w 0 7 * 5) else none

/-- An object with its current limited to 3.00 A (R271). -/
def pdoClamp (w : Nat) : Nat :=
  if pdoType w = 0 then setBits w 0 10 (Nat.min 300 (bitsOf w 0 10))
  else if pdoPps w then setBits w 0 7 (Nat.min 60 (bitsOf w 0 7)) else w

/-- Fast Role Swap current of a sink's first object, [24:23]. PRESUMED, unsafe (log 47). -/
def pdoFrs (w : Nat) : Nat := bitsOf w 23 2

/-! ### Tables (R270) -/

/-- The words of one part of a table: a zero word ends it. -/
def tablePart : List Nat → List Nat
  | [] => []
  | w :: t => if w = 0 then [] else w :: tablePart t

/-- Highest voltage of an object in mV. -/
def pdoMaxMv (w : Nat) : Nat :=
  if pdoType w = 0 then pdoMv w else if pdoPps w then bitsOf w 17 8 * 100 else bitsOf w 17 9 * 100

/-- Lowest voltage of an augmented object in mV. -/
def pdoMinMv (w : Nat) : Nat := bitsOf w 8 8 * 100

/-- Index of the first word of one part that breaks its rule: fixed objects at listed voltages, ascending, then
augmented ones that pass `aug`, at most `many` of them. `last` is the voltage of the fixed object before. -/
def partBad (volts : List Nat) (aug : Nat → Bool) : Nat → Nat → Nat → Bool → List Nat → Option Nat
  | _, _, _, _, [] => none
  | k, last, many, augSeen, w :: t =>
    if pdoType w = 0 ∧ augSeen = false then
      if volts.contains (pdoMv w) && decide (last < pdoMv w) then partBad volts aug (k + 1) (pdoMv w) many false t
      else some k
    else if aug w ∧ 0 < many then partBad volts aug (k + 1) last (many - 1) true t
    else some k

/-- Index of the first word that makes a table of eleven words invalid. -/
def tableBad (ws : List Nat) (vmax20 imax : Nat) : Option Nat :=
  let spr := tablePart (ws.take 7)
  let epr := tablePart ((ws.drop 7).take 4)
  let pps := fun w => pdoPps w && decide (3300 ≤ pdoMinMv w) && decide (pdoMaxMv w ≤ 21000)
  let avs := fun w => pdoAvs w && decide (15000 ≤ pdoMinMv w) && decide (pdoMaxMv w ≤ 48000)
  let w0 := (ws[0]?).getD 0
  if pdoType w0 ≠ 0 ∨ pdoMv w0 ≠ 5000 then some 0
  else
    match partBad [5000, 9000, 15000, 20000] pps 0 0 7 false spr with
    | some k => some k
    | none =>
      match partBad [28000, 36000, 48000] avs 7 0 1 false epr with
      | some k => some k
      | none =>
        (List.range 11).find? (fun k =>
          let w := (ws[k]?).getD 0
          (k < spr.length || (7 ≤ k && k < 7 + epr.length)) &&
          (decide (Nat.min vmax20 2750 * 20 < pdoMaxMv w) || match pdoMa10 w with
            | some i => decide (imax < i)
            | none => false))

end Sys2Proof.Machine
end

