-- ==== Sys2Proof/Machine/Ports.lean ====
section
/-! DEFINITION. The cable power-delivery ports (R256–R297): Type-C attach, protocol, power sequences, guard, contexts
and allowance. -/

namespace Sys2Proof.Machine

/-- States of a port (R259). -/
def tcDisabled : Nat := 0
def tcErrRec : Nat := 1
def tcUnattSnk : Nat := 2
def tcAttwSnk : Nat := 3
def tcAttSnk : Nat := 4
def tcUnattSrc : Nat := 5
def tcAttwSrc : Nat := 6
def tcAttSrc : Nat := 7
def tcTrySrc : Nat := 8
def tcTrywSnk : Nat := 9
def tcTrySnk : Nat := 10
def tcTrywSrc : Nat := 11
def tcRetry : Nat := 12
def tcLatched : Nat := 13
def tcDamaged : Nat := 14
def tcStandby : Nat := 15

/-- The page of a port. -/
def pdPg (n : Nat) : Nat := 0x10 + n

/-- A field of a port's page. -/
def Chip.pf (m : Chip) (f : Fld) (n : Nat) : Nat := m.get (pdPg n) f

/-- Store a field of a port's page. -/
def Chip.pp (m : Chip) (f : Fld) (v n : Nat) : Chip := m.put (pdPg n) f v

/-- What a port keeps outside its registers. -/
def Chip.port (m : Chip) (n : Nat) : PortSt := (m.prt[n]?).getD {}

/-- Change what a port keeps. -/
def Chip.modPort (m : Chip) (n : Nat) (f : PortSt → PortSt) : Chip := { m with prt := setAt m.prt n (f (m.port n)) }

/-- `TCSTAT.STATE`. -/
def Chip.tc (m : Chip) (n : Nat) : Nat := m.pf PD_TCSTAT_STATE n

/-- Enter a state. From the first state in which it acts the port commands its balls, until it releases them in STANDBY
(R293, R511). -/
def Chip.tcGo (m : Chip) (n st : Nat) : Chip :=
  (m.pp PD_TCSTAT_STATE st n).modPort n (fun p =>
    { p with driven := if st = tcStandby then false else st != tcDisabled || p.driven, tryDone := false, time := { p.time with st := m.tim.tick } })

/-- Enter a step of a power sequence. -/
def Chip.seqGo (m : Chip) (n : Nat) (q : PSeq) : Chip :=
  m.modPort n (fun p => { p with seq := q, time := { p.time with seq := m.tim.tick } })

/-- Is the port sourcing by role? -/
def Chip.isSource (m : Chip) (n : Nat) : Bool := m.pf PD_TCSTAT_PROLE n == 1

/-- Is a port sink-only: by PWRROLE, or with VSKV = 0 (R281)? -/
def Chip.sinkOnly (m : Chip) (n : Nat) : Bool := m.pf PD_CFG_PWRROLE n == 0 || m.pf PD_STG_VSKV n == 0

/-- Is a port source-only? -/
def Chip.sourceOnly (m : Chip) (n : Nat) : Bool := m.pf PD_CFG_PWRROLE n == 1 && !m.sinkOnly n

/-- Is a port dual-role? -/
def Chip.dualRole (m : Chip) (n : Nat) : Bool := !m.sinkOnly n && !m.sourceOnly n

/-- Is the port attached? -/
def Chip.attached (m : Chip) (n : Nat) : Bool := m.tc n == tcAttSnk || m.tc n == tcAttSrc

/-- Does an explicit contract hold? -/
def Chip.explicit (m : Chip) (n : Nat) : Bool := decide (2 ≤ m.pf PD_TCSTAT_CONTR n)

/-- VBSn in 10 mV as last converted. -/
def Chip.vbus (m : Chip) (n : Nat) : Nat := m.pf PD_MON_VBUS n

/-- The port's current in mA, positive out of the port. -/
def Chip.portMa (m : Chip) (n : Nat) : Int := sx 16 (m.pf PD_MON_I n)

/-! ### Timers (R260–R290) -/

/-- Cycles since the last Get_Status, or since the contract (R290). -/
def Chip.pollCycles (m : Chip) (n : Nat) : Nat :=
  (m.stamp.cycle + 2 ^ 32 - (m.port n).time.statusCyc) % 2 ^ 32

/-- Time of a transition before CP2 gives up, in ticks: |Δv| / PSLEW + 20 ms (R275). DEDUCED, unsafe (log 115). -/
def Chip.transTicks (m : Chip) (n : Nat) : Nat :=
  let p := m.port n
  let dv := (p.vTarget - p.time.vFrom) + (p.time.vFrom - p.vTarget)
  dv * msTicks / (100 * clampN 10 300 (m.pf PD_RAMP_PSLEW n)) + 20 * msTicks

/-- Has a timer of the port run out? The instants are those the port keeps; a time with limits takes its earliest.
DEDUCED, unsafe (log 115). -/
def Chip.portDue (m : Chip) (n : Nat) (k : PortTimer) : Bool :=
  let p := m.port n
  let t := p.time
  let past := fun (since ticks : Nat) => decide (ticks ≤ m.ticksSince since)
  let gone := fun (since : Option Nat) (ticks : Nat) => since.any (past · ticks)
  let snk := m.tc n == tcAttwSnk || m.tc n == tcTrywSnk
  match k with
  | .ccDebounce => past t.st (150 * msTicks) && past t.cc (150 * msTicks)
  | .pdDebounce => past t.st (15 * msTicks) && past (if snk then t.rp else t.rd) (15 * msTicks)
  | .tryDebounce =>
    if m.tc n = tcTrySnk then past t.tried (15 * msTicks) && past t.rp (15 * msTicks)
    else past t.st (15 * msTicks) && past t.rd (15 * msTicks)
  | .tryEnd => past t.st (100 * msTicks)
  | .drp => past t.st (37500 * usTicks)
  | .recovery => past t.st (30 * msTicks)
  | .disconnect => past t.st (10 * msTicks) && past t.rd (10 * msTicks)
  | .insertion => past t.st (Nat.min 20 (m.pf PD_GTIM_PINSDLY n) * 10 * msTicks)
  | .prime => past t.prime (5 * msTicks)
  | .policy => past t.decide (clampN 1 12 (m.pf PD_POL_POLTO n) * msTicks)
  | .response => past t.await (27 * msTicks)
  | .discover => p.discTries == 0 || past t.disc (45 * msTicks)
  | .keepalive => past t.keep (375 * msTicks)
  | .keepLost => past t.keep (900 * msTicks)
  | .transition => past t.seq (30 * msTicks)
  | .settle => gone t.band (100 * usTicks)
  | .transLate => past t.seq (m.transTicks n)
  | .hardStep =>
    match p.seq with
    | .hard true 0 => past t.seq (30 * msTicks)
    | .hard true _ => gone t.safe (800 * msTicks)
    | _ => true
  | .swapStep =>
    match p.seq with
    | .prSrc 0 => past t.seq (30 * msTicks)
    | .frsSrc 0 => past t.seq (85 * usTicks)
    | _ => true
  | .swapLate =>
    match p.seq with
    | .prSrc 1 => past t.swap (650 * msTicks)
    | .prSrc _ => past t.seq (480 * msTicks)
    | _ => past t.swap (920 * msTicks)
  | .capsDelay => past t.caps (20 * msTicks)
  | .frsAccept => past t.seq (30 * msTicks)
  | .frsSwap => past t.swap (15 * msTicks)
  | .presence => past t.st (150 * msTicks) && past t.rp (150 * msTicks) && past t.rd (150 * msTicks)
  | .retry => past t.st (Nat.max 1 (m.pf PD_GTIM_GRETRYT n) * 10 * msTicks)
  | .calm => past t.contract (10000 * msTicks)
  | .poll => decide (m.pf PD_POL_SPOLL n ≤ m.pollCycles n)
  | .pollMiss => past t.status (27 * msTicks)
  | .carrier => past t.bist (45 * msTicks)

/-! ### Stage (R281) -/

/-- Source target or contract voltage in effect, in mV, the higher; an implicit contract is at 5 V (R283). DEDUCED,
unsafe (log 115). -/
def Chip.guardMv (m : Chip) (n : Nat) : Nat :=
  Nat.max (m.port n).vTarget (if m.pf PD_TCSTAT_CONTR n = 1 then 5000 else m.pf PD_CONTRACT_VOP n * 20)

/-- Keep the voltage in effect, which is about to change, for the 10 ms of R283. -/
def Chip.vNote (m : Chip) (n : Nat) : Chip :=
  m.modPort n (fun p => { p with time := { p.time with
    vHist := (m.guardMv n, m.tim.tick) :: p.time.vHist.filter (fun h => decide (m.ticksSince h.2 < 10 * msTicks)) } })

/-- Highest source target or contract voltage of the last 10 ms, in mV (R283). -/
def Chip.vmax (m : Chip) (n : Nat) : Nat :=
  (m.port n).time.vHist.foldl (fun v h => if m.ticksSince h.2 < 10 * msTicks then Nat.max v h.1 else v) (m.guardMv n)

/-- VSETn code for a voltage in mV. -/
def Chip.vsetV (m : Chip) (n mv : Nat) : Nat := Nat.min 4095 (divNear (mv * m.pf PD_STG_VSKV n : Nat) 65536).toNat

/-- VSETn code for a current in mA. -/
def Chip.vsetI (m : Chip) (n ma : Nat) : Nat := Nat.min 4095 (divNear (ma * m.pf PD_STG_VSKI n : Nat) 65536).toNat

/-- The stage sources a voltage at once. -/
def Chip.stageSource (m : Chip) (n mv : Nat) : Chip :=
  let m := m.vNote n
  let m := ((m.pp PD_DRIVE_PSEN 1 n).pp PD_DRIVE_PSDIR 1 n).pp PD_DRIVE_VSET (m.vsetV n mv) n
  (m.pp PD_ALLOW_ISINK 0 n).modPort n (fun p => { p with vTarget := mv, vNow := mv * 2000, iTarget := 0, iNow := 0 })

/-- The stage sinks at a command of 0. -/
def Chip.stageSink (m : Chip) (n : Nat) : Chip :=
  let m := m.vNote n
  let m := ((m.pp PD_DRIVE_PSEN 1 n).pp PD_DRIVE_PSDIR 0 n).pp PD_DRIVE_VSET 0 n
  (m.pp PD_ALLOW_ISINK 0 n).modPort n (fun p => { p with vTarget := 0, vNow := 0, iTarget := 0, iNow := 0 })

/-- The stage is off. -/
def Chip.stageOff (m : Chip) (n : Nat) : Chip :=
  let m := m.vNote n
  let m := (m.pp PD_DRIVE_PSEN 0 n).pp PD_DRIVE_VSET 0 n
  (m.pp PD_ALLOW_ISINK 0 n).modPort n (fun p => { p with vTarget := 0, vNow := 0, iTarget := 0, iNow := 0 })

/-- VCONN on, unless its fault holds (R263). -/
def Chip.vconnSet (m : Chip) (n : Nat) (on : Bool) : Chip :=
  (m.pp PD_TCSTAT_VCSRC (b2n on) n).modPort n (fun p => { p with vconnOn := on && m.pf PD_GSTAT_VCFLT n == 0 })

/-! ### Depot, contexts, leaving an attachment -/

/-- The Depot's entry of a port (R388). -/
def Chip.portDepot (m : Chip) (n tag : Nat) : Chip :=
  m.depot 17 tag (n + m.pf PD_TCSTAT_PROLE n * 8 + m.pf PD_CONTRACT_POS n * 16 + m.pf PD_MON_VBUS n * 2 ^ 16
    + m.pf PD_MON_I n * 2 ^ 32)

/-- EPR Mode ends: PEVT bit EPR and code 0x400C (R274). DESIGN CHOICE, safe (log 3); DEDUCED, unsafe (log 49). -/
def Chip.eprLeave (m : Chip) (n : Nat) : Chip :=
  if !(m.port n).eprMode then m
  else
    let w := m.freeWord
    let m := w.2.modPort n (fun p => { p with eprMode := false })
    let m := if m.pf PD_TCSTAT_CONTR n = 3 then m.pp PD_TCSTAT_CONTR 2 n else m
    (m.emit 0x400C [n, 2, w.1.toNat % 2 ^ 24]).pevt n 13

/-- The contract is cleared, and EPR Mode with it. -/
def Chip.contractClear (m : Chip) (n contr : Nat) : Chip :=
  let m := (m.eprLeave n).vNote n
  let m := ((m.wr (PD_CONTRACT_POS.addr (pdPg n)) 0).pp PD_TCSTAT_CONTR contr n).pp PD_TCSTAT_PPSCL 0 n
  m.modPort n (fun p => { p with cand := {}, pps := false })

/-- Does a message of E2 wait to be sent, or go out? -/
def PortSt.busy (p : PortSt) : Bool := p.tx.any (·.byE2)

/-- E2's message that has not reached the line is discarded (R268). -/
def Chip.txDiscard (m : Chip) (n : Nat) : Chip :=
  if (m.port n).busy then
    ((m.pp PD_TXSTAT_RESULT 4 n).modPort n (fun p =>
      { p with tx := p.tx.filter (fun t => !t.byE2), answer := none })).pevt n 4
  else m

/-- Every sequence and exchange ends. -/
def Chip.portQuiet (m : Chip) (n : Nat) : Chip :=
  let m := ((m.txDiscard n).pp PD_TCSTAT_TRANS 0 n).pp PD_TCSTAT_SWAP 0 n
  m.modPort n (fun p => { p with
    seq := .none, tx := [], decide := none, answer := none, await := none, capsDue := false, statusWait := false,
    own := false, bist := 0 })

/-- The port's context becomes FREE (R289). -/
def Chip.portCtxFree (m : Chip) (n : Nat) : Chip :=
  let c := (m.port n).ctx
  if c = 0 then m else (m.ctxFree c).modPort n (fun p => { p with ctx := 0 })

/-- The port stops powering: stage, VCONN, contract and every exchange end. -/
def Chip.portDrop (m : Chip) (n : Nat) : Chip :=
  ((((m.stageOff n).vconnSet n false).portQuiet n).contractClear n 0).modPort n (fun p =>
    { p with insWait := false, dmgRun := 0, discDue := false })

/-- The port leaves its attachment: the partner's data go. The context stays but on a detach (R289). -/
def Chip.portLeave (m : Chip) (n : Nat) : Chip :=
  let m := (m.portDrop n).pp PD_GSTAT_GSTATE 0 n
  let m := (m.pp PD_TCSTAT_PROLE 0 n).pp PD_TCSTAT_RPADV 0 n
  let m := ((m.wr (PD_CABLE_VALID.addr (pdPg n)) 0).wr (PD_CABLEVDO_VDO.addr (pdPg n)) 0).wr (PD_PARTNER_SRCCAP.addr (pdPg n)) 0
  m.modPort n (fun p => { p with partner := [], offered := [], hardResets := 0, ocp := false, ovp := false, temp := 0 })

/-- Is a termination Rp? -/
def isRp (t : Term) : Bool :=
  match t with
  | .rp _ => true
  | _ => false

/-- Is a termination Rd? -/
def isRd (t : Term) : Bool := t == .rd

/-- Is Rp seen on exactly one CC? -/
def PortSt.oneRp (p : PortSt) : Bool := isRp p.cc1 != isRp p.cc2

/-- Is Rd seen on exactly one CC, with Ra or nothing on the other? -/
def PortSt.oneRd (p : PortSt) : Bool :=
  (isRd p.cc1 && (p.cc2 == .ra || p.cc2 == .none)) || (isRd p.cc2 && (p.cc1 == .ra || p.cc1 == .none))

/-- Is any Rd seen? -/
def PortSt.someRd (p : PortSt) : Bool := isRd p.cc1 || isRd p.cc2

/-- Is any Rp seen? -/
def PortSt.someRp (p : PortSt) : Bool := isRp p.cc1 || isRp p.cc2

/-! ### Unattached states (R259, R262) -/

/-- What the terminations now seen make of the state at once. -/
def Chip.ccCheck (m : Chip) (n : Nat) : Chip :=
  let p := m.port n
  if m.tc n = tcUnattSnk ∧ p.oneRp = true then m.tcGo n tcAttwSnk
  else if m.tc n = tcUnattSrc then
    if p.oneRd then m.tcGo n tcAttwSrc
    else
      let acc := if isRd p.cc1 && isRd p.cc2 then 1 else if p.cc1 == .ra && p.cc2 == .ra then 2 else 0
      if acc ≠ 0 ∧ p.accTold = false then (m.emit 0x4009 [n, acc]).modPort n (fun p => { p with accTold := true }) else m
  else if m.tc n = tcTrySnk ∧ p.tryDone = true ∧ p.someRp = false then m.tcGo n tcTrywSrc
  else m

/-- The unattached state a port enters (R259). -/
def Chip.unattState (m : Chip) (n : Nat) : Nat := if m.sourceOnly n then tcUnattSrc else tcUnattSnk

/-- Enter an unattached state; a termination already there leads on at once (R259). -/
def Chip.portUnatt (m : Chip) (n : Nat) : Chip := (m.tcGo n (m.unattState n)).ccCheck n

/-- Enter ERRREC: the attachment is over; the context stays until the partner has gone (R289). DEDUCED, unsafe (log
116). -/
def Chip.portErrRec (m : Chip) (n : Nat) : Chip := (m.portLeave n).tcGo n tcErrRec

/-- The partner has gone: what the guard holds against it is cleared, and RECEN (R285, R289, R292). DEDUCED, unsafe
(log 116). -/
def Chip.portGone (m : Chip) (n : Nat) : Chip :=
  let m := ((m.pp PD_GSTAT_LATCHED 0 n).pp PD_GSTAT_RCNT 0 n).pp PD_GSTAT_VCFLT 0 n
  (((m.pp PD_ALLOW_RECEN 0 n).portLeave n).portCtxFree n).portUnatt n

/-- A detach (R259, R261, R285, R289). -/
def Chip.portDetach (m : Chip) (n : Nat) : Chip :=
  ((((m.emit 0x4002 [n, m.tc n]).irq (pdPg n) 5).portDepot n 2).portGone n).pevt n 1

/-- The port's context on attach (R289): one that outlasted RETRY, LATCHED or ERRREC is kept. DEDUCED, unsafe (log
116). -/
def Chip.portCtxTake (m : Chip) (n : Nat) : Chip :=
  let c := m.pf PD_CTXCFG_CTX n
  let own := m.ctx (m.port n).ctx
  if (m.port n).ctx ≠ 0 ∧ own.state ≠ 0 ∧ own.bus = 3 ∧ own.addr = n then m
  else if c = 0 then m
  else if (m.ctx c).state = 0 then
    (m.ctxAlloc c 3 n (m.pf PD_CTXCFG_CLASS n)).modPort n (fun p => { p with ctx := c })
  else (m.pp PD_GSTAT_CTXERR 1 n).emit 0x4014 [n, c]

/-- Which CC carries what the attach is by: 1 for CC2. -/
def portPol (p : PortSt) (f : Term → Bool) : Nat := if f p.cc1 then 0 else 1

/-- The partner's Rp advertisement. -/
def termAdv (t : Term) : Nat :=
  match t with
  | .rp a => a.val
  | _ => 0

/-- What both kinds of attach do (R259, R289). -/
def Chip.portAttach (m : Chip) (n : Nat) (src : Bool) : Chip :=
  let p := m.port n
  let pol := portPol p (if src then isRd else isRp)
  let adv := if src then 0 else Nat.max (termAdv p.cc1) (termAdv p.cc2)
  let m := (m.tcGo n (if src then tcAttSrc else tcAttSnk)).pp PD_TCSTAT_POL pol n
  let m := ((m.pp PD_TCSTAT_PROLE (b2n src) n).pp PD_TCSTAT_DROLE (b2n src) n).pp PD_TCSTAT_RPADV adv n
  let m := ((m.pp PD_TCSTAT_CONTR 1 n).pp PD_GSTAT_CTXERR 0 n).portQuiet n
  let m := m.modPort n (fun p => { p with
    attachDrole := src, idSop := 0, idSopP := 0, rxId := none, rxIdP := none, hardResets := 0 })
  let m := if src then m.pp PD_ALLOW_RECEN 0 n else m
  let m := ((m.emit 0x4001 [n, b2n src, pol, adv]).irq (pdPg n) 4).portDepot n 1
  (m.portCtxTake n).pevt n 0

/-- Entry into ATT_SRC: the insertion delay starts (R264). -/
def Chip.attachSrc (m : Chip) (n : Nat) : Chip := (m.portAttach n true).modPort n (fun p => { p with insWait := true })

/-- Entry into ATT_SNK: the guard closes with a sink command of 0 (R264). -/
def Chip.attachSnk (m : Chip) (n : Nat) : Chip := ((m.portAttach n false).stageSink n).pp PD_GSTAT_GSTATE 2 n

/-! ### Type-C transitions (R259–R262) -/

/-- The terminations a port sees, with the ticks at which they, Rp and Rd last changed. -/
def PortSt.terms (p : PortSt) (c1 c2 : Term) (tick : Nat) : PortSt :=
  let q := { p with cc1 := c1, cc2 := c2, accTold := p.accTold && !(c1 == Term.none && c2 == Term.none) }
  let t := p.time
  { q with time := { t with
      cc := if p.cc1 = c1 ∧ p.cc2 = c2 then t.cc else tick
      rp := if p.someRp = q.someRp then t.rp else tick
      rd := if p.someRd = q.someRd then t.rd else tick } }

/-- With nothing on CC the partner of a port that is not attached has gone, and its context with it; in the guard's
states loss of presence has its own row (R285, R289). DEDUCED, unsafe (log 116). -/
def Chip.partnerGone (m : Chip) (n : Nat) : Chip :=
  if !m.attached n && decide (m.tc n < tcRetry) && !(m.port n).someRp && !(m.port n).someRd then m.portCtxFree n else m

/-- New terminations. -/
def Chip.ccChange (m : Chip) (n : Nat) (c1 c2 : Term) : Chip :=
  let m := m.modPort n (fun p => p.terms c1 c2 m.tim.tick)
  let m := if m.tc n = tcAttSnk then m.pp PD_TCSTAT_RPADV (Nat.max (termAdv c1) (termAdv c2)) n else m
  (m.partnerGone n).ccCheck n

/-- tCCDebounce ends. -/
def Chip.ccDebounced (m : Chip) (n : Nat) : Chip :=
  let p := m.port n
  let dual := m.dualRole n
  if m.tc n = tcAttwSnk then
    if p.oneRp = true ∧ 400 ≤ m.vbus n then
      if dual = true ∧ m.pf PD_CFG_TRY n = 1 then m.tcGo n tcTrySrc else m.attachSnk n
    else m
  else if m.tc n = tcAttwSrc then
    if p.oneRd = true ∧ m.vbus n < 80 then
      if dual = true ∧ m.pf PD_CFG_TRY n = 2 then m.tcGo n tcTrySnk else m.attachSrc n
    else m
  else if m.tc n = tcTrywSnk ∧ p.oneRp = true ∧ 400 ≤ m.vbus n then m.attachSnk n
  else m

/-- tPDDebounce ends. -/
def Chip.pdDebounced (m : Chip) (n : Nat) : Chip :=
  let p := m.port n
  if (m.tc n = tcAttwSnk ∨ m.tc n = tcTrywSnk) ∧ p.someRp = false then m.portUnatt n
  else if m.tc n = tcAttwSrc ∧ p.someRd = false then m.portUnatt n
  else m

/-- tTryCCDebounce ends. -/
def Chip.tryDebounced (m : Chip) (n : Nat) : Chip :=
  let p := m.port n
  if (m.tc n = tcTrySrc ∨ m.tc n = tcTrywSrc) ∧ p.someRd = true then m.attachSrc n
  else if m.tc n = tcTrySnk ∧ p.tryDone = true ∧ p.someRp = true then m.attachSnk n
  else m

/-- tDRPTry ends. -/
def Chip.tryEnded (m : Chip) (n : Nat) : Chip :=
  let p := m.port n
  if m.tc n = tcTrySrc ∧ p.someRd = false then m.tcGo n tcTrywSnk
  else if m.tc n = tcTrySnk then
    if p.someRp then
      m.modPort n (fun p => { p with tryDone := true, time := { p.time with tried := m.tim.tick } })
    else m.tcGo n tcTrywSrc
  else if m.tc n = tcTrywSrc ∧ p.someRd = false then m.portUnatt n
  else m

/-- A phase of tDRP ends: a port whose role has the other phase changes to it (R259). -/
def Chip.drpToggle (m : Chip) (n : Nat) : Chip :=
  if m.tc n = tcUnattSnk ∧ m.sinkOnly n = false then (m.tcGo n tcUnattSrc).ccCheck n
  else if m.tc n = tcUnattSrc ∧ m.sourceOnly n = false then (m.tcGo n tcUnattSnk).ccCheck n
  else m

/-- Is VBSn below 75 % of the contract voltage? -/
def Chip.lowVbus (m : Chip) (n : Nat) : Bool := decide (m.vbus n * 100 < 150 * m.pf PD_CONTRACT_VOP n)

/-- Does a sink's VBUS stand below its disconnect level, of an explicit contract above 9 V for 1 ms (R261)? -/
def Chip.sinkGone (m : Chip) (n : Nat) : Bool :=
  decide (m.vbus n < 367) ||
  (m.explicit n && decide (450 < m.pf PD_CONTRACT_VOP n) && m.lowVbus n &&
    (m.port n).time.low.any (fun t => decide (msTicks ≤ m.ticksSince t)))

/-- A write of CTRL.ENABLE (R259); while the role is standby the port enters STANDBY (R508). -/
def Chip.portEnable (m : Chip) (n : Nat) (en : Bool) : Chip :=
  if m.enabled (pdPg n) = en then m
  else
    let m := m.putB (pdPg n) HDR_CTRL_ENABLE en
    if !en then ((m.portLeave n).portCtxFree n).tcGo n tcDisabled
    else if !m.leads then m.tcGo n tcStandby
    else if m.pf PD_GSTAT_DAMAGED n = 1 then m.tcGo n tcDamaged
    else if m.pf PD_GSTAT_LATCHED n = 1 then m.tcGo n tcLatched
    else m.portUnatt n

/-- The controller role has changed (R293). -/
def Chip.portRole (m : Chip) : Chip :=
  (List.range (nPorts m.die.part)).foldl (fun m n =>
    if m.tc n = tcDisabled then m
    else if !m.leads then ((m.portLeave n).portCtxFree n).tcGo n tcStandby
    else if m.tc n ≠ tcStandby then m
    else if m.pf PD_GSTAT_DAMAGED n = 1 then m.tcGo n tcDamaged
    else m.portErrRec n) m

/-! ### Capabilities (R270, R271) -/

/-- The words of a table. -/
def Chip.table (m : Chip) (n : Nat) (f : Fld) : List Nat := (List.range 11).map (fun k => m.get (pdPg n) f k)

/-- Index of the word that makes a table invalid. -/
def Chip.tableBad (m : Chip) (n : Nat) (f : Fld) : Option Nat :=
  Machine.tableBad (m.table n f) (m.pf PD_STGLIM_VMAX n) (m.pf PD_STGLIM_IMAX n)

/-- Is the cable good for 5 A? -/
def Chip.cable5A (m : Chip) (n : Nat) : Bool := m.pf PD_CABLE_VALID n == 1 && m.pf PD_CABLE_IMAX n == 2

/-- A source object as CP2 sends it: SPR currents within what the cable carries (R271, R273). -/
def Chip.srcWord (m : Chip) (n k : Nat) : Nat :=
  let w := m.get (pdPg n) PD_SRCPDO_PDO k
  let w := if m.cable5A n || decide (7 ≤ k) then w else pdoClamp w
  if k = 0 ∧ m.pf PD_CFG_EPREN n = 0 then setBits w 23 1 0 else w

/-- The objects of a capabilities message: the SPR part, and in EPR the SPR part filled to seven places and the EPR
part. DEDUCED, unsafe (log 48). -/
def Chip.capWords (m : Chip) (n : Nat) (f : Fld) (epr : Bool) : List Nat :=
  let word := fun k => if f = PD_SRCPDO_PDO then m.srcWord n k else m.get (pdPg n) f k
  let spr := tablePart ((List.range 7).map word)
  if epr then
    spr ++ List.replicate (7 - spr.length) 0 ++ tablePart ((List.range 4).map (fun k => word (7 + k)))
  else spr

/-- Queue a message of CP2. -/
def Chip.cpSend (m : Chip) (n : Nat) (k : PdKind) (ws : List Nat := []) : Chip :=
  m.modPort n (fun p => { p with tx := p.tx ++ [{ kind := k, words := ws }] })

/-- Queue an answer of CP2 with words the spec gives, then `k` words it does not: free values. DESIGN CHOICE, safe
(log 3). -/
def Chip.cpSendOpen (m : Chip) (n : Nat) (kind : PdKind) : (k : Nat) → List Nat → Chip
  | 0, ws => m.cpSend n kind ws
  | k + 1, ws => let w := m.freeWord; w.2.cpSendOpen n kind k (ws ++ [w.1.toNat])

/-- A capabilities message would come from an invalid table (R270). -/
def Chip.capsRefused (m : Chip) (n word : Nat) : Chip := (m.irq (pdPg n) 9).emit 0x4013 [n, word]

/-- CP2 sends capabilities from a table. -/
def Chip.capsSend (m : Chip) (n : Nat) (k : PdKind) (f : Fld) (epr : Bool) : Chip :=
  match m.tableBad n f with
  | some w => m.capsRefused n w
  | none => m.cpSend n k (m.capWords n f epr)

/-- A source with AUTOCAP = 1 offers its SPR capabilities. -/
def Chip.offer (m : Chip) (n : Nat) : Chip :=
  if m.pf PD_CFG_AUTOCAP n = 1 then m.capsSend n .sourceCaps PD_SRCPDO_PDO false else m

/-- CP2 answers Not_Supported (R266). -/
def Chip.notSupported (m : Chip) (n : Nat) : Chip := m.cpSend n .notSupported

/-! ### Contracts, swaps, Hard Reset -/

/-- An explicit contract is reached (R275). -/
def Chip.contractMade (m : Chip) (n : Nat) : Chip :=
  let c := (m.port n).cand
  let m := m.vNote n
  let m := ((m.pp PD_CONTRACT_POS c.pos n).pp PD_CONTRACT_IOP c.iop n).pp PD_CONTRACT_VOP c.vop n
  let old := m.explicit n
  let m := (m.pp PD_TCSTAT_CONTR (if (m.port n).eprMode then 3 else 2) n).pp PD_TCSTAT_TRANS 0 n
  let since := if old then (m.port n).time.contract else m.tim.tick
  let m := m.modPort n (fun p => { p with
    seq := .none, pps := c.pps, hardResets := 0, discDue := m.pf PD_TCSTAT_VCSRC n == 1, discTries := 0
    time := { p.time with contract := since, statusCyc := if old then p.time.statusCyc else m.stamp.cycle } })
  let m := ((m.emit 0x4003 [n, c.pos, c.vop, c.iop]).irq (pdPg n) 10).portDepot n 3
  m.pevt n 5

/-- A role swap is complete: the port is a sink (R276, R279). -/
def Chip.nowSink (m : Chip) (n : Nat) : Chip :=
  let m := ((m.stageSink n).contractClear n 1).pp PD_TCSTAT_PROLE 0 n
  let m := m.pp PD_TCSTAT_RPADV (Nat.max (termAdv (m.port n).cc1) (termAdv (m.port n).cc2)) n
  ((m.pp PD_TCSTAT_SWAP 0 n).tcGo n tcAttSnk).modPort n (fun p => { p with seq := .none, capsDue := false })

/-- A role swap is complete: the port is a source (R276, R278, R292). -/
def Chip.nowSource (m : Chip) (n : Nat) : Chip :=
  let m := (((m.contractClear n 1).pp PD_TCSTAT_PROLE 1 n).pp PD_TCSTAT_RPADV 0 n).pp PD_ALLOW_RECEN 0 n
  ((m.pp PD_TCSTAT_SWAP 0 n).tcGo n tcAttSrc).modPort n (fun p => { p with
    seq := .none, capsDue := m.pf PD_CFG_AUTOCAP n == 1, time := { p.time with caps := m.tim.tick } })

/-- The record and the Depot entry of a completed swap. -/
def Chip.swapTold (m : Chip) (n code par : Nat) : Chip := (m.emit code [n, par]).portDepot n 5

/-- An EPR_Mode Exit from either side: a source offers its SPR capabilities (R274). DEDUCED, unsafe (log 49). -/
def Chip.eprExit (m : Chip) (n : Nat) : Chip :=
  if !(m.port n).eprMode then m
  else
    let m := m.eprLeave n
    if m.isSource n then m.capsSend n .sourceCaps PD_SRCPDO_PDO false else m

/-- EPR Mode begins (R273, R274). DESIGN CHOICE, safe (log 3). -/
def Chip.eprEnter (m : Chip) (n : Nat) : Chip :=
  let w := m.freeWord
  let m := w.2.modPort n (fun p => { p with eprMode := true, seq := .none, time := { p.time with keep := m.tim.tick } })
  let m := if m.pf PD_TCSTAT_CONTR n = 2 then m.pp PD_TCSTAT_CONTR 3 n else m
  (m.emit 0x400C [n, 1, w.1.toNat % 2 ^ 24]).pevt n 13

/-- A Hard Reset, sent (1) or received (2) (R280). DESIGN CHOICE, safe (log 3). -/
def Chip.hardReset (m : Chip) (n how : Nat) : Chip :=
  let w := m.freeWord
  let m := (w.2.emit 0x4004 [n, how, w.1.toNat % 2 ^ 24]).count (pdPg n) PD_CNT_HRST
  let m := (m.portDepot n 6).pp PD_ALLOW_RECEN 0 n
  let m :=
    if m.attached n then
      let k := (m.port n).hardResets + 1
      if 2 ≤ k then (m.portErrRec n).emit 0x4011 [n]
      else
        let m := (m.portQuiet n).contractClear n 0
        let m := m.pp PD_TCSTAT_DROLE (b2n (m.port n).attachDrole) n
        let m := (m.modPort n (fun p => { p with
          hardResets := k, idSop := 0, idSopP := 0, rxId := none, rxIdP := none })).seqGo n (.hard (m.isSource n) 0)
        if m.isSource n then m else m.stageSink n
    else m
  m.pevt n 8

/-- A timed step of the Hard Reset sequence (R280). -/
def Chip.hardStep (m : Chip) (n : Nat) : Chip :=
  match (m.port n).seq with
  | .hard true 0 =>
    ((m.stageOff n).modPort n (fun p => { p with vconnOn := false, time := { p.time with safe := none } })).seqGo n
      (.hard true 1)
  | .hard true _ =>
    if m.vbus n < 80 then
      let m := ((m.stageSource n 5000).vconnSet n (m.pf PD_TCSTAT_VCSRC n == 1)).pp PD_TCSTAT_CONTR 1 n
      (m.modPort n (fun p => { p with seq := .none })).offer n
    else m
  | .hard false _ =>
    if 400 ≤ m.vbus n then (m.pp PD_TCSTAT_CONTR 1 n).modPort n (fun p => { p with seq := .none }) else m
  | _ => m

/-- The cable check of EPR Mode (R272, R273). -/
def Chip.eprCheck (m : Chip) (n : Nat) : Chip :=
  if m.pf PD_CABLE_VALID n == 1 && m.pf PD_CABLE_EPR n == 1 && m.pf PD_CABLE_VMAX n == 3 && m.pf PD_CABLE_IMAX n == 2 then
    ((m.eprEnter n).cpSend n .eprMode [emWord emOk 0]).capsSend n .eprSourceCaps PD_SRCPDO_PDO true
  else
    let m := (m.cpSend n .eprMode [emWord emFail 1]).modPort n (fun p => { p with seq := .none })
    m.emit 0x400D [n, up (m.pf PD_CABLEVDO_VDO n)]

/-- EPR entry once the port is VCONN source: the check, or cable discovery first (R273). -/
def Chip.eprCable (m : Chip) (n : Nat) : Chip :=
  if m.pf PD_CABLE_VALID n = 1 then m.eprCheck n
  else (m.modPort n (fun p => { p with discDue := true, discTries := 0 })).seqGo n (.epr 2)

/-- E2 has released the DECIDE of an EPR_Mode Enter (R273). -/
def Chip.eprRelease (m : Chip) (n : Nat) : Chip :=
  match (m.port n).decide with
  | some x =>
    if x.kind == .eprMode && m.isSource n && m.pf PD_CFG_EPREN n == 1 then
      let m := (m.modPort n (fun p => { p with decide := none })).cpSend n .eprMode [emWord emAck 0]
      if m.pf PD_TCSTAT_VCSRC n = 1 then m.eprCable n
      else (m.cpSend n .vconnSwap).seqGo n (.epr 1)
    else m
  | none => m

/-- The partner accepted what the port asked, or the port accepted what the partner asked: the sequence starts
(R275, R276). -/
def Chip.sequenceStart (m : Chip) (n : Nat) (k : PdKind) : Chip :=
  match k with
  | .prSwap => ((m.pp PD_TCSTAT_SWAP 1 n).modPort n (fun p => { p with
      iTarget := 0, time := { p.time with swap := m.tim.tick } })).seqGo n (if m.isSource n then .prSrc 0 else .prSnk 0)
  | .drSwap => m.pp PD_TCSTAT_DROLE (1 - m.pf PD_TCSTAT_DROLE n) n
  | .vconnSwap =>
    if (m.port n).seq = .epr 1 then ((m.vconnSet n true).cpSend n .psRdy).eprCable n
    else ((m.pp PD_TCSTAT_SWAP 1 n).modPort n (fun p => { p with
      iTarget := 0, time := { p.time with swap := m.tim.tick } })).seqGo n
        (if m.pf PD_TCSTAT_VCSRC n = 1 then .vconnOff 0 else .vconnOn)
  | _ => m

/-- An Accept arrives. -/
def Chip.acceptSeen (m : Chip) (n : Nat) : Chip :=
  let a := (m.port n).await
  let m := m.modPort n (fun p => { p with await := none })
  match a with
  | some .request | some .eprRequest =>
    ((m.pp PD_TCSTAT_TRANS 1 n).modPort n (fun p => { p with iTarget := 0 })).seqGo n .snkWait
  | some .frSwap => if (m.port n).seq = .frsSnk 1 then m.seqGo n (.frsSnk 2) else m
  | some k => m.sequenceStart n k
  | none => m

/-- A Reject, Wait or Not_Supported arrives, or no answer in time: a refused VCONN_Swap fails the EPR entry (R273). -/
def Chip.rejectSeen (m : Chip) (n : Nat) : Chip :=
  let a := (m.port n).await
  let m := m.modPort n (fun p => { p with await := none })
  if a = some .vconnSwap ∧ (m.port n).seq = .epr 1 then
    (m.cpSend n .eprMode [emWord emFail 2]).modPort n (fun p => { p with seq := .none })
  else m

/-- A PS_RDY arrives. -/
def Chip.psRdySeen (m : Chip) (n : Nat) : Chip :=
  match (m.port n).seq with
  | .snkWait => m.contractMade n
  | .prSrc 2 => (m.nowSink n).swapTold n 0x400A 0
  | .prSnk 0 =>
    ((m.stageSource n 5000).modPort n (fun p => { p with time := { p.time with vFrom := 0, band := none } })).seqGo n
      (.prSnk 1)
  | .vconnOff 0 => m.seqGo n (.vconnOff 1)
  | .frsSrc 3 => (m.nowSink n).swapTold n 0x400B 2
  | .frsSnk 2 => ((m.cpSend n .psRdy).nowSource n).swapTold n 0x400B 1
  | _ => m

/-! ### Received messages (R265–R269) -/

/-- A message enters the receive queue, with PEVT RX; with four queued it is lost (R296). -/
def Chip.rxPush (m : Chip) (n : Nat) (x : PdRx) : Chip :=
  if 4 ≤ (m.port n).rx.length then m.pp PD_RXCTL_OVF 1 n
  else
    let start := ((m.port n).rx.map (fun y => (y.words.length + 1) / 2)).sum
    let m := m.unitWrite 0x15 (fun k => k / 64 == n && decide (start ≤ k % 64))
    (m.modPort n (fun p => { p with rx := p.rx ++ [x] })).pevt n 2

/-- A message that has an effect and goes to E2. With four queued it got no GoodCRC (R296), so it has neither. -/
def Chip.rxTake (m : Chip) (n : Nat) (x : PdRx) (f : Chip → Chip) : Chip :=
  if 4 ≤ (m.port n).rx.length then m.pp PD_RXCTL_OVF 1 n else (f m).rxPush n x

/-- A message marked policy: E2 decides (R267). DEDUCED, unsafe (log 48). -/
def Chip.policy (m : Chip) (n : Nat) (x : PdRx) : Chip :=
  if 4 ≤ (m.port n).rx.length then m.pp PD_RXCTL_OVF 1 n
  else ((m.rxPush n x).modPort n (fun p => { p with
    decide := some x, time := { p.time with decide := m.tim.tick } })).pevt n 3

/-- An automatic reply, or E2's with AUTOCAP = 0. DEDUCED, unsafe (log 48). -/
def Chip.autoOr (m : Chip) (n : Nat) (x : PdRx) (f : Chip → Chip) : Chip :=
  if m.pf PD_CFG_AUTOCAP n = 1 then f m else m.rxPush n x

/-- The port's HEALTH (R290). -/
def Chip.portHealth (m : Chip) (n : Nat) (frs : Bool) : Nat :=
  let p := m.port n
  b2n (m.explicit n) + 2 * b2n p.eprMode + 4 * b2n p.ocp + 8 * b2n (m.isSource n && m.pf PD_GSTAT_GSTATE n == 2)
    + 16 * b2n (m.pf PD_GSTAT_GSTATE n == 3) + 32 * b2n p.ovp + 64 * b2n (decide (0 < p.iNow)) + 128 * b2n frs
    + 256 * (p.temp % 256)

/-- Fast Role Swap current of the table that applies to the initial sink (R277). -/
def Chip.frsCurrent (m : Chip) (n : Nat) : Nat :=
  if m.isSource n then m.pf PD_PARTNER_FRSCUR n else pdoFrs (m.get (pdPg n) PD_SNKPDO_PDO 0)

/-- Is Fast Role Swap armed (R277)? -/
def Chip.frsArmed (m : Chip) (n : Nat) : Bool :=
  m.pf PD_CFG_FRSEN n == 1 && m.attached n && m.pf PD_TCSTAT_CONTR n == 2 && !(m.port n).eprMode &&
  (m.port n).seq == .none && m.frsCurrent n != 0

/-- Good telemetry of a port's context (R290). -/
def Chip.portGood (m : Chip) (n : Nat) : Chip :=
  let c := (m.port n).ctx
  if c = 0 then m
  else (m.setCtx c { m.ctx c with health := m.portHealth n (m.frsArmed n) }).ctxGood c

/-- A Status message: temperature and fault events. -/
def Chip.statusSeen (m : Chip) (n : Nat) (x : PdRx) : Chip :=
  let w := x.word 0
  m.rxTake n x (fun m => (m.modPort n (fun p => { p with
    temp := w % 256, ocp := bit w 25 || bit w 26, ovp := bit w 27, statusWait := false })).portGood n)

/-- VID and PID, as extended capabilities begin. PRESUMED, unsafe (log 47). -/
def Chip.identWord (m : Chip) : Nat := m.get 0x18 PDC_IDENT_VID + m.get 0x18 PDC_IDENT_PID * 65536

/-- The answer words of Discover Identity on SOP (R269). -/
def Chip.identity (m : Chip) : List Nat :=
  [0xFF00A041, m.get 0x18 PDC_IDENT_VID, 0, m.get 0x18 PDC_IDENT_PID * 65536]

/-- The answer words of Discover SVIDs (R269). -/
def Chip.svids (m : Chip) : List Nat :=
  [0xFF00A042, if m.get 0x18 PDC_VDM_VDMEN = 1 then m.get 0x18 PDC_VDM_SVID * 65536 else 0]

/-- A vendor-defined message (R266, R269). -/
def Chip.vdmSeen (m : Chip) (n : Nat) (x : PdRx) : Chip :=
  let h := x.word 0
  let svid := h / 65536
  let cmd := h % 32
  let kind := bitsOf h 6 2
  let own := m.get 0x18 PDC_VDM_VDMEN == 1 && decide (svid = m.get 0x18 PDC_VDM_SVID) && decide (16 ≤ cmd)
  if !bit h 15 then m.notSupported n
  else if own then
    if kind = 0 then m.policy n x
    else
      m.rxTake n x (fun m =>
        if kind = 1 ∧ cmd = 16 then (m.modPort n (fun p => { p with temp := x.word 4 % 256 })).portGood n else m)
  else if kind = 0 then
    if svid = 0xFF00 ∧ cmd = 1 then m.autoOr n x (fun m => m.cpSend n .vdm m.identity)
    else if svid = 0xFF00 ∧ cmd = 2 then m.autoOr n x (fun m => m.cpSend n .vdm m.svids)
    else m.cpSend n .vdm [setBits h 6 2 2]
  else m.rxPush n x

/-- Does a Request name no object of the last capabilities message, or ask for more current than that offered (R271,
R296)? DEDUCED, unsafe (log 48). -/
def Chip.askTooMuch (m : Chip) (n rdo : Nat) : Bool :=
  let pos := bitsOf rdo 28 4
  match if pos = 0 then none else (m.port n).offered[pos - 1]? with
  | none => true
  | some w =>
    let w := if m.cable5A n || decide (7 < pos) then w else pdoClamp w
    match pdoMa10 w with
    | some i => decide (i < (pdCandidate rdo w).iop)
    | none => false

/-- The partner's capabilities. -/
def Chip.partnerCaps (m : Chip) (n : Nat) (x : PdRx) : Chip :=
  let w := x.word 0
  let m := ((m.pp PD_PARTNER_SRCCAP 1 n).pp PD_PARTNER_DRP (bitsOf w 29 1) n).pp PD_PARTNER_EPRCAP (bitsOf w 23 1) n
  m.modPort n (fun p => { p with partner := x.words })

/-- An EPR_Mode message (R266, R273, R274). Every one is marked policy and sets DECIDE; only Enter waits for an
answer, for which R267 gives the automatic one. DEDUCED, unsafe (log 117). -/
def Chip.eprModeSeen (m : Chip) (n : Nat) (x : PdRx) : Chip :=
  let act := x.word 0 / 2 ^ 24
  if act = emEnter then m.policy n x
  else
    m.rxTake n x (fun m =>
      let m := m.pevt n 3
      if act = emExit then m.eprExit n
      else
        let m := m.modPort n (fun p => { p with await := none })
        if act = emOk ∧ m.isSource n = false then m.eprEnter n else m)

/-- PPS_Status: VBUS in 20 mV, the current in 50 mA, and the operating-mode flag (R275). PRESUMED, unsafe (log 47). -/
def Chip.ppsWord (m : Chip) (n : Nat) : Nat :=
  m.vbus n / 2 % 2 ^ 16 + Nat.min 255 ((m.portMa n).natAbs / 50) * 2 ^ 16 + m.pf PD_TCSTAT_PPSCL n * 2 ^ 27

/-- BIST: Carrier Mode and Test Data; other modes are ignored (R265, R266). PRESUMED, unsafe (log 47). -/
def Chip.bistSeen (m : Chip) (n : Nat) (x : PdRx) : Chip :=
  let mode := x.word 0 / 2 ^ 28
  if mode = 5 ∨ mode = 8 then
    m.modPort n (fun p => { p with bist := if mode = 5 then 1 else 2, time := { p.time with bist := m.tim.tick } })
  else m

/-- Soft_Reset: Accept, MessageIDs from 0, then as after attach (R266). -/
def Chip.softReset (m : Chip) (n : Nat) : Chip :=
  let m := (m.portQuiet n).modPort n (fun p => { p with idSop := 0, idSopP := 0, rxId := none, rxIdP := none })
  let m := m.cpSend n .accept
  if m.isSource n then m.offer n else m

/-- A message on SOP (R266). DEDUCED, unsafe (log 48). -/
def Chip.sopSeen (m : Chip) (n : Nat) (x : PdRx) : Chip :=
  if x.unchunked then m.notSupported n
  else
    match x.kind with
    | .sourceCaps | .eprSourceCaps =>
      if 4 ≤ (m.port n).rx.length then m.pp PD_RXCTL_OVF 1 n else (m.partnerCaps n x).policy n x
    | .request | .eprRequest => if m.isSource n && m.askTooMuch n (x.word 0) then m.cpSend n .reject else m.policy n x
    | .accept => m.rxTake n x (fun m => m.acceptSeen n)
    | .reject | .wait | .notSupported => m.rxTake n x (fun m => m.rejectSeen n)
    | .psRdy => m.rxTake n x (fun m => m.psRdySeen n)
    | .getSourceCap => m.autoOr n x (fun m => m.capsSend n .sourceCaps PD_SRCPDO_PDO false)
    | .getSinkCap => m.autoOr n x (fun m => m.capsSend n .sinkCaps PD_SNKPDO_PDO false)
    | .eprGetSourceCap => m.autoOr n x (fun m => m.capsSend n .eprSourceCaps PD_SRCPDO_PDO (m.port n).eprMode)
    | .eprGetSinkCap => m.autoOr n x (fun m => m.capsSend n .eprSinkCaps PD_SNKPDO_PDO true)
    | .getSourceCapExt => m.autoOr n x (fun m => m.cpSendOpen n .sourceCapsExt 6 [m.identWord])
    | .getSinkCapExt => m.autoOr n x (fun m => m.cpSendOpen n .sinkCapsExt 5 [m.identWord])
    | .getSourceInfo => m.autoOr n x (fun m => m.cpSendOpen n .sourceInfo 1 [])
    | .getRevision => m.autoOr n x (fun m => m.cpSend n .revision [0x31000000])
    | .getPpsStatus => m.autoOr n x (fun m => m.cpSend n .ppsStatus [m.ppsWord n])
    | .getStatus => m.autoOr n x (fun m => m.cpSendOpen n .status 2 [])
    | .prSwap => if (m.port n).eprMode then m.cpSend n .reject else m.policy n x
    | .drSwap | .vconnSwap => m.policy n x
    | .eprMode => m.eprModeSeen n x
    | .frSwap =>
      if (m.port n).seq = .frsSrc 1 then
        (m.cpSend n .accept).seqGo n (.frsSrc 2)
      else m.notSupported n
    | .softReset => m.softReset n
    | .status => m.statusSeen n x
    | .ppsStatus | .alert | .sourceInfo | .revision => m.rxPush n x
    | .eprKeepAlive =>
      (m.modPort n (fun p => { p with time := { p.time with keep := m.tim.tick } })).cpSend n .eprKeepAliveAck [4]
    | .bist => m.bistSeen n x
    | .eprKeepAliveAck | .ping => m
    | .vdm => m.vdmSeen n x
    | .gotoMin | .dataReset | .enterUsb | .getCountryCodes | .getCountryInfo | .getBatteryCap | .getBatteryStatus
    | .getManufacturerInfo | .securityRequest | .firmwareRequest => m.notSupported n
    | .sinkCaps | .eprSinkCaps => m.rxTake n x (fun m =>
      (m.pp PD_PARTNER_FRSCUR (pdoFrs (x.word 0)) n).pp PD_PARTNER_DRP (bitsOf (x.word 0) 29 1) n)
    | .sourceCapsExt | .sinkCapsExt | .other => m.rxPush n x

/-- The response timer: an exchange whose answer has not come ends (R265). FR_Swap has a time of its own (R278).
PRESUMED, unsafe (log 118). -/
def Chip.noAnswer (m : Chip) (n : Nat) : Chip :=
  let a := (m.port n).await
  if a.isSome && a != some .frSwap && m.portDue n .response then m.rejectSeen n else m

/-- What a port's timers end without a row: an exchange without its answer, and BIST Carrier Mode (R265). PRESUMED,
unsafe (log 118). -/
def Chip.portTimers (m : Chip) (n : Nat) : Chip :=
  let m := m.noAnswer n
  if (m.port n).bist = 1 ∧ m.portDue n .carrier = true then m.modPort n (fun p => { p with bist := 0 }) else m

/-- Is a message the Request that answers the port's own capabilities, so that the exchange goes on (R268)? -/
def PortSt.answersCaps (p : PortSt) (k : PdKind) : Bool :=
  (k == .request || k == .eprRequest) && (p.await == some .sourceCaps || p.await == some .eprSourceCaps)

/-- A message ends the wait for an answer that it gives, or begins an exchange of the partner's. -/
def Chip.exchangeSeen (m : Chip) (n : Nat) (x : PdRx) : Chip :=
  m.modPort n (fun p =>
    { p with
      await := p.await.filter (fun a => !pdEnds a x.kind (x.word 0))
      own := p.own && (p.answersCaps x.kind || !pdAsks x.kind (x.word 0)) })

/-- A message accepted from the line. In BIST Test Data it is acknowledged and has no other effect (R265). -/
def Chip.lineSeen (m : Chip) (n : Nat) (x : PdRx) : Chip :=
  if (m.port n).bist ≠ 0 then m
  else if x.sopp then m.rxPush n x
  else (m.exchangeSeen n x).sopSeen n x

/-- A message that CP2 received. It discards an outgoing message of E2 (R268). One with the MessageID last received is
a repeat (R265), a message that finds four queued gets no GoodCRC and has no effect (R296). DEDUCED, unsafe (log 48);
DESIGN CHOICE, safe (log 50). -/
def Chip.pdSeen (m : Chip) (n : Nat) (x : PdMsg) : Chip :=
  let y : PdRx := { sopp := x.sopp, hdr := x.hdr.toNat, ext := x.ext.toNat, words := pdWords x.data, stamp := m.stamp }
  let id := bitsOf y.hdr 9 3
  if !m.attached n then m
  else
    let m := (m.txDiscard n).portTimers n
    let last := if y.sopp then (m.port n).rxIdP else (m.port n).rxId
    if last = some id ∧ y.kind ≠ .softReset then m
    else
      let t := (m.pp PD_RXCTL_OVF 0 n).lineSeen n y
      if t.pf PD_RXCTL_OVF n = 1 then m.pp PD_RXCTL_OVF 1 n
      else (t.pp PD_RXCTL_OVF (m.pf PD_RXCTL_OVF n) n).modPort n (fun p =>
        if y.sopp then { p with rxIdP := some id } else { p with rxId := some id })

/-! ### Messages sent -/

/-- The automatic answer at a policy timeout (R267). -/
def Chip.autoReply (m : Chip) (n : Nat) (x : PdRx) : Chip :=
  match x.kind with
  | .eprMode => m.cpSend n .eprMode [emWord emFail 0]
  | .sourceCaps | .eprSourceCaps =>
    let i := bitsOf (m.get (pdPg n) PD_SNKPDO_PDO 0) 0 10
    m.cpSend n .request [2 ^ 28 + i * 1024 + i]
  | .vdm => m.cpSend n .vdm [setBits (x.word 0) 6 2 2]
  | _ => m.cpSend n .wait

/-- POLTO has passed without an answer. -/
def Chip.policyTimeout (m : Chip) (n : Nat) : Chip :=
  match (m.port n).decide with
  | some x =>
    let m := (m.modPort n (fun p => { p with decide := none })).autoReply n x
    ((m.count (pdPg n) PD_CNT_POLTO).emit 0x400E [n, pdType x.hdr]).pevt n 9
  | none => m

/-- The message in TXBUF. -/
def Chip.txMessage (m : Chip) (n : Nat) (sopp : Bool) : PdTx :=
  let hdr := m.pf PD_TXBUF_HDR n
  let len := if bit hdr 15 then (bitsOf (m.pf PD_TXBUF_EXTHDR n) 0 9 + 3) / 4 else pdCount hdr
  let ws := (List.range (Nat.min 65 len)).map (fun k => m.get (pdPg n) PD_TXBUF_DATA (k + 1))
  { kind := pdKind hdr ((ws[0]?).getD 0), words := ws, sopp := sopp, byE2 := true, hdr := hdr
    ext := m.pf PD_TXBUF_EXTHDR n }

/-- Collision avoidance (R265): in an explicit contract a sink begins no exchange while its partner's Rp is 1.5 A. A
Request that answers capabilities, Soft_Reset and FR_Swap begin none. PRESUMED, unsafe (log 133). -/
def Chip.txHeld (m : Chip) (n : Nat) (t : PdTx) : Bool :=
  let answers := (t.kind == .request || t.kind == .eprRequest) && (!t.byE2 || (m.port n).answer.isSome)
  !t.sopp && !m.isSource n && m.explicit n && m.pf PD_TCSTAT_RPADV n == 2 &&
  pdAsks t.kind ((t.words[0]?).getD 0) && !answers && t.kind != .softReset && t.kind != .frSwap

/-- The message that goes out next: the first that is not held. -/
def Chip.txNext (m : Chip) (n : Nat) : Option PdTx := (m.port n).tx.find? (fun t => !m.txHeld n t)

/-- The message a port puts on the line next, as its partner sees it: E2's payload or CP2's, under the header that CP2
completes (R258, R296). -/
def Chip.txLine (m : Chip) (n : Nat) : Option PdRx :=
  (m.txNext n).map (fun t =>
    { sopp := t.sopp, ext := t.extHdr, words := t.words, stamp := m.stamp
      hdr := t.header (m.pf PD_TCSTAT_PROLE n) (m.pf PD_TCSTAT_DROLE n) (if t.sopp then (m.port n).idSopP else (m.port n).idSop) })

/-- A message of the last three rows of R266, which the controller never sends. -/
def PdTx.never (t : PdTx) : Bool :=
  match t.kind with
  | .ping | .gotoMin | .dataReset | .enterUsb | .getCountryCodes | .getCountryInfo | .getBatteryCap
  | .getBatteryStatus | .getManufacturerInfo | .securityRequest | .firmwareRequest => true
  | .vdm => !bit ((t.words[0]?).getD 0) 15
  | _ => bit t.hdr 15 && !bit t.ext 15

/-- May the port send a message in its present role and contract state (R266, R268, R274, R276)? To the cable only the
VCONN source speaks. PRESUMED, unsafe (log 47). -/
def Chip.txPermitted (m : Chip) (n : Nat) (t : PdTx) : Bool :=
  let src := m.isSource n
  let p := m.port n
  m.attached n && m.pf PD_GSTAT_GSTATE n == 2 && !t.never &&
  if t.sopp then m.pf PD_TCSTAT_VCSRC n == 1 else
  match t.kind with
  | .sourceCaps => src && !p.eprMode
  | .eprSourceCaps => src && p.eprMode
  | .request => !src && !p.eprMode
  | .eprRequest => !src && p.eprMode
  | .prSwap => m.explicit n && !p.eprMode
  | .drSwap | .vconnSwap => m.explicit n
  | .eprMode =>
    if (t.words[0]?).getD 0 / 2 ^ 24 = emEnter then
      !src && m.pf PD_CFG_EPREN n == 1 && m.pf PD_PARTNER_EPRCAP n == 1 && m.explicit n
    else p.eprMode || p.decide.isSome
  | .accept | .reject | .wait => p.decide.isSome
  | _ => true

/-- A GO is refused (R268, R270, R279). -/
def Chip.txRefuse (m : Chip) (n reason : Nat) : Chip := (m.pp PD_TXSTAT_RESULT 5 n).pp PD_TXSTAT_REASON reason n

/-- The table a capabilities message of E2 would come from, if it is invalid. -/
def Chip.txTableBad (m : Chip) (n : Nat) (t : PdTx) : Option Nat :=
  match t.kind with
  | .sourceCaps | .eprSourceCaps => m.tableBad n PD_SRCPDO_PDO
  | .sinkCaps | .eprSinkCaps => m.tableBad n PD_SNKPDO_PDO
  | _ => none

/-- TXCTL.GO (R268). A GO while a decision is pending starts E2's answer. -/
def Chip.txGo (m : Chip) (n : Nat) (sopp : Bool) : Chip :=
  let t := m.txMessage n sopp
  if (m.port n).busy then m.txRefuse n 5
  else if tcRetry ≤ m.tc n ∧ m.tc n ≤ tcDamaged then m.txRefuse n 1
  else if !m.txPermitted n t then m.txRefuse n 2
  else
    match m.txTableBad n t with
    | some w => (m.txRefuse n 3).capsRefused n w
    | none =>
      let m := (m.pp PD_TXSTAT_RESULT 1 n).pp PD_TXSTAT_REASON 0 n
      m.modPort n (fun p => { p with
        tx := p.tx ++ [t], answer := if p.decide.isSome then p.decide else p.answer, decide := none })

/-- A question has reached the partner: the exchange is the port's own and waits for its answer (R265, R268). -/
def Chip.askDone (m : Chip) (n : Nat) (k : PdKind) (w : Nat) : Chip :=
  if pdAsks k w then
    m.modPort n (fun p => { p with await := some k, own := true, time := { p.time with await := m.tim.tick } })
  else m

/-- Get_Status has gone out: Status is waited for (R290). -/
def Chip.statusAsked (m : Chip) (n : Nat) : Chip :=
  m.modPort n (fun p => { p with
    statusWait := true, time := { p.time with status := m.tim.tick, statusCyc := m.stamp.cycle } })

/-- A message has reached the partner: what it starts. -/
def Chip.txDone (m : Chip) (n : Nat) (t : PdTx) : Chip :=
  let w := (t.words[0]?).getD 0
  let m := m.modPort n (fun p =>
    if t.sopp then { p with idSopP := (p.idSopP + 1) % 8 } else { p with idSop := (p.idSop + 1) % 8 })
  let m := if t.sopp then m else m.askDone n t.kind w
  match t.kind with
  | .accept =>
    match (m.port n).answer with
    | some x =>
      let m := m.modPort n (fun p => { p with answer := none })
      match x.kind with
      | .request | .eprRequest =>
        let r := x.word 0
        let c := pdCandidate r (((m.port n).offered[bitsOf r 28 4 - 1]?).getD 0)
        ((m.pp PD_TCSTAT_TRANS 1 n).modPort n (fun p => { p with cand := c })).seqGo n .srcWait
      | k => m.sequenceStart n k
    | none => m
  | .reject | .wait => m.modPort n (fun p => { p with answer := none })
  | .request | .eprRequest =>
    let c := pdCandidate w (((m.port n).partner[bitsOf w 28 4 - 1]?).getD 0)
    m.modPort n (fun p => { p with cand := c, answer := none })
  | .eprMode =>
    let m := m.modPort n (fun p => { p with answer := none })
    if w / 2 ^ 24 = emExit then m.eprExit n else m
  | .getStatus => m.statusAsked n
  | .notSupported => (m.count (pdPg n) PD_CNT_NOTSUP).modPort n (fun p =>
      { p with answer := if t.byE2 then none else p.answer })
  | .sourceCaps | .eprSourceCaps => m.modPort n (fun p =>
      { p with offered := t.words, answer := if t.byE2 then none else p.answer })
  | .eprKeepAlive => m.modPort n (fun p => { p with time := { p.time with keep := m.tim.tick } })
  | _ => if t.byE2 then m.modPort n (fun p => { p with answer := none }) else m

/-- A transmission ends (R265, R296). DESIGN CHOICE, safe (log 50). -/
def Chip.txEnd (m : Chip) (n : Nat) (e : TxEnd) : Chip :=
  match m.txNext n with
  | none => m
  | some t =>
    let m := m.modPort n (fun p => { p with tx := p.tx.erase t })
    let m := if e = .sent then m.txDone n t
      else
        let m := if t.kind = .getStatus then m.statusAsked n else m
        if t.byE2 then m.modPort n (fun p => { p with answer := none }) else m
    if t.byE2 then
      (m.pp PD_TXSTAT_RESULT (match e with | .sent => 2 | .noGoodCrc => 3 | .discarded => 4) n).pevt n 4
    else m

/-- Does an answer stand out that can still come (R265)? -/
def Chip.awaiting (m : Chip) (n : Nat) : Bool :=
  let p := m.port n
  p.statusWait || (p.await.isSome && (p.await == some .frSwap || !m.portDue n .response))

/-- Is no exchange pending? -/
def Chip.portIdle (m : Chip) (n : Nat) : Bool :=
  let p := m.port n
  p.seq == .none && p.tx.isEmpty && p.decide.isNone && p.answer.isNone && !m.awaiting n

/-- Is an exchange pending that the port began: a question queued, or its own exchange in progress (R268)? -/
def Chip.ownPending (m : Chip) (n : Nat) : Bool :=
  let p := m.port n
  p.tx.any (fun t => !t.sopp && pdAsks t.kind ((t.words[0]?).getD 0)) || (p.own && !m.portIdle n)

/-- The Rp the port advertises as source: 3.0 A and 1.5 A by its own exchanges in an explicit contract (R268), RPSEL
otherwise. -/
def Chip.rpOut (m : Chip) (n : Nat) : Nat :=
  if m.explicit n then (if m.ownPending n then 1 else 2) else Nat.min 2 (m.pf PD_CFG_RPSEL n)

/-! ### Steps of sequences (R275–R279) -/

/-- A timed or awaited step of a swap. -/
def Chip.swapStep (m : Chip) (n : Nat) : Chip :=
  let p := m.port n
  match p.seq with
  | .prSrc 0 => (m.stageOff n).seqGo n (.prSrc 1)
  | .prSrc 1 => if m.vbus n < 80 then ((m.stageSink n).cpSend n .psRdy).seqGo n (.prSrc 2) else m
  | .vconnOff 1 => ((m.vconnSet n false).pp PD_TCSTAT_SWAP 0 n).modPort n (fun p => { p with seq := .none })
  | .vconnOn =>
    (((m.vconnSet n true).pp PD_TCSTAT_SWAP 0 n).cpSend n .psRdy).modPort n (fun p => { p with
      seq := .none, discDue := m.explicit n, discTries := 0 })
  | .frsSrc 0 => (m.stageSink n).seqGo n (.frsSrc 1)
  | .frsSrc 2 => if m.vbus n < 550 then (m.cpSend n .psRdy).seqGo n (.frsSrc 3) else m
  | _ => m

/-- A swap misses its time (R276): Hard Reset. -/
def Chip.swapTimeout (m : Chip) (n : Nat) : Chip :=
  match (m.port n).seq with
  | .prSrc (_ + 1) | .prSnk 0 => m.hardReset n 1
  | _ => m

/-- Is VBSn within 5 % of the stage's target? DEDUCED, unsafe (log 49). -/
def Chip.settled (m : Chip) (n : Nat) : Bool :=
  let t : Int := (m.port n).vTarget
  decide (absI ((m.vbus n : Int) * 10 - t) * 20 ≤ t.toNat)

/-- VSET begins to move (R275). -/
def Chip.transStart (m : Chip) (n : Nat) : Chip :=
  if (m.port n).seq = .srcWait then
    ((m.vNote n).modPort n (fun p => { p with
      vTarget := p.cand.vop * 20, time := { p.time with vFrom := p.vNow / 2000, band := none } })).seqGo n .srcMove
  else m

/-- VBUS has settled. -/
def Chip.transSettled (m : Chip) (n : Nat) : Chip :=
  if !m.settled n then m
  else
    let at_ := fun (m : Chip) => (m.pp PD_DRIVE_VSET (m.vsetV n (m.port n).vTarget) n).modPort n (fun p =>
      { p with vNow := p.vTarget * 2000 })
    match (m.port n).seq with
    | .srcMove => ((at_ m).cpSend n .psRdy).contractMade n
    | .prSnk 1 => (((at_ m).cpSend n .psRdy).nowSource n).swapTold n 0x400A 1
    | _ => m

/-- TXCTL.FRS (R279). -/
def Chip.txFrs (m : Chip) (n : Nat) : Chip :=
  if m.frsArmed n && m.isSource n then
    ((m.pp PD_TCSTAT_SWAP 1 n).modPort n (fun p => { p with time := { p.time with swap := m.tim.tick } })).seqGo n (.frsSrc 0)
  else m.txRefuse n 6

/-- TXCTL.HRST (R268, R280): no protection state refuses it; an unattached port has no line to send it on. -/
def Chip.txHrst (m : Chip) (n : Nat) : Chip :=
  if m.attached n || (decide (tcRetry ≤ m.tc n) && decide (m.tc n ≤ tcDamaged)) then m.hardReset n 1 else m.txRefuse n 2

/-! ### Guard (R283–R287) -/

/-- Is a guard cause armed (R283)? -/
def Chip.guardArmed (m : Chip) (n cause : Nat) : Bool :=
  m.attached n && m.pf PD_GSTAT_GSTATE n == 2 &&
  (cause == 1 || (cause == 2 && m.pf PD_DRIVE_PSDIR n == 1) || (cause == 3 && m.pf PD_TCSTAT_SWAP n == 0))

/-- Does what a guard comparator sees, VBSn in mV and the current in mA, meet the test of its cause (R283)? Cause 3 has
stood for its 5 µs. -/
def Chip.guardTest (m : Chip) (n cause mv : Nat) (ma : Int) : Bool :=
  match cause with
  | 1 => decide (Nat.min (11 * m.vmax n + 5000) 550000 ≤ mv * 10)
  | 2 => decide ((Nat.min (m.pf PD_GCFG_OCLVL n * 10) (Nat.max (m.pf PD_CONTRACT_IOP n * 15) 1000) : Nat) ≤ ma)
  | _ => decide ((m.pf PD_GCFG_RCLVL n * 10 : Nat) ≤ if m.isSource n then -ma else ma)

/-- A guard trip (R283, R284). -/
def Chip.guardTrip (m : Chip) (n cause mv : Nat) (ma : Int) : Chip :=
  if !(m.guardArmed n cause && m.guardTest n cause mv ma) then m
  else
    let m := ((m.emit 0x4005 [n, cause, up (m.vbus n), sp (m.portMa n)]).portDepot n 4).count (pdPg n) PD_CNT_GTRIPS
    let m := (((m.portDrop n).pp PD_GSTAT_GSTATE 3 n).pp PD_GSTAT_CAUSE cause n).irq (pdPg n) 6
    let top := m.pf PD_GTIM_GRETRYN n
    let m :=
      if top ≠ 15 ∧ m.pf PD_GSTAT_RCNT n = top then
        (((m.tcGo n tcLatched).pp PD_GSTAT_LATCHED 1 n).irq (pdPg n) 7).emit 0x4007 [n, cause]
      else m.tcGo n tcRetry
    m.pevt n 6

/-- Presence is lost in RETRY or LATCHED: no Rp or Rd is seen (R283, R285). -/
def Chip.presenceLost (m : Chip) (n : Nat) : Chip :=
  if (m.tc n = tcRetry ∨ m.tc n = tcLatched) ∧ (m.port n).someRp = false ∧ (m.port n).someRd = false then
    m.portGone n
  else m

/-- RETRY ends (R284). -/
def Chip.guardRetry (m : Chip) (n : Nat) : Chip :=
  if m.tc n = tcRetry then
    let m := m.pp PD_GSTAT_RCNT (satInc 4 (m.pf PD_GSTAT_RCNT n)) n
    (m.portErrRec n).emit 0x4006 [n, m.pf PD_GSTAT_RCNT n]
  else m

/-- A cleared port enters ERRREC, unless another protection latch, ENABLE = 0 or the standby role still holds it
(R259, R287, R293). DEDUCED, unsafe (log 116). -/
def Chip.portCleared (m : Chip) (n : Nat) : Chip :=
  let st := m.tc n
  if st = tcDisabled ∨ st = tcStandby ∨ (st = tcDamaged ∧ m.pf PD_GSTAT_DAMAGED n = 1)
      ∨ (st = tcLatched ∧ m.pf PD_GSTAT_LATCHED n = 1) then m
  else m.portErrRec n

/-- A host clear of LATCHED and RCNT (R287). -/
def Chip.portClearLatch (m : Chip) (r n : Nat) : Chip :=
  if m.pf PD_GSTAT_LATCHED n = 0 then m.pp PD_GSTAT_RCNT 0 n
  else
    (((m.pp PD_GSTAT_LATCHED 0 n).pp PD_GSTAT_RCNT 0 n).emit 0x400F [n, 1, r]).portCleared n

/-- A host clear of DAMAGED (R287). -/
def Chip.portClearDamage (m : Chip) (r n : Nat) : Chip :=
  if m.pf PD_GSTAT_DAMAGED n = 0 then m
  else
    ((m.pp PD_GSTAT_DAMAGED 0 n).emit 0x400F [n, 2, r]).portCleared n

/-- A host clear of VCFLT (R263, R287): VCONN may be on again after the next attach. -/
def Chip.portClearVconn (m : Chip) (r n : Nat) : Chip :=
  if m.pf PD_GSTAT_VCFLT n = 0 then m
  else
    ((m.pp PD_GSTAT_VCFLT 0 n).emit 0x400F [n, 3, r]).portCleared n

/-- A write of CLR (R287). -/
def Chip.pdClrWrite (m : Chip) (r n v : Nat) : Chip :=
  if bitsOf v 0 3 = 0 then m
  else if !isHost r then m.irq (pdPg n) 9
  else if !m.unlockedFor r (pdPg n) then m.lockErr
  else
    let m := if bit v 0 then m.portClearLatch r n else m
    let m := if bit v 1 then m.portClearDamage r n else m
    if bit v 2 then m.portClearVconn r n else m

/-- A write of PEVT: the bits written 1 clear; a released DECIDE lets an EPR entry run (R273). -/
def Chip.pevtWrite (m : Chip) (r n v : Nat) : Chip :=
  let m := m.plainWrite r (PD_PEVT_EV.addr (pdPg n)) v
  if bit v 3 then m.eprRelease n else m

/-- A write of PEVTEN: the port's event line follows (R296). -/
def Chip.pevtenWrite (m : Chip) (r n v : Nat) : Chip :=
  let was := m.pf PD_PEVT_EV n &&& m.pf PD_PEVTEN_EV n
  let m := m.plainWrite r (PD_PEVTEN_EV.addr (pdPg n)) v
  if was = 0 ∧ m.pf PD_PEVT_EV n &&& m.pf PD_PEVTEN_EV n ≠ 0 then m.raise (80 + n) else m

/-- A write of TXCTL. -/
def Chip.txctlWrite (m : Chip) (n v : Nat) : Chip :=
  let m := if bit v 27 then m.txHrst n else m
  let m := if bit v 26 then m.txFrs n else m
  if bit v 31 then m.txGo n (bit v 28) else m

/-- RXCTL.POP. -/
def Chip.rxPop (m : Chip) (n : Nat) : Chip := m.modPort n (fun p => { p with rx := p.rx.drop 1 })

/-! ### Conversions and waypoints -/

/-- The tick from which a condition has held without a break. -/
def sinceTick (on : Bool) (tick : Nat) (since : Option Nat) : Option Nat :=
  if on then some (since.getD tick) else none

/-- After a conversion of VBSn: since when VBUS is below 75 % of the contract, below vSafe0V, and settled. -/
def Chip.vbusSince (m : Chip) (n : Nat) : Chip :=
  m.modPort n (fun p => { p with time := { p.time with
    low := sinceTick (m.lowVbus n) m.tim.tick p.time.low
    safe := sinceTick (decide (m.vbus n < 80)) m.tim.tick p.time.safe
    band := sinceTick (m.settled n) m.tim.tick p.time.band } })

/-- A conversion of VBSn (`cur` false) or IMONn (R275, R281, R286). DEDUCED, unsafe (log 49). -/
def Chip.portSar (m : Chip) (n : Nat) (cur : Bool) (code : Nat) : Chip :=
  if cur then
    let i := divFloor (((code : Int) - m.pf PD_IMCAL_IMOFS n) * sx 16 (m.pf PD_IMCAL_IMGAIN n)) 256
    let m := m.pp PD_MON_I (ux 16 (satS 16 i)) n
    if (m.port n).pps && m.isSource n && m.explicit n then
      let v := m.pf PD_DRIVE_VSET n
      let top := m.vsetV n (m.port n).vTarget
      let lim : Int := m.pf PD_CONTRACT_IOP n * 10
      if lim < i then (m.pp PD_DRIVE_VSET (v - 1) n).pp PD_TCSTAT_PPSCL 1 n
      else if v < top ∧ i < lim ∧ (m.port n).vNow = (m.port n).vTarget * 2000 then m.pp PD_DRIVE_VSET (v + 1) n
      else if v = top then m.pp PD_TCSTAT_PPSCL 0 n else m
    else m
  else
    let m := (m.pp PD_MON_VBUS (code * 6000 / 4096) n).vbusSince n
    if m.pf PD_GSTAT_GSTATE n = 1 then
      let on := decide (m.pf PD_GTIM_DMGLVL n * 10 ≤ m.vbus n) && decide (4 * msTicks ≤ m.ticksSince (m.port n).time.prime)
      m.modPort n (fun p => { p with dmgRun := runIf on p.dmgRun })
    else m

/-- The port's allowance from its context (R291). -/
def Chip.portAllow (m : Chip) (n : Nat) : Chip :=
  let c := (m.port n).ctx
  let share := if c = 0 then 0xFFFF else (m.ctx c).capshare
  let radv := b2n (c != 0 && (m.ctx c).radv)
  let changed := share != m.pf PD_ALLOW_CAPSHARE n || radv != m.pf PD_ALLOW_RADV n
  let m := (m.pp PD_ALLOW_CAPSHARE share n).pp PD_ALLOW_RADV radv n
  let exc := share != 0xFFFF && decide ((share : Int) * 16 < m.wpPower (16 + n))
  let m := m.pp PD_ALLOW_ALWEXC (b2n exc) n
  let m := if c = 0 then m else m.setCtx c { m.ctx c with health := m.portHealth n (m.frsArmed n) }
  if changed then m.pevt n 10 else m

/-- The target of a recovering sink in mA (R282); VSKI = 0 holds the command at 0 (R281). -/
def Chip.sinkTarget (m : Chip) (n : Nat) : Nat :=
  if m.isSource n || !m.explicit n || m.pf PD_ALLOW_RECEN n == 0 || m.pf PD_STG_VSKI n == 0 || (m.port n).seq != .none || !m.attached n then 0
  else
    let op := m.pf PD_CONTRACT_IOP n * 10
    let share := m.pf PD_ALLOW_CAPSHARE n
    if share = 0xFFFF ∨ m.vbus n = 0 then op else Nat.min op (share * 100000 / m.vbus n)

/-- Move a value toward a target by at most a step. DEDUCED, unsafe (log 49). -/
def toward (now target step : Nat) : Nat :=
  if now < target then Nat.min target (now + step) else Nat.max target (now - step)

/-- The stage's commands move for a time (R275, R282). DEDUCED, unsafe (log 49). -/
def Chip.portSlew (m : Chip) (n ticks : Nat) : Chip :=
  let p := m.port n
  if m.pf PD_DRIVE_PSEN n = 0 then m
  else if m.pf PD_DRIVE_PSDIR n = 0 then
    let i := if m.pf PD_STG_VSKI n = 0 then 0
      else toward p.iNow (p.iTarget * 200) (Nat.max 1 (m.pf PD_RAMP_ISLEW n) * ticks)
    let m := m.modPort n (fun p => { p with iNow := i })
    (m.pp PD_ALLOW_ISINK (i / 2000) n).pp PD_DRIVE_VSET (m.vsetI n (i / 200)) n
  else if p.vNow = p.vTarget * 2000 then m
  else
    let v := toward p.vNow (p.vTarget * 2000) (clampN 10 300 (m.pf PD_RAMP_PSLEW n) * ticks)
    (m.modPort n (fun p => { p with vNow := v })).pp PD_DRIVE_VSET (m.vsetV n (v / 2000)) n

/-- The ports at a waypoint boundary, after stage 5 (R282, R291): the stages have moved for the waypoint closed, then
allowances and targets are taken. -/
def Chip.portStage (m : Chip) (ticks : Nat) : Chip :=
  (List.range (nPorts m.die.part)).foldl (fun m n =>
    let m := ((m.portTimers n).portSlew n ticks).portAllow n
    m.modPort n (fun p => { p with iTarget := m.sinkTarget n })) m

/-! ### Balls of a port (R26, R256, R259, R293) -/

/-- Level of a ball that the chip may drive; a command ball has its DAC code. -/
inductive BallLevel where
  | highZ | low | high
  | code (v : Nat)
deriving DecidableEq, Repr

/-- What a port puts on a CC ball. -/
inductive PortCc where
  | none | rd | vconn | low | carrier
  | rp (adv : Nat)
deriving DecidableEq, Repr

/-- Does the port drive its balls: present, a master out of boot and standby, and once it has commanded them (R9, R26,
R293, R510, R511)? -/
def Chip.portDrives (m : Chip) (n : Nat) : Bool :=
  decide (n < nPorts m.die.part) && !m.held && m.leads && !m.has 0x37 PIN_STAT_OHOLD && m.tc n != tcStandby && (m.port n).driven

/-- GRDn: high while the guard is closed. -/
def Chip.grdLevel (m : Chip) (n : Nat) : BallLevel :=
  if !m.portDrives n then .highZ else if m.pf PD_GSTAT_GSTATE n = 2 then .high else .low

/-- PSENn. -/
def Chip.psenLevel (m : Chip) (n : Nat) : BallLevel :=
  if !m.portDrives n then .highZ else if m.pf PD_DRIVE_PSEN n = 1 then .high else .low

/-- PSDIRn. -/
def Chip.psdirLevel (m : Chip) (n : Nat) : BallLevel :=
  if !m.portDrives n then .highZ else if m.pf PD_DRIVE_PSDIR n = 1 then .high else .low

/-- VSETn. -/
def Chip.vsetLevel (m : Chip) (n : Nat) : BallLevel :=
  if !m.portDrives n then .highZ else .code (m.pf PD_DRIVE_VSET n)

/-- Does an attached port show Rp? A role swap changes the terminations before the roles have changed: the old source
shows Rd with its PS_RDY, the new source Rp from its partner's PS_RDY (R276, R279). -/
def Chip.showsRp (m : Chip) (n : Nat) : Bool :=
  match (m.port n).seq with
  | .prSrc 2 | .frsSrc 3 => false
  | .prSnk 1 => true
  | _ => m.isSource n

/-- A CC ball (`two` for CC2): the terminations of R259; attached, BMC and its Rp or Rd on the CC of POL and VCONN on
the other; in the guard's states Rp and Rd in turn (R283). -/
def Chip.ccLevel (m : Chip) (n : Nat) (two : Bool) : PortCc :=
  let p := m.port n
  let st := m.tc n
  let rp := PortCc.rp (m.rpOut n)
  if !m.portDrives n || st == tcDisabled || st == tcErrRec then .none
  else if m.attached n then
    if b2n two = m.pf PD_TCSTAT_POL n then
      if p.bist = 1 then .carrier else if p.seq = .frsSrc 0 then .low else if m.showsRp n then rp else .rd
    else if p.vconnOn then .vconn else .none
  else if tcRetry ≤ st then if m.ticksSince p.time.st / (37500 * usTicks) % 2 = 0 then rp else .rd
  else if st = tcUnattSrc ∨ st = tcAttwSrc ∨ st = tcTrySrc ∨ st = tcTrywSrc then rp
  else .rd

/-- Do something to a port that the member carries. -/
def Chip.onPort (m : Chip) (n : Nat) (f : Chip → Chip) : Chip := if n < nPorts m.die.part then f m else m

/-- Do something to a port that the member carries when a timer of it has run out. -/
def Chip.onTimer (m : Chip) (n : Nat) (k : PortTimer) (f : Chip → Chip) : Chip :=
  m.onPort n (fun m => if m.portDue n k then f m else m)

/-! ### Commands -/

/-- PORT_ENABLE_WRITE (R259). -/
def execPortEnableWrite (r : Requester) (n : Fin 8) (en : Bool) (s : State) : Host.Outcome State Fault Refusal :=
  s.run (fun m => m.onPage (reqCode r) (pdPg n.val) (fun m => m.portEnable n.val en))

/-- CC_TERMINATION_CHANGE (R259). DESIGN CHOICE, safe (log 50). -/
def execCcTerminationChange (n : Fin 8) (cc1 cc2 : Term) (s : State) : Host.Outcome State Fault Refusal :=
  s.run (fun m => m.onPort n.val (fun m => m.ccChange n.val cc1 cc2))

/-- TCC_DEBOUNCE_EXPIRY (R260). -/
def execTccDebounceExpiry (n : Fin 8) (s : State) : Host.Outcome State Fault Refusal :=
  s.run (fun m => m.onTimer n.val .ccDebounce (fun m => m.ccDebounced n.val))

/-- TPD_DEBOUNCE_EXPIRY (R260). -/
def execTpdDebounceExpiry (n : Fin 8) (s : State) : Host.Outcome State Fault Refusal :=
  s.run (fun m => m.onTimer n.val .pdDebounce (fun m => m.pdDebounced n.val))

/-- TTRYCC_DEBOUNCE_EXPIRY (R260). -/
def execTtryccDebounceExpiry (n : Fin 8) (s : State) : Host.Outcome State Fault Refusal :=
  s.run (fun m => m.onTimer n.val .tryDebounce (fun m => m.tryDebounced n.val))

/-- TDRP_TOGGLE (R260). -/
def execTdrpToggle (n : Fin 8) (s : State) : Host.Outcome State Fault Refusal :=
  s.run (fun m => m.onTimer n.val .drp (fun m => m.drpToggle n.val))

/-- TDRPTRY_EXPIRY (R260). -/
def execTdrptryExpiry (n : Fin 8) (s : State) : Host.Outcome State Fault Refusal :=
  s.run (fun m => m.onTimer n.val .tryEnd (fun m => m.tryEnded n.val))

/-- ERROR_RECOVERY_END (R260). -/
def execErrorRecoveryEnd (n : Fin 8) (s : State) : Host.Outcome State Fault Refusal :=
  s.run (fun m => m.onTimer n.val .recovery (fun m => if m.tc n.val = tcErrRec then (m.partnerGone n.val).portUnatt n.val else m))

/-- SRC_DISCONNECT_EXPIRY (R259, R261). A port that shows Rd in a swap looks for no Rd. DEDUCED, unsafe (log 116). -/
def execSrcDisconnectExpiry (n : Fin 8) (s : State) : Host.Outcome State Fault Refusal :=
  s.run (fun m => m.onTimer n.val .disconnect (fun m =>
    if m.tc n.val = tcAttSrc ∧ m.showsRp n.val = true ∧ (m.port n.val).someRd = false then m.portDetach n.val else m))

/-- SINK_DETACH (R261): VBSn below its level outside a transition, swap or Hard Reset. -/
def execSinkDetach (n : Fin 8) (s : State) : Host.Outcome State Fault Refusal :=
  s.run (fun m => m.onPort n.val (fun m =>
    if m.tc n.val = tcAttSnk ∧ (m.port n.val).seq = .none ∧ m.sinkGone n.val = true then m.portDetach n.val else m))

/-- VCONN_FAULT (R263), with the current in 10 mA. -/
def execVconnFault (n : Fin 8) (i : BitVec 8) (s : State) : Host.Outcome State Fault Refusal :=
  s.run (fun m => m.onPort n.val (fun m =>
    if (m.port n.val).vconnOn && decide (m.get 0x18 PDC_VCONN_VCLIM < i.toNat) then
      ((m.pp PD_GSTAT_VCFLT 1 n.val).modPort n.val (fun p => { p with vconnOn := false })).emit 0x4012 [n.val, i.toNat]
    else m))

/-- PORT_INSERTION_DELAY_END (R264): PRIME, the stage at 5 V behind the open guard. -/
def execPortInsertionDelayEnd (n : Fin 8) (s : State) : Host.Outcome State Fault Refusal :=
  s.run (fun m => m.onTimer n.val .insertion (fun m =>
    if m.tc n.val = tcAttSrc ∧ (m.port n.val).insWait = true then
      ((m.stageSource n.val 5000).pp PD_GSTAT_GSTATE 1 n.val).modPort n.val (fun p =>
        { p with insWait := false, dmgRun := 0, time := { p.time with prime := m.tim.tick } })
    else m))

/-- PRIME_END (R263, R264): the guard closes, VCONN goes on where Ra stands, and AUTOCAP offers. -/
def execPrimeEnd (n : Fin 8) (s : State) : Host.Outcome State Fault Refusal :=
  s.run (fun m => m.onTimer n.val .prime (fun m =>
    if m.pf PD_GSTAT_GSTATE n.val = 1 ∧ (m.port n.val).dmgRun < 64 then
      let ra := (m.port n.val).cc1 == .ra || (m.port n.val).cc2 == .ra
      let m := m.pp PD_GSTAT_GSTATE 2 n.val
      let m := if ra && m.pf PD_CFG_VCONNEN n.val == 1 then m.vconnSet n.val true else m
      m.offer n.val
    else m))

/-- GUARD_DAMAGE_DETECT (R286). -/
def execGuardDamageDetect (n : Fin 8) (s : State) : Host.Outcome State Fault Refusal :=
  s.run (fun m => m.onPort n.val (fun m =>
    if m.pf PD_GSTAT_GSTATE n.val = 1 ∧ 64 ≤ (m.port n.val).dmgRun then
      let v := m.vbus n.val
      let m := ((m.portDrop n.val).pp PD_GSTAT_GSTATE 0 n.val).pp PD_GSTAT_DAMAGED 1 n.val
      ((m.tcGo n.val tcDamaged).irq (pdPg n.val) 8).emit 0x4008 [n.val, up v]
    else m))

/-- PD_MESSAGE_RECEIVED (R266). DESIGN CHOICE, safe (log 50). -/
def execPdMessageReceived (n : Fin 8) (x : PdMsg) (s : State) : Host.Outcome State Fault Refusal :=
  s.run (fun m => m.onPort n.val (fun m => m.pdSeen n.val x))

/-- HARD_RESET_RECEIVED (R280). -/
def execHardResetReceived (n : Fin 8) (s : State) : Host.Outcome State Fault Refusal :=
  s.run (fun m => m.onPort n.val (fun m => if m.attached n.val then m.hardReset n.val 2 else m))

/-- HARD_RESET_STEP (R280). -/
def execHardResetStep (n : Fin 8) (s : State) : Host.Outcome State Fault Refusal :=
  s.run (fun m => m.onTimer n.val .hardStep (fun m => m.hardStep n.val))

/-- POLICY_TIMEOUT (R267). -/
def execPolicyTimeout (n : Fin 8) (s : State) : Host.Outcome State Fault Refusal :=
  s.run (fun m => m.onTimer n.val .policy (fun m => m.policyTimeout n.val))

/-- TXCTL_GO (R268). -/
def execTxctlGo (r : Requester) (n : Fin 8) (sopp : Bool) (s : State) : Host.Outcome State Fault Refusal :=
  s.run (fun m => m.onPage (reqCode r) (pdPg n.val) (fun m => m.txGo n.val sopp))

/-- TXCTL_HARD_RESET (R280). -/
def execTxctlHardReset (r : Requester) (n : Fin 8) (s : State) : Host.Outcome State Fault Refusal :=
  s.run (fun m => m.onPage (reqCode r) (pdPg n.val) (fun m => m.txHrst n.val))

/-- TXCTL_FRS (R279). -/
def execTxctlFrs (r : Requester) (n : Fin 8) (s : State) : Host.Outcome State Fault Refusal :=
  s.run (fun m => m.onPage (reqCode r) (pdPg n.val) (fun m => m.txFrs n.val))

/-- PD_TRANSMIT_END (R265). -/
def execPdTransmitEnd (n : Fin 8) (e : TxEnd) (s : State) : Host.Outcome State Fault Refusal :=
  s.run (fun m => m.onPort n.val (fun m => m.txEnd n.val e))

/-- RXCTL_POP (R296). -/
def execRxctlPop (r : Requester) (n : Fin 8) (s : State) : Host.Outcome State Fault Refusal :=
  s.run (fun m => m.onPage (reqCode r) (pdPg n.val) (fun m => m.rxPop n.val))

/-- Discover Identity as CP2 sends it to the cable (R265, R272). PRESUMED, unsafe (log 47). -/
def Chip.discLine (m : Chip) (n : Nat) : PdRx :=
  let t : PdTx := { kind := .vdm, words := [0xFF00A001], sopp := true }
  { sopp := true, ext := 0, words := t.words, stamp := m.stamp, hdr := t.header 0 0 (m.port n).idSopP }

/-- Discover Identity has gone out on SOP': its MessageID counts on. DEDUCED, unsafe (log 134). -/
def Chip.discSent (m : Chip) (n : Nat) : Chip := m.modPort n (fun p => { p with idSopP := (p.idSopP + 1) % 8 })

/-- CABLE_DISCOVER_ATTEMPT (R272): the cable VDO of an ACK, or none. -/
def execCableDiscoverAttempt (n : Fin 8) (ack : Option Word) (s : State) : Host.Outcome State Fault Refusal :=
  s.run (fun m => m.onTimer n.val .discover (fun m =>
    let p := m.port n.val
    if !m.attached n.val || m.pf PD_TCSTAT_VCSRC n.val != 1 || !p.discDue then m
    else
      let m := m.discSent n.val
      match ack with
      | some w =>
        let v := w.toNat
        let m := ((m.pp PD_CABLEVDO_VDO v n.val).pp PD_CABLE_VALID 1 n.val).pp PD_CABLE_IMAX (bitsOf v 5 2) n.val
        let m := (m.pp PD_CABLE_VMAX (bitsOf v 9 2) n.val).pp PD_CABLE_EPR (bitsOf v 17 1) n.val
        let m := (m.modPort n.val (fun p => { p with discDue := false })).pevt n.val 11
        if p.seq = .epr 2 then m.eprCheck n.val else m
      | none =>
        let k := p.discTries + 1
        let m := m.modPort n.val (fun p => { p with
          discTries := k, discDue := decide (k < 20), time := { p.time with disc := m.tim.tick } })
        if 20 ≤ k ∧ p.seq = .epr 2 then m.eprCheck n.val else m))

/-- EPR_KEEPALIVE_SEND (R274). -/
def execEprKeepaliveSend (n : Fin 8) (s : State) : Host.Outcome State Fault Refusal :=
  s.run (fun m => m.onTimer n.val .keepalive (fun m =>
    if (m.port n.val).eprMode && !m.isSource n.val && m.portIdle n.val then m.cpSend n.val .eprKeepAlive [3] else m))

/-- EPR_KEEPALIVE_TIMEOUT (R274). -/
def execEprKeepaliveTimeout (n : Fin 8) (s : State) : Host.Outcome State Fault Refusal :=
  s.run (fun m => m.onTimer n.val .keepLost (fun m =>
    if (m.port n.val).eprMode && m.isSource n.val then (m.hardReset n.val 1).pevt n.val 14 else m))

/-- SRC_TRANSITION_START (R275). -/
def execSrcTransitionStart (n : Fin 8) (s : State) : Host.Outcome State Fault Refusal :=
  s.run (fun m => m.onTimer n.val .transition (fun m => m.transStart n.val))

/-- SRC_TRANSITION_SETTLED (R275). -/
def execSrcTransitionSettled (n : Fin 8) (s : State) : Host.Outcome State Fault Refusal :=
  s.run (fun m => m.onTimer n.val .settle (fun m => m.transSettled n.val))

/-- SRC_TRANSITION_TIMEOUT (R275). -/
def execSrcTransitionTimeout (n : Fin 8) (s : State) : Host.Outcome State Fault Refusal :=
  s.run (fun m => m.onTimer n.val .transLate (fun m =>
    if ((m.port n.val).seq = .srcMove ∨ (m.port n.val).seq = .prSnk 1) ∧ m.settled n.val = false then m.hardReset n.val 1
    else m))

/-- SWAP_SEQUENCE_STEP (R276, R279). -/
def execSwapSequenceStep (n : Fin 8) (s : State) : Host.Outcome State Fault Refusal :=
  s.run (fun m => m.onTimer n.val .swapStep (fun m => m.swapStep n.val))

/-- SWAP_TIMEOUT (R276). -/
def execSwapTimeout (n : Fin 8) (s : State) : Host.Outcome State Fault Refusal :=
  s.run (fun m => m.onTimer n.val .swapLate (fun m => m.swapTimeout n.val))

/-- SOURCE_CAPS_DELAY_END (R276). -/
def execSourceCapsDelayEnd (n : Fin 8) (s : State) : Host.Outcome State Fault Refusal :=
  s.run (fun m => m.onTimer n.val .capsDelay (fun m =>
    if (m.port n.val).capsDue && m.isSource n.val then
      (m.modPort n.val (fun p => { p with capsDue := false })).offer n.val
    else m))

/-- FRS_SIGNAL_DETECTED (R278). -/
def execFrsSignalDetected (n : Fin 8) (s : State) : Host.Outcome State Fault Refusal :=
  s.run (fun m => m.onPort n.val (fun m =>
    if m.frsArmed n.val && !m.isSource n.val then
      ((m.pp PD_TCSTAT_SWAP 1 n.val).seqGo n.val (.frsSnk 0)).pevt n.val 7
    else m))

/-- FRS_VBUS_DROP (R278). -/
def execFrsVbusDrop (n : Fin 8) (s : State) : Host.Outcome State Fault Refusal :=
  s.run (fun m => m.onPort n.val (fun m =>
    if (m.port n.val).seq = .frsSnk 0 then
      ((m.stageSource n.val 5000).cpSend n.val .frSwap).seqGo n.val (.frsSnk 1)
    else m))

/-- FRS_ACCEPT_TIMEOUT (R278). -/
def execFrsAcceptTimeout (n : Fin 8) (s : State) : Host.Outcome State Fault Refusal :=
  s.run (fun m => m.onTimer n.val .frsAccept (fun m => if (m.port n.val).seq = .frsSnk 1 then m.portErrRec n.val else m))

/-- FRS_SWAP_TIMEOUT (R279). -/
def execFrsSwapTimeout (n : Fin 8) (s : State) : Host.Outcome State Fault Refusal :=
  s.run (fun m => m.onTimer n.val .frsSwap (fun m =>
    if (m.port n.val).seq = .frsSrc 0 ∨ (m.port n.val).seq = .frsSrc 1 then m.portErrRec n.val else m))

/-- GUARD_TRIP (R283). -/
def execGuardTrip (n : Fin 8) (x : GuardSeen) (s : State) : Host.Outcome State Fault Refusal :=
  s.run (fun m => m.onPort n.val (fun m => m.guardTrip n.val (x.cause.val + 1) x.mv.toNat x.ma.toInt))

/-- PORT_PRESENCE_LOST (R283, R285). -/
def execPortPresenceLost (n : Fin 8) (s : State) : Host.Outcome State Fault Refusal :=
  s.run (fun m => m.onTimer n.val .presence (fun m => m.presenceLost n.val))

/-- GUARD_RETRY_END (R284). -/
def execGuardRetryEnd (n : Fin 8) (s : State) : Host.Outcome State Fault Refusal :=
  s.run (fun m => m.onTimer n.val .retry (fun m => m.guardRetry n.val))

/-- GUARD_RCNT_RESET (R284): 10 s of explicit contract. -/
def execGuardRcntReset (n : Fin 8) (s : State) : Host.Outcome State Fault Refusal :=
  s.run (fun m => m.onTimer n.val .calm (fun m => if m.explicit n.val then m.pp PD_GSTAT_RCNT 0 n.val else m))

/-- PORT_CLEAR_LATCH (R287). -/
def execPortClearLatch (r : Requester) (n : Fin 8) (s : State) : Host.Outcome State Fault Refusal :=
  s.run (fun m => m.onRwl (reqCode r) (pdPg n.val) (fun m => m.pdClrWrite (reqCode r) n.val 1))

/-- PORT_CLEAR_DAMAGE (R287). -/
def execPortClearDamage (r : Requester) (n : Fin 8) (s : State) : Host.Outcome State Fault Refusal :=
  s.run (fun m => m.onRwl (reqCode r) (pdPg n.val) (fun m => m.pdClrWrite (reqCode r) n.val 2))

/-- PORT_CLEAR_VCONN (R287). -/
def execPortClearVconn (r : Requester) (n : Fin 8) (s : State) : Host.Outcome State Fault Refusal :=
  s.run (fun m => m.onRwl (reqCode r) (pdPg n.val) (fun m => m.pdClrWrite (reqCode r) n.val 4))

/-- STATUS_POLL (R290). -/
def execStatusPoll (n : Fin 8) (s : State) : Host.Outcome State Fault Refusal :=
  s.run (fun m => m.onTimer n.val .poll (fun m =>
    if m.explicit n.val && m.pf PD_POL_SPOLL n.val != 0 && m.portIdle n.val then m.cpSend n.val .getStatus else m))

/-- STATUS_POLL_MISS (R290). -/
def execStatusPollMiss (n : Fin 8) (s : State) : Host.Outcome State Fault Refusal :=
  s.run (fun m => m.onTimer n.val .pollMiss (fun m =>
    if (m.port n.val).statusWait then
      let m := m.modPort n.val (fun p => { p with statusWait := false })
      if (m.port n.val).ctx = 0 then m else m.ctxMiss (m.port n.val).ctx
    else m))

end Sys2Proof.Machine
end

