-- ==== Sys2Proof/Machine/Nvm.lean ====
section
/-! DEFINITION. The non-volatile store (R401–R424, R430): areas and regions, passwords, the write buffer and the page
latch, the journal, two-bank records, and the course of a write operation word by word. -/

namespace Sys2Proof.Machine

/-! ### Places in the store (R401–R404, R434) -/

/-- Array number and word index of a word of a page. -/
def nvWord (page w : Nat) : Nat × Nat := (0x20 + page / 512, page % 512 * 32 + w)

/-- The region a page lies in: 0–7 by the region table, 8 the configuration area; none elsewhere (R402, R403). -/
def NvSt.regionOf (nv : NvSt) (page : Nat) : Option Nat :=
  if page < 0x780 then
    (List.range 8).find? (fun k =>
      let g := (nv.regions[k]?).getD {}
      decide (16 * g.base ≤ page) && decide (page < 16 * (g.base + g.size)))
  else if page < 0x7F0 then some 8 else none

/-- The owner of a region; region 8 is general. -/
def NvSt.ownerOf (nv : NvSt) (k : Nat) : Nat := ((nv.regions[k]?).getD {}).owner

/-- The password of a region for a kind of access, 0 for none (R406). -/
def NvSt.pwdOf (nv : NvSt) (k : Nat) (write : Bool) : Nat :=
  let p := (nv.pwds[k]?).getD (0, 0)
  if write then p.2 else p.1

/-- Has the requester opened a kind of access? An open write password also opens reading (R406). -/
def NvSt.opened (nv : NvSt) (r k : Nat) (write : Bool) : Bool :=
  nv.opens.contains (r, k, true) || (!write && nv.opens.contains (r, k, false))

/-- May a requester make a kind of access to a region? The loader is not subject to passwords (R405). DEDUCED, unsafe
(log 66). -/
def NvSt.mayAccess (nv : NvSt) (r k : Nat) (write : Bool) : Bool :=
  r == 3 || nv.pwdOf k write == 0 || nv.opened r k write

/-- The lowest region of an owner (R449). -/
def NvSt.ownedBy (nv : NvSt) (owner : Nat) : Option NvRegion :=
  (nv.regions.take 8).find? (fun g => g.owner == owner && g.size != 0)

/-! ### Permission and states (R405, R407, R408, R432) -/

/-- Are writes permitted (R407)? -/
def Chip.nvPermitted (m : Chip) : Bool := !m.nv.vinLow && m.has 0x22 THM_STAT_NVMOK

/-- Is every access refused: the recall scan runs, or the store is not READY after reset (R405, R417)? -/
def Chip.nvClosed (m : Chip) : Bool := !m.nv.ready || m.nv.recalling

/-- Does a write operation of the store's queue run or wait? -/
def NvSt.writing (nv : NvSt) : Bool := nv.cur.isSome || !nv.wait.isEmpty

/-- Does a commit run or wait (R412)? -/
def NvSt.committing (nv : NvSt) : Bool :=
  (match nv.cur with
    | some j => j.kind == .commit
    | none => false) || nv.wait.any (fun j => j.kind == .commit)

/-- Does a frozen capture wait for its slot write, which goes before the next page of a commit (R457)? DEDUCED, unsafe
(log 69). -/
def Chip.capDue (m : Chip) : Bool :=
  m.get 0x25 BBX_STAT_STATE == 4 && decide (m.bbx.slot < m.get 0x25 BBX_STAT_NSLOT)

/-- Does a write operation run or wait that another unit makes: the clear of a store word, a soft spare's copy, a clear
of the recorder, a frozen capture (R408, R441, R445, R462, R473)? -/
def Chip.nvOutside (m : Chip) : Bool :=
  m.capDue ||
  (m.opOf 0x26).any (fun o => o.cmd == 2 && decide (0x20 ≤ bitsOf o.arg 16 8)) ||
  (m.opOf 0x27).any (fun o => o.cmd == 2 && o.phase == 0 && decide (0x20 ≤ bitsOf o.arg 16 8)) ||
  (m.rcd.started && m.enabled 0x24 && (m.opOf 0x24).any (fun o => o.cmd == 2))

/-- Does any write operation run or wait (R416, R418)? -/
def Chip.nvBusy (m : Chip) : Bool := m.nv.writing || m.nvOutside

/-- `STATUS[18:16]`: 0 RECALL, 1 READY, 2 WRITING, 3 WAITING (R432). -/
def Chip.nvState (m : Chip) : Nat :=
  if m.nvClosed then 0
  else if m.nv.inWord || (m.nvOutside && !m.nv.writing && m.nvPermitted) then 2
  else if m.nvBusy then 3 else 1

/-- Is the store between pages, so that a record or a capture page may be written (R457)? -/
def NvSt.betweenPages (nv : NvSt) : Bool := nv.cur.isNone || !nv.inWord

/-! ### Words, bytes and the check of R419 -/

/-- The bytes of a word of a page, or none where it does not read (R440). -/
def Chip.nvReadWord (m : Chip) (req page w : Nat) : Option (List Nat) × Chip :=
  let a := nvWord page w
  let r := m.wordRead req a.1 a.2
  (r.data, r.chip)

/-- Write a whole word of a page. -/
def Chip.nvWriteWord (m : Chip) (page w : Nat) (data : List Nat) : Chip :=
  let a := nvWord page w
  m.wordWrite a.1 a.2 data

/-- Write bytes from a byte offset of the store upward, whole words. -/
def Chip.nvWriteBytes (m : Chip) (off : Nat) : List Nat → Nat → Chip
  | _, 0 => m
  | data, n + 1 =>
    Chip.nvWriteBytes (m.nvWriteWord (off / 256) (off % 256 / 8) (data.take 8)) (off + 8) (data.drop 8) n

/-- One bit of CRC-32, reflected. -/
def crc32Bit (c : Nat) : Nat := if c % 2 = 1 then (c / 2) ^^^ 0xEDB88320 else c / 2

/-- One byte of CRC-32. -/
def crc32Byte (c b : Nat) : Nat := (List.range 8).foldl (fun c _ => crc32Bit c) (c ^^^ b)

/-- CRC-32 of R419: polynomial 0x04C1_1DB7, reflected, initial value and final XOR all ones. -/
def crc32 (bs : List Nat) : Nat := bs.foldl crc32Byte 0xFFFFFFFF ^^^ 0xFFFFFFFF

/-- Two bytes as a number, first byte lowest (R537). -/
def le16 (bs : List Nat) : Nat := (bs[0]?).getD 0 + (bs[1]?).getD 0 * 256

/-! ### The journal (R415–R417) -/

/-- Array and word index of word `i` of the journal ring. -/
def journalWord (i : Nat) : Nat × Nat := nvWord (0x7F8 + i / 32) (i % 32)

/-- Add a journal entry. DESIGN CHOICE, safe (log 61). -/
def Chip.nvJournal (m : Chip) (kind data : Nat) : Chip :=
  let seq := (m.nv.jseq + 1) % 2 ^ 32
  let a := journalWord (seq % 256)
  { m.wordWrite a.1 a.2 (bytesOf 8 (seq * 2 ^ 32 + kind % 16 * 2 ^ 28 + data % 65536)) with
    nv := { m.nv with jseq := seq } }

/-- A journal entry: sequence number, kind, data. -/
structure JEntry where
  seq : Nat
  kind : Nat
  data : Nat
deriving DecidableEq, Repr

/-- Is sequence `x` newer than `y` (R419)? -/
def seqNewer (x y : Nat) : Bool :=
  let d := (x + 2 ^ 32 - y % 2 ^ 32) % 2 ^ 32
  decide (1 ≤ d) && decide (d < 2 ^ 31)

/-- The valid entries of the journal: kind 1 to 5, and readable (R416, R438). -/
def Chip.nvEntries (m : Chip) : List JEntry × Chip :=
  (List.range 256).foldl (fun (x : List JEntry × Chip) i =>
    let a := journalWord i
    let r := x.2.wordRead 15 a.1 a.2
    match r.data with
    | some d =>
      let k := (d[3]?).getD 0 / 16
      (if 1 ≤ k ∧ k ≤ 5 then x.1 ++ [⟨le32 (d.drop 4), k, le16 d⟩] else x.1, r.chip)
    | none => (x.1, r.chip)) ([], m)

/-- The latest entry of the journal. -/
def latestEntry (es : List JEntry) : Option JEntry :=
  es.foldl (fun b e => match b with
    | none => some e
    | some x => if seqNewer e.seq x.seq then some e else some x) none

/-- At reset release the journal ring is read (R417). -/
def Chip.nvJournalRead (m : Chip) : Chip :=
  let x := m.nvEntries
  match latestEntry x.1 with
  | some e => { x.2 with nv := { x.2.nv with jseq := e.seq, jkind := e.kind, jdata := e.data } }
  | none => x.2

/-- Was the store clean at reset release: was its latest entry a seal (R416, R417)? -/
def NvSt.clean (nv : NvSt) : Bool := nv.jkind == 4 || nv.jkind == 5

/-- Pages that the operation cut short had started, walking back from an entry over whole operations between, to the
entry that started it. -/
def pagesStarted (es : List JEntry) : Nat → Nat → Nat → Nat
  | 0, _, _ => 0
  | fuel + 1, seq, depth =>
    match es.find? (fun e => e.seq == seq) with
    | none => 0
    | some e =>
      let prev := (seq + 2 ^ 32 - 1) % 2 ^ 32
      if e.kind = 1 then (if depth = 0 then 0 else pagesStarted es fuel prev (depth - 1))
      else if e.kind = 3 then pagesStarted es fuel prev (depth + 1)
      else if e.kind = 2 ∧ depth = 0 then 1 + pagesStarted es fuel prev depth
      else pagesStarted es fuel prev depth

/-! ### Two-bank records (R419–R421) -/

/-- A bank as read: its 256 bytes, and whether every word was readable. -/
structure BankRead where
  bytes : List Nat
  ok : Bool
  chip : Chip

/-- Read a page word by word. -/
def Chip.bankRead (m : Chip) (page : Nat) : BankRead :=
  (List.range 32).foldl (fun (b : BankRead) w =>
    let r := b.chip.nvReadWord 15 page w
    match r.1 with
    | some d => { b with bytes := b.bytes ++ d, chip := r.2 }
    | none => { bytes := b.bytes ++ List.replicate 8 0, ok := false, chip := r.2 }) ⟨[], true, m⟩

/-- Does a bank pass (R419)? -/
def BankRead.passes (b : BankRead) (a : Nat) : Bool :=
  b.ok && le16 (b.bytes.drop 6) == a && le32 (b.bytes.drop 248) == crc32 (b.bytes.take 248)

/-- What the read of a record selects (R420). -/
structure RecSel where
  absent : Bool := false
  tied : Bool := false
  oneBad : Bool := false
  bank : Nat := 0
  seq : Nat := 0
  len : Nat := 0
  payload : List Nat := []

/-- The copy a bank holds. -/
def selOf (b : BankRead) (bank : Nat) (tied oneBad : Bool) : RecSel :=
  { tied := tied, oneBad := oneBad, bank := bank, seq := le32 b.bytes, len := (b.bytes[4]?).getD 0,
    payload := (b.bytes.drop 8).take 240 }

/-- The choice between two banks (R420). -/
def recChoose (a : Nat) (x y : BankRead) : RecSel :=
  match x.passes a, y.passes a with
  | true, true =>
    let sx := le32 x.bytes
    let sy := le32 y.bytes
    if sx = sy then selOf x 0 (decide ((x.bytes.drop 4).take 244 ≠ (y.bytes.drop 4).take 244)) false
    else if seqNewer sy sx then selOf y 1 false false else selOf x 0 false false
  | true, false => selOf x 0 false true
  | false, true => selOf y 1 false true
  | false, false => { absent := true }

/-- Read the record at page `a`. -/
def Chip.recRead (m : Chip) (a : Nat) : RecSel × Chip :=
  let x := m.bankRead a
  let y := x.chip.bankRead (a + 1)
  (recChoose a x y, y.chip)

/-- Read the record at page `a` for its contents, with the codes of R420. -/
def Chip.recReadTold (m : Chip) (a : Nat) : RecSel × Chip :=
  let r := m.recRead a
  let m := if r.1.tied then (r.2.irq 0x23 7).emit 0x8002 [a, r.1.seq]
    else if r.1.absent then r.2.emit 0x8003 [a] else r.2
  (r.1, m)

/-- The 256 bytes of a bank (R419). -/
def recImage (a seq : Nat) (payload : List Nat) : List Nat :=
  let body := bytesOf 4 seq ++ [payload.length % 256, 0] ++ bytesOf 2 a ++
    (payload ++ List.replicate (240 - payload.length) 0)
  body ++ bytesOf 4 (crc32 body) ++ [0, 0, 0, 0]

/-- The bank and sequence number the next write of a record takes (R421). -/
def RecSel.next (x : RecSel) : Nat × Nat := if x.absent then (0, 1) else (1 - x.bank, (x.seq + 1) % 2 ^ 32)

/-- Write a record at once, with its journal entries; used where nothing else writes (R421). The sequence written.
DEDUCED, unsafe (log 63). -/
def Chip.recWriteNow (m : Chip) (a : Nat) (payload : List Nat) : Nat × Chip :=
  let r := m.recRead a
  let n := r.1.next
  let m := (r.2.nvJournal 1 1).nvJournal 2 (a + n.1)
  let m := m.nvWriteBytes ((a + n.1) * 256) (recImage a n.2 payload) 32
  (n.2, m.nvJournal 3 1)

/-! ### Write operations (R408–R411, R415) -/

/-- The words of a slot that have a valid byte, ascending (R411). -/
def NvSlot.words (s : NvSlot) : List Nat := (List.range 32).filter (fun w => s.bytes.any (fun b => b.1 / 8 == w))

/-- The pages of a commit in ascending slot order (R411). -/
def NvSt.commitPages (nv : NvSt) : List (Nat × List Nat) :=
  nv.slots.filterMap (fun s => s.map (fun s => (s.page, s.words)))

/-- A write operation stops because writes are not permitted: told once per stop (R408). DEDUCED, unsafe (log 63). -/
def Chip.nvHold (m : Chip) : Chip :=
  match m.nv.cur with
  | none => m
  | some j =>
    let m := { m with nv := { m.nv with inWord := false } }
    if m.nv.stopTold then m
    else
      let m := { m with nv := { m.nv with stopTold := true } }
      let at_ := match j.todo with
        | (p, w :: _) :: _ => (p, w)
        | (p, []) :: _ => (p, 0)
        | [] => (0, 0)
      (m.irq 0x23 6).emit 0x8004 [if m.nv.vinLow then 1 else 2, at_.1, at_.2]

/-- The operation in progress starts its next word, with the journal entry of a page that begins (R415). DEDUCED,
unsafe (log 62). -/
def Chip.nvGo (m : Chip) (j : NvJob) : Chip :=
  let m := match j.todo, j.begun with
    | (p, _) :: _, false => m.nvJournal 2 p
    | _, _ => m
  { m with nv := { m.nv with cur := some { j with begun := true }, inWord := true, stopTold := false } }

/-- The payload of the recorder's header (R458). -/
def Chip.recHeader (m : Chip) : List Nat :=
  bytesOf 4 (m.rd (REC_PCC_PCC.addr 0x24)).toNat ++ bytesOf 4 m.opHours ++ bytesOf 2 (m.get 0x24 REC_STAT_NREC) ++
    [m.get 0x24 REC_STAT_FULL, 0] ++ bytesOf 4 m.rcd.dropTotal

/-- An operation that waited starts: a record write selects its bank (R421), the recorder's header says what holds at
its write (R458), a seal has no start entry. -/
def Chip.nvStart (m : Chip) (j : NvJob) : Chip :=
  match j.kind with
  | .commit | .compat => (m.nvJournal 1 j.total).nvGo j
  | .seal => m.nvGo j
  | _ =>
    let r := m.recRead j.page
    let n := r.1.next
    let j := if j.kind == NvKind.recHeader then { j with payload := r.2.recHeader } else j
    let j := { j with bank := n.1, seq := n.2, data := recImage j.page n.2 j.payload,
                      todo := [(j.page + n.1, List.range 32)], total := 1 }
    (r.2.nvJournal 1 1).nvGo j

/-- Is the job one that writes pages a requester gave? -/
def NvKind.gives : NvKind → Bool
  | .commit | .compat => true
  | _ => false

/-- Start or resume what can be, once writes are permitted (R408), and not before a frozen capture (R457). -/
def Chip.nvKick (m : Chip) : Chip :=
  if m.nvClosed then m
  else match m.nv.cur with
  | some j =>
    if m.nv.inWord || m.nv.pause || (m.capDue && !j.begun) then m else if m.nvPermitted then m.nvGo j else m.nvHold
  | none =>
    match m.nv.wait with
    | [] => m
    | j :: t =>
      if m.nvPermitted && !(m.capDue && j.kind.gives) then ({ m with nv := { m.nv with wait := t } }).nvStart j else m

/-- Accept a write operation: it waits until it can start (R408, R421). -/
def Chip.nvEnqueue (m : Chip) (j : NvJob) : Chip := ({ m with nv := { m.nv with wait := m.nv.wait ++ [j] } }).nvKick

/-- The slot, or the latch, that holds a page. -/
def NvSt.slotOf (nv : NvSt) (page : Nat) : Option NvSlot :=
  (nv.slots.find? (fun s => (s.map (fun s => s.page)) == some page)).join

/-- The place in the write buffer of a word of a page that a slot holds (R434). -/
def Chip.slotPlace (m : Chip) (page w : Nat) : Nat → Bool := fun n =>
  n % 32 == w && (((m.nv.slots[n / 32]?).join).map (fun s => s.page)) == some page && !m.has 0x23 NVM_CFG_MODE

/-- The bytes an operation writes in a word: for a page of the buffer, bytes that are not valid come from the array
just before (R411, R441); none where that read fails. DEDUCED, unsafe (log 64). -/
def Chip.nvWordBytes (m : Chip) (j : NvJob) (page w : Nat) : Option (List Nat) × Chip :=
  let m := if j.kind = .commit then m.unitRead 0x11 (m.slotPlace page w) else m
  let slot := match j.kind with
    | .commit => m.nv.slotOf page
    | .compat => m.nv.latch
    | _ => none
  match slot with
  | none => (some ((j.data.drop (8 * w)).take 8), m)
  | some s =>
    let have_ := (List.range 8).map (fun k => Sparse.find s.bytes (8 * w + k))
    if have_.all Option.isSome then (some (have_.map (fun b => b.getD 0)), m)
    else
      let r := m.nvReadWord 15 page w
      (r.1.map (fun d => (List.range 8).map (fun k => ((have_[k]?).join).getD ((d[k]?).getD 0))), r.2)

/-- The word in progress is written: was it, where bytes that it keeps may not read (R441)? DEDUCED, unsafe (log 64).
-/
def Chip.nvWordDone (m : Chip) (j : NvJob) (page w : Nat) : Bool × Chip :=
  let r := m.nvWordBytes j page w
  match r.1 with
  | some d => (true, r.2.nvWriteWord page w d)
  | none => (false, r.2)

/-- A page of the buffer is complete: its slot frees (R411). -/
def NvSt.freeSlot (nv : NvSt) (page : Nat) : NvSt :=
  { nv with slots := nv.slots.map (fun s => if s.map (fun s => s.page) = some page then none else s), fullTold := false }

/-! ### Window accesses (R405, R410, R412, R423, R424) -/

/-- What a window read gives: a value, a refusal, or nothing yet. -/
inductive WinRead where
  | value (v : Nat)
  | refused
  | notReady
deriving DecidableEq, Repr

/-- A refused window write (R405). -/
def Chip.nvWref (m : Chip) : Chip := (m.count 0x23 NVM_WREFCNT_COUNT).irq 0x23 4

/-- A window read of the word at a byte offset. DEDUCED, unsafe (log 65). -/
def Chip.nvRead (m : Chip) (r off : Nat) : WinRead × Chip :=
  let page := off / 256
  let o := off % 256 / 4 * 4
  match m.nv.regionOf page with
  | none => (.refused, m)
  | some k =>
    if m.nvClosed || !m.nv.mayAccess r k false then (.refused, m)
    else if m.has 0x23 NVM_CPSTAT_BUSY && (m.nv.latch.map (fun s => s.page)) == some page then (.notReady, m)
    else
      let here := m.slotPlace page (o / 8)
      let m := m.unitRead 0x11 here
      let bytes := if m.has 0x23 NVM_CFG_MODE then [] else ((m.nv.slotOf page).map (fun s => s.bytes)).getD []
      let have_ := (List.range 4).map (fun i => Sparse.find bytes (o + i))
      if m.unitBad 0x11 here then (.refused, m)
      else if have_.all Option.isSome then (.value (le32 (have_.map (fun b => b.getD 0))), m)
      else
        let d := m.nvReadWord r page (o / 8)
        match d.1 with
        | some d8 =>
          let half := d8.drop (o % 8)
          (.value (le32 ((List.range 4).map (fun i => ((have_[i]?).join).getD ((half[i]?).getD 0)))), d.2)
        | none => (.refused, d.2)

/-- Bytes that a write makes valid in a slot. -/
def NvSlot.merge (s : NvSlot) (o : Nat) (bs : List Nat) : NvSlot :=
  { s with bytes := (bs.zip (List.range bs.length)).foldl (fun l b => Sparse.put l (o + b.2) b.1) s.bytes }

/-- A window write in native mode: into the slot that holds its page, the lowest free slot, or refused (R410). -/
def Chip.nvBuffer (m : Chip) (r page o : Nat) (bs : List Nat) : Bool × Chip :=
  let at_ := (List.range 16).find? (fun k => (((m.nv.slots[k]?).join).map (fun s => s.page)) == some page)
  let free := (List.range 16).find? (fun k => ((m.nv.slots[k]?).join).isNone)
  match at_.or free with
  | some k =>
    let here := fun (n : Nat) => n == 32 * k + o / 8
    let m := m.unitRead 0x11 here
    if m.unitBad 0x11 here then (false, m.nvWref)
    else
      let s := (((m.nv.slots[k]?).join).getD ⟨page, []⟩).merge o bs
      (true, { m with nv := { m.nv with slots := setAt m.nv.slots k (some s) } }.unitWrite 0x11 here)
  | none =>
    let m := m.nvWref.irq 0x23 5
    (false, if m.nv.fullTold then m else ({ m with nv := { m.nv with fullTold := true } }).emit 0x8006 [r, page])

/-- A window write in compatibility mode: into the page latch (R423, R424). DEDUCED, unsafe (log 65). -/
def Chip.nvLatch (m : Chip) (page o : Nat) (bs : List Nat) : Bool × Chip :=
  match m.nv.latch with
  | none => (true, { m with nv := { m.nv with latch := some (NvSlot.merge ⟨page, []⟩ o bs) } })
  | some s =>
    if s.page = page ∧ ¬ m.has 0x23 NVM_CPSTAT_BUSY then
      (true, { m with nv := { m.nv with latch := some (s.merge o bs) } })
    else (false, m.nvWref)

/-- A window write of a word at a byte offset: was it taken, and the machine after. -/
def Chip.nvWrite (m : Chip) (r off v : Nat) : Bool × Chip :=
  let page := off / 256
  let o := off % 256 / 4 * 4
  match m.nv.regionOf page with
  | none => (false, m.nvWref)
  | some k =>
    if m.nvClosed || r == 3 || m.nv.ownerOf k != 0 || !m.nv.mayAccess r k true then (false, m.nvWref)
    else if m.has 0x23 NVM_CFG_MODE then m.nvLatch page o (bytesOf 4 v)
    else if m.nv.committing then (false, m.nvWref)
    else m.nvBuffer r page o (bytesOf 4 v)

/-! ### Passwords (R406) -/

/-- A PWD write by a requester, for the region and kind of its own PWSEL. DEDUCED, unsafe (log 66). -/
def Chip.pwdWrite (m : Chip) (r v : Nat) : Chip :=
  let sel := (m.rd (reqKey r (NVM_PWSEL_KIND.addr 0x23))).toNat
  let write := bit sel 4
  let k := sel % 16
  let nv := m.nv
  if nv.barred.contains r then m
  else if v = 0 then { m with nv := { nv with opens := dropAll nv.opens (r, k, write) } }
  else if k < 9 ∧ nv.pwdOf k write = v then
    { m with nv := { nv with opens := addOnce nv.opens (r, k, write), fails := Sparse.drop nv.fails r } }
  else
    let n := (Sparse.find nv.fails r).getD 0 + 1
    let nv := { nv with opens := dropAll nv.opens (r, k, write) }
    if n < 4 then { m with nv := { nv with fails := Sparse.put nv.fails r n } }
    else
      let m := { m with nv := { nv with fails := Sparse.drop nv.fails r, barred := addOnce nv.barred r,
                                        barAt := Sparse.put nv.barAt r m.tim.tick } }
      (m.irq 0x23 9).emit 0x8005 [r, k]

/-- PWST for a requester: BARRED, WOPEN, ROPEN. DEDUCED, unsafe (log 66). -/
def Chip.pwst (m : Chip) (r : Nat) : Nat :=
  let mask := fun (write : Bool) => (List.range 9).foldl (fun n k => if m.nv.opened r k write then setBit n k else n) 0
  b2n (m.nv.barred.contains r) * 2 ^ 31 + mask true * 65536 + mask false

/-! ### Configuration (R407, R423) -/

/-- A write of NVM.CFG: MODE changes only while buffer and latch are empty and no operation runs; else the write is
dropped and counted. BOWLVL is clamped to 42–190. DEDUCED, unsafe (log 68). -/
def Chip.nvCfgWrite (m : Chip) (v : Nat) : Chip :=
  if v % 2 ≠ m.get 0x23 NVM_CFG_MODE ∧
      (m.nv.slots.any Option.isSome ∨ m.nv.latch.isSome ∨ m.nv.writing ∨ m.busy 0x23) then
    m.count 0x23 NVM_WREFCNT_COUNT
  else ((m.put 0x23 NVM_CFG_MODE v).put 0x23 NVM_CFG_BOWLVL (clampN 42 190 (bitsOf v 8 8))).put 0x23 NVM_CFG_HYS (v / 65536)

/-! ### Long operations (R411, R412, R416, R418–R422, R430) -/

/-- The payload in RECBUF (R422). -/
def Chip.recBuf (m : Chip) (len : Nat) : List Nat :=
  ((List.range 60).flatMap (fun k => bytesOf 4 (m.get 0x23 NVM_RECBUF_DATA k))).take len

/-- Put a payload into RECBUF. -/
def Chip.setRecBuf (m : Chip) (payload : List Nat) : Chip :=
  (List.range 60).foldl (fun m k => m.put 0x23 NVM_RECBUF_DATA (le32 (payload.drop (4 * k))) k) m

/-- The reason a record operation is refused for its pages: not in one region, or not open (R422, R430). -/
def Chip.recRefusal (m : Chip) (r a : Nat) (write : Bool) : Option Nat :=
  match m.nv.regionOf a, m.nv.regionOf (a + 1) with
  | some k, some k' =>
    if k ≠ k' then some 0x12
    else if m.nv.ownerOf k ≠ 0 ∨ !m.nv.mayAccess r k write then some 0x11 else none
  | _, _ => some 0x12

/-- The region-table payload: per region BASE, SIZE, OWNER and 0 (log 60). DESIGN CHOICE, unsafe (log 60). -/
def regionPayload (rs : List NvRegion) : List Nat := (rs.take 8).flatMap (fun g => [g.base, g.size, g.owner, 0])

/-- The region table of a payload. DESIGN CHOICE, unsafe (log 60). -/
def regionsOf (p : List Nat) : List NvRegion :=
  (List.range 8).map (fun k => ⟨(p[4 * k]?).getD 0 % 128, (p[4 * k + 1]?).getD 0 % 128, (p[4 * k + 2]?).getD 0 % 4⟩)

/-- The password payload: per region the read password and the write password (log 60). DESIGN CHOICE, unsafe (log
60). -/
def pwdPayload (ps : List (Nat × Nat)) : List Nat := ps.flatMap (fun p => bytesOf 4 p.1 ++ bytesOf 4 p.2)

/-- The passwords of a payload. DESIGN CHOICE, unsafe (log 60). -/
def pwdsOf (p : List Nat) : List (Nat × Nat) :=
  (List.range 9).map (fun k => (le32 (p.drop (8 * k)), le32 (p.drop (8 * k + 4))))

/-- Does a region overlap another that covers something (R403)? -/
def regionOverlaps (rs : List NvRegion) (k : Nat) (g : NvRegion) : Bool :=
  (List.range 8).any (fun j =>
    let h := (rs[j]?).getD {}
    j != k && h.size != 0 && g.size != 0 && decide (g.base < h.base + h.size) && decide (h.base < g.base + g.size))

/-- The recall scan counts and mends words of the store below a word number (R417, R418): corrected words are written
back while writes are permitted. The uncorrectable words found. -/
def Chip.nvScan (m : Chip) (below : Nat) : Nat × Chip :=
  let keys := (m.upset.map (fun e => e.1)).filter (fun a =>
    decide (0x20 * 2 ^ 20 ≤ a) && decide ((a / 2 ^ 20 - 0x20) * 16384 + a % 2 ^ 20 / 8 < below))
  keys.foldl (fun (x : Nat × Chip) a =>
    let r := x.2.wordRead 15 (a / 2 ^ 20) (a % 2 ^ 20 / 8)
    match r.data with
    | some d => (x.1, if r.corrected && m.nvPermitted then r.chip.wordWrite (a / 2 ^ 20) (a % 2 ^ 20 / 8) d else r.chip)
    | none => (x.1 + 1, r.chip)) (0, m)

/-- Start OPCMD 0x01: commit (R411). DEDUCED, unsafe (log 62). -/
def Chip.nvCommit (m : Chip) : Chip :=
  let pages := m.nv.commitPages
  if pages.isEmpty then (m.endDone 0x23 [0, 0]).raise 105
  else m.nvEnqueue { kind := .commit, todo := pages, total := pages.length }

/-- OPCMD 0x02: discard (R412). -/
def Chip.nvDiscard (m : Chip) : Chip :=
  let n := (m.nv.slots.filter Option.isSome).length
  ({ m with nv := { m.nv with slots := List.replicate 16 none, fullTold := false } }).endDone 0x23 [BitVec.ofNat 32 n]

/-- OPCMD 0x03: seal (R416). -/
def Chip.nvSeal (m : Chip) : Chip :=
  if !m.nvBusy && m.nvPermitted then (m.nvJournal 4 0).endDone 0x23 [] else m.nvEnqueue { kind := .seal }

/-- OPCMD 0x04: write a record (R421, R422). -/
def Chip.nvRecWrite (m : Chip) (o : LongOp) : Chip :=
  let a := o.arg % 2048
  let len := bitsOf o.arg 16 8
  if 240 < len then m.endErr 0x23 0x02 0
  else match m.recRefusal o.req a true with
  | some x => m.endErr 0x23 x 0
  | none => m.nvEnqueue { kind := .record, req := o.req, page := a, payload := m.recBuf len }

/-- OPCMD 0x05: read a record (R420, R422). -/
def Chip.nvRecRead (m : Chip) (o : LongOp) : Chip :=
  let a := o.arg % 2048
  match m.recRefusal o.req a false with
  | some x => m.endErr 0x23 x 0
  | none =>
    let r := m.recReadTold a
    let m := if r.1.absent then r.2 else r.2.setRecBuf r.1.payload
    m.endDone 0x23 [BitVec.ofNat 32 r.1.seq, BitVec.ofNat 32 (r.1.len + 256 * r.1.bank + 512 * b2n r.1.tied +
      1024 * b2n r.1.absent + 2048 * b2n r.1.oneBad)]

/-- OPCMD 0x06: recall scan on demand (R418). -/
def Chip.nvRecall (m : Chip) : Chip :=
  if m.nvBusy then m.endErr 0x23 0x14 0 else { m with nv := { m.nv with recalling := true } }

/-- OPCMD 0x07: set a region (R403, R430). DEDUCED, unsafe (log 68). -/
def Chip.nvSetRegion (m : Chip) (o : LongOp) : Chip :=
  let k := o.arg % 16
  let g : NvRegion := ⟨bitsOf o.arg 4 7, bitsOf o.arg 11 7, bitsOf o.arg 18 2⟩
  if 8 ≤ k ∨ g.owner = 3 then m.endErr 0x23 0x02 0
  else if !m.unlockedFor o.req 0x23 then m.endErr 0x23 0x04 0
  else if !m.nv.mayAccess o.req k true then m.endErr 0x23 0x11 0
  else if 120 < g.base + g.size ∨ regionOverlaps m.nv.regions k g then m.endErr 0x23 0x12 0
  else m.nvEnqueue { kind := .region, arg := o.arg, req := o.req, page := 0x7F0,
                     payload := regionPayload (setAt m.nv.regions k g) }

/-- OPCMD 0x08: set a password (R406, R430). -/
def Chip.nvSetPassword (m : Chip) (o : LongOp) : Chip :=
  let k := o.arg % 16
  let write := bit o.arg 4
  if 9 ≤ k then m.endErr 0x23 0x02 0
  else if !m.unlockedFor o.req 0x23 then m.endErr 0x23 0x04 0
  else if !m.nv.mayAccess o.req k write then m.endErr 0x23 0x11 0
  else
    let old := (m.nv.pwds[k]?).getD (0, 0)
    let new := if write then (old.1, m.nv.pwNew) else (m.nv.pwNew, old.2)
    m.nvEnqueue { kind := .password, arg := o.arg, req := o.req, page := 0x7F2,
                  payload := pwdPayload (setAt m.nv.pwds k new) }

/-- The NVM page has accepted a command (R430). -/
def Chip.nvOpStart (m : Chip) : Chip :=
  match m.opOf 0x23 with
  | none => m
  | some o =>
    if o.cmd = 0 ∨ 8 < o.cmd then m.endErr 0x23 0x01 0
    else if m.nvClosed then m.endErr 0x23 0x13 0
    else if o.cmd ≤ 2 ∧ m.has 0x23 NVM_CFG_MODE then m.endErr 0x23 0x10 0
    else match o.cmd with
    | 1 => m.nvCommit
    | 2 => m.nvDiscard
    | 3 => m.nvSeal
    | 4 => m.nvRecWrite o
    | 5 => m.nvRecRead o
    | 6 => m.nvRecall
    | 7 => m.nvSetRegion o
    | _ => m.nvSetPassword o

/-- A command with its argument at the NVM page. -/
def Chip.nvCommand (m : Chip) (r cmd : Nat) (arg : Word) : Chip :=
  (m.wr (0x23 * 0x400 + 0x24) arg).startOp 0x23 cmd r Chip.nvOpStart

/-- Is the job one of OPCMD on the NVM page? -/
def NvKind.ofPage : NvKind → Bool
  | .commit | .record | .region | .password | .seal => true
  | _ => false

/-- The word in progress of an operation that stops completes, a page it completes frees its slot (R411, R412), and the
operation's end goes into the journal. -/
def Chip.nvLastWord (m : Chip) (j : NvJob) : Chip :=
  let x : Chip × Nat := match m.nv.inWord, j.todo with
    | true, (p, [w]) :: _ =>
      let m := (m.nvWordDone j p w).2
      (if j.kind == NvKind.commit then { m with nv := m.nv.freeSlot p } else m, j.done + 1)
    | true, (p, w :: _) :: _ => ((m.nvWordDone j p w).2, j.done)
    | _, _ => (m, j.done)
  if x.1.nvPermitted && j.kind != NvKind.seal then x.1.nvJournal 3 x.2 else x.1

/-- An abort of the NVM page's operation (R37, R412, R418): the word in progress completes, what was not written keeps
its slot, a scan ends at the word it has reached. DESIGN CHOICE, safe (log 3); DEDUCED, unsafe (log 62); DESIGN
CHOICE, safe (log 67). -/
def Chip.nvAbort (m : Chip) : Chip :=
  let prog := m.get 0x23 HDR_STATUS_PROGRESS
  let m := if m.nv.recalling then
      let f := m.freeWord
      let s := f.2.nvScan (f.1.toNat % 65536)
      ({ s.2 with nv := { s.2.nv with recalling := false } }).put 0x23 NVM_RCSTAT_UNC (satU 11 s.1)
    else
      let m := match m.nv.cur with
        | some j =>
          if j.kind.ofPage then
            let m := m.nvLastWord j
            { m with nv := { m.nv with cur := none, inWord := false, pause := false } }
          else m
        | none => m
      { m with nv := { m.nv with wait := m.nv.wait.filter (fun j => !j.kind.ofPage) } }
  (m.endErr 0x23 0x05 prog).nvKick

/-! ### The compatibility interface (R424) -/

/-- CPCMD with GO: a page write of the latch, or CPSTAT.ERR. DEDUCED, unsafe (log 65). -/
def Chip.cpGo (m : Chip) (page : Nat) : Chip :=
  match m.nv.latch with
  | some s =>
    if m.has 0x23 NVM_CPSTAT_BUSY then m.put 0x23 NVM_CPSTAT_ERR 1
    else if s.page = page then
      let m := (m.put 0x23 NVM_CPSTAT_BUSY 1)
      m.nvEnqueue { kind := .compat, todo := [(s.page, s.words)], total := 1 }
    else m.put 0x23 NVM_CPSTAT_ERR 1
  | none => m.put 0x23 NVM_CPSTAT_ERR 1

/-! ### VIN (R407, R416) -/

/-- VIN was measured: the register, and whether VIN inhibits writes (R407, R432). -/
def Chip.vinSeen (m : Chip) (vin : Nat) : Chip := (m.put 0x23 NVM_VIN_V vin).putB 0x23 NVM_STAT_INHVIN m.nv.vinLow

/-- VIN was measured below BOWLVL. DEDUCED, unsafe (log 63); DEDUCED, safe (log 91). -/
def Chip.brownFall (m : Chip) (vin : Nat) : Chip :=
  let m := m.vinSeen vin
  if m.nv.vinLow ∨ 10 * m.get 0x23 NVM_CFG_BOWLVL ≤ vin then m
  else
    let m := ({ m with nv := { m.nv with vinLow := true } }).put 0x23 NVM_STAT_INHVIN 1
    if m.nvBusy || !m.has 0x22 THM_STAT_NVMOK then m
    else m.nvJournal 5 (m.nv.slots.filter Option.isSome).length

/-- VIN was measured at BOWLVL + HYS or above. DEDUCED, safe (log 91). -/
def Chip.brownRise (m : Chip) (vin : Nat) : Chip :=
  let m := m.vinSeen vin
  if vin < 10 * m.get 0x23 NVM_CFG_BOWLVL + 5 * m.get 0x23 NVM_CFG_HYS then m
  else
    let since := if m.nv.vinLow then m.tim.tick else m.nv.vinTick
    (({ m with nv := { m.nv with vinLow := false, vinTick := since } }).put 0x23 NVM_STAT_INHVIN 0).nvKick

/-! ### Commands -/

/-- NVM_WINDOW_WRITE (R410). -/
def execNvmWindowWrite (r : Requester) (off : BitVec 19) (v : Word) (s : State) : Host.Outcome State Fault Refusal :=
  s.run (fun m => (m.nvWrite (reqCode r) off.toNat v.toNat).2)

/-- NVM_COMMIT (R411). DESIGN CHOICE, safe (log 29). -/
def execNvmCommit (r : Requester) (s : State) : Host.Outcome State Fault Refusal :=
  s.run (fun m => m.startOp 0x23 1 (reqCode r) Chip.nvOpStart)

/-- NVM_DISCARD (R412). -/
def execNvmDiscard (r : Requester) (s : State) : Host.Outcome State Fault Refusal :=
  s.run (fun m => m.startOp 0x23 2 (reqCode r) Chip.nvOpStart)

/-- NVM_SEAL (R416). -/
def execNvmSeal (r : Requester) (s : State) : Host.Outcome State Fault Refusal :=
  s.run (fun m => m.startOp 0x23 3 (reqCode r) Chip.nvOpStart)

/-- NVM_RECORD_WRITE (R421). -/
def execNvmRecordWrite (r : Requester) (arg : Word) (s : State) : Host.Outcome State Fault Refusal :=
  s.run (fun m => m.nvCommand (reqCode r) 4 arg)

/-- NVM_RECORD_READ (R420). -/
def execNvmRecordRead (r : Requester) (arg : Word) (s : State) : Host.Outcome State Fault Refusal :=
  s.run (fun m => m.nvCommand (reqCode r) 5 arg)

/-- NVM_RECALL_SCAN (R418). -/
def execNvmRecallScan (r : Requester) (s : State) : Host.Outcome State Fault Refusal :=
  s.run (fun m => m.startOp 0x23 6 (reqCode r) Chip.nvOpStart)

/-- NVM_SET_REGION (R403). -/
def execNvmSetRegion (r : Requester) (arg : Word) (s : State) : Host.Outcome State Fault Refusal :=
  s.run (fun m => m.nvCommand (reqCode r) 7 arg)

/-- NVM_SET_PASSWORD (R406). -/
def execNvmSetPassword (r : Requester) (arg : Word) (s : State) : Host.Outcome State Fault Refusal :=
  s.run (fun m => m.nvCommand (reqCode r) 8 arg)

/-- BROWNOUT_FALL (R407): VIN, in 10 mV. DEDUCED, safe (log 91). -/
def execBrownoutFall (vin : BitVec 16) (s : State) : Host.Outcome State Fault Refusal :=
  s.run (fun m => m.brownFall vin.toNat)

/-- BROWNOUT_RECOVER (R407): VIN, in 10 mV. DEDUCED, safe (log 91). -/
def execBrownoutRecover (vin : BitVec 16) (s : State) : Host.Outcome State Fault Refusal :=
  s.run (fun m => m.brownRise vin.toNat)

/-- PWD_WRITE (R406). -/
def execPwdWrite (r : Requester) (v : Word) (s : State) : Host.Outcome State Fault Refusal :=
  s.run (fun m => m.pwdWrite (reqCode r) v.toNat)

/-- Has a bar on a requester stood for 1 s (R406)? -/
def Chip.pwBarDue (m : Chip) (r : Nat) : Bool :=
  m.nv.barred.contains r && decide (secTicks ≤ m.ticksSince ((Sparse.find m.nv.barAt r).getD 0))

/-- PASSWORD_BAR_EXPIRY (R406). -/
def execPasswordBarExpiry (r : Requester) (s : State) : Host.Outcome State Fault Refusal :=
  s.run (fun m =>
    if m.pwBarDue (reqCode r) then
      { m with nv := { m.nv with barred := dropAll m.nv.barred (reqCode r), barAt := Sparse.drop m.nv.barAt (reqCode r) } }
    else m)

/-- NVM_MODE_WRITE (R423): a write of NVM.CFG. -/
def execNvmModeWrite (r : Requester) (v : Word) (s : State) : Host.Outcome State Fault Refusal :=
  s.run (fun m => m.onUnlocked (reqCode r) 0x23 0x040 v.toNat (fun m => m.nvCfgWrite v.toNat))

/-- CPCMD_GO (R424): a write of NVM.CPCMD with GO = 1. -/
def execCpcmdGo (r : Requester) (page : BitVec 11) (s : State) : Host.Outcome State Fault Refusal :=
  s.run (fun m => m.onPage (reqCode r) 0x23 (fun m => m.cpGo page.toNat))

end Sys2Proof.Machine
end

