-- ==== Sys2Proof/Machine/Battery.lean ====
section
/-! DEFINITION. Battery estimation (R298–R328): configuration, the account of charge, rest and re-anchor, cut-off and
full, disagreement, learning, stored records, warning levels and the charging window. -/

namespace Sys2Proof.Machine

/-- The page of a string. -/
def batPg (s : Nat) : Nat := 0x19 + s

/-- A field of a string's page. -/
def Chip.bg (m : Chip) (f : Fld) (s : Nat) (i : Nat := 0) : Nat := m.get (batPg s) f i

/-- Store a field of a string's page. -/
def Chip.bp (m : Chip) (f : Fld) (s v : Nat) : Chip := m.put (batPg s) f v

/-- A string outside its registers. -/
def Chip.batSt (m : Chip) (s : Nat) : BatSt := (m.bat[s]?).getD {}

/-- Change a string outside its registers. -/
def Chip.modBat (m : Chip) (s : Nat) (f : BatSt → BatSt) : Chip :=
  { m with bat := setAt m.bat s (f (m.batSt s)) }

/-- Units of 2⁻³⁹ nC in 1 mC. DESIGN CHOICE, safe (log 51). -/
def batUnit : Nat := 1000000 * 2 ^ 39

/-- A Depot entry of the battery source, a result of the last waypoint boundary (R387, R388). DEDUCED, unsafe (log
53). -/
def Chip.batDepot (m : Chip) (tag s level : Nat) : Chip :=
  m.depotAt 18 tag (s + level * 256 + m.bg BAT_SOC_SOC s * 2 ^ 16 + m.bg BAT_Q_Q s * 2 ^ 32) m.tim.wpStamp

/-! ### Configuration (R302) -/

/-- Is a list of integers strictly rising? -/
def strictlyUp : List Int → Bool
  | a :: b :: t => decide (a < b) && strictlyUp (b :: t)
  | _ => true

/-- Is a string's configuration valid (R302)? -/
def Chip.batValid (m : Chip) (s : Nat) : Bool :=
  let g := fun f => m.bg f s
  g BAT_QRATED_Q != 0 &&
  strictlyUp ((List.range 11).map (fun k => m.getS (batPg s) BAT_OCV_V k)) &&
  strictlyUp [m.getS (batPg s) BAT_VEOD_V, m.getS (batPg s) BAT_VFCHK_V, m.getS (batPg s) BAT_VEOC_V] &&
  decide (g BAT_EODW_W2 < g BAT_EODW_W1) && decide (g BAT_EODW_W3 < g BAT_EODW_W2) &&
  decide (g BAT_EOCW_W1 < g BAT_EOCW_W2) && decide (g BAT_EOCW_W2 < g BAT_EOCW_W3)

/-- CFGERR and its IRQ bit. -/
def Chip.batCfgErr (m : Chip) (s : Nat) : Chip := (m.bp BAT_STAT_CFGERR s 1).irq (batPg s) 13

/-- A write of a configuration register of a string: CEFF is clamped; one that would make a running configuration
invalid is dropped; one of a threshold restarts the counts of waypoints. -/
def Chip.batCfgWrite (m : Chip) (r addr v : Nat) : Chip :=
  let s := addr / 0x400 - 0x19
  let o := addr % 0x400
  let n := m.plainWrite r addr v
  let n := if o = BAT_CFG_CEFF.off then n.bp BAT_CFG_CEFF s (clampN 0x4000 0x8000 (n.bg BAT_CFG_CEFF s)) else n
  if m.bg BAT_STAT_SVC s ≠ 0 ∧ !n.batValid s then m.batCfgErr s
  else if BAT_RINT_R.off = o ∨ (BAT_EODW_HYS.off ≤ o ∧ o < BAT_REST_ANCTOL.off) then
    n.modBat s (fun b => { b with lowRun := 0, highRun := 0, ocvRun := 0 })
  else n

/-! ### The account as registers show it (R303) -/

/-- The registers that show the account: Q, SOC and SOH (R303). -/
def Chip.batShow (m : Chip) (s : Nat) : Chip :=
  let b := m.batSt s
  let cap := m.bg BAT_QLRN_Q s
  let rated := m.bg BAT_QRATED_Q s
  let m := m.bp BAT_Q_Q s (b.q / batUnit)
  let m := m.bp BAT_SOC_SOC s (if b.waiting ∨ cap = 0 then 0 else b.q * 10000 / (cap * batUnit))
  m.bp BAT_SOC_SOH s (if rated = 0 then 0 else satU 16 (cap * 10000 / rated))

/-- A new learned capacity applies at once: Q stays within it (R303, R317, R324). -/
def Chip.batNewCap (m : Chip) (s cap : Nat) : Chip :=
  ((m.bp BAT_QLRN_Q s cap).modBat s (fun b => { b with q := Nat.min b.q (cap * batUnit) })).batShow s

/-! ### Services (R301) -/

/-- A change of service. -/
def Chip.batSvc (m : Chip) (s toSt : Nat) : Chip :=
  let old := m.bg BAT_STAT_SVC s
  if old = toSt then m else (m.bp BAT_STAT_SVC s toSt).emit 0x500C [s, old, toSt]

/-- NORMAL becomes RECOVERY (R301, R312, R313). -/
def Chip.batRecover (m : Chip) (s : Nat) : Chip := if m.bg BAT_STAT_SVC s = 2 then m.batSvc s 4 else m

/-! ### Stored records (R320–R322) -/

/-- Do two adjacent pages lie in one general region (R321)? -/
def NvSt.recordPages (nv : NvSt) (p : Nat) : Bool :=
  match nv.regionOf p, nv.regionOf (p + 1) with
  | some k, some k' => k == k' && nv.ownerOf k == 0
  | _, _ => false

/-- The page of a string's record by its RECPG at the last entry into STARTUP; a lower string keeps a page both name. -/
def Chip.batRecPage (m : Chip) (s : Nat) : Option Nat :=
  let on := fun k => bit (m.batSt k).recpg 31
  let page := fun k => (m.batSt k).recpg % 2048
  if on s && m.nv.recordPages (page s) &&
      (List.range s).all (fun k => !(on k && m.nv.recordPages (page k) && decide (page k ≤ page s + 1) &&
        decide (page s ≤ page k + 1))) then some (page s) else none

/-- The record of a string is placed where RECPG says; a higher string that names one of its pages has none from then on
(R321). -/
def Chip.batPlace (m : Chip) (s : Nat) : Chip :=
  let m := m.modBat s (fun b => { b with recPage := m.batRecPage s })
  match (m.batSt s).recPage with
  | none => m
  | some p =>
    (List.range (nStrings m.die.part)).foldl (fun m k =>
      match (m.batSt k).recPage with
      | some q =>
        if s < k ∧ p ≤ q + 1 ∧ q ≤ p + 1 then
          (m.modBat k (fun b => { b with recPage := none })).bp BAT_STAT_NOREC k 1
        else m
      | none => m) m

/-- A string without a record reads NOREC = 1 (R321). -/
def Chip.batNoRec (m : Chip) (s : Nat) : Chip := if (m.batSt s).recPage.isNone then m.bp BAT_STAT_NOREC s 1 else m

/-- TEST ends (R301). An entry into STARTUP takes up RECPG (R321). -/
def Chip.batLeaveTest (m : Chip) (s : Nat) : Chip :=
  if m.bg BAT_STAT_SVC s ≠ 3 then m
  else if m.has (batPg s) BAT_STAT_LOWCONF || (m.batSt s).waiting then
    let m := m.modBat s (fun b => { b with recpg := (m.rd (BAT_RECPG_PAGE.addr (batPg s))).toNat })
    (if (m.batSt s).waiting then m else (m.batPlace s).batNoRec s).batSvc s 1
  else if m.has (batPg s) BAT_STAT_EODCUT || m.has (batPg s) BAT_STAT_DISE || m.has (batPg s) BAT_STAT_DISF then m.batSvc s 4
  else m.batSvc s 2

/-- The payload of a string's record (R320). -/
def Chip.batPayload (m : Chip) (s lact : Nat) : List Nat :=
  bytesOf 4 (m.bg BAT_QLRN_Q s) ++ bytesOf 4 (m.bg BAT_QRATED_Q s) ++ bytesOf 2 (m.bg BAT_LRNST_LCOUNT s) ++
    [lact, m.bg BAT_LRNST_LREASON s] ++ bytesOf 4 (m.bg BAT_LRNCYC_CYCLE s)

/-- The write of a string's record: issued, or kept pending while VIN is low (R320–R322). Was it issued, or is there no
record? -/
def Chip.batRecWrite (m : Chip) (s lact : Nat) : Bool × Chip :=
  match (m.batSt s).recPage with
  | none => (true, m)
  | some p =>
    let pay := m.batPayload s lact
    if m.nv.vinLow || m.has (batPg s) BAT_STAT_LPEND then
      (false, ((m.bp BAT_QPEND_Q s (m.bg BAT_QLRN_Q s)).bp BAT_STAT_LPEND s 1).modBat s (fun b =>
        { b with pend := pay, pendPage := p }))
    else (true, m.nvEnqueue { kind := .battery, arg := s, page := p, payload := pay })

/-! ### Learning (R315–R319) -/

/-- The capacity test ends: TEST is left (R301, R319). DEDUCED, unsafe (log 53). -/
def Chip.batTestEnd (m : Chip) (s : Nat) (good : Option (List Word)) : Chip :=
  match m.opOf (batPg s) with
  | some o =>
    if o.cmd ≠ 1 then m
    else match good with
    | some ps => (m.endDone (batPg s) ps).batLeaveTest s
    | none => (m.endErr (batPg s) 0x11 (m.bg BAT_LRNST_LREASON s)).batLeaveTest s
  | none => m

/-- A learning cycle is disqualified (R318). -/
def Chip.batDisqualify (m : Chip) (s reason : Nat) : Chip :=
  if !m.has (batPg s) BAT_STAT_LACT then m
  else
    let m := ((m.bp BAT_STAT_LACT s 0).bp BAT_LRNST_LREASON s reason).irq (batPg s) 10
    let m := (m.count (batPg s) BAT_CNT_DISQ).batRecWrite s 0
    ((m.2).emit 0x5008 [s, reason]).batTestEnd s none

/-- The net discharged charge of the open cycle in mC (R316). -/
def BatSt.net (b : BatSt) : Int := divFloor ((b.dis : Int) - b.chg) batUnit

/-- A learning cycle ends at a state of charge (R317, R318). DEDUCED, unsafe (log 53). -/
def Chip.batLearnEnd (m : Chip) (s socEnd : Nat) : Chip :=
  let b := m.batSt s
  if !m.has (batPg s) BAT_STAT_LACT then m
  else if ((b.dis : Int) - b.chg) * 16 < (m.bg BAT_LRNC_LRNIMIN s * 5 * 2 ^ 39 * b.ticks : Nat) then m.batDisqualify s 4
  else
    let span : Int := (b.lstart : Int) - socEnd
    if span < 100 * m.bg BAT_LRNA_LRNSPAN s ∨ span ≤ 0 then m.batDisqualify s 9
    else
      let old : Int := m.bg BAT_QLRN_Q s
      let qnew := divFloor (b.net * 10000) span
      if m.bg BAT_LRNA_LRNMAXD s * old < 100 * absI (qnew - old) then m.batDisqualify s 10
      else
        let q := old + divFloor (qnew - old) (2 ^ m.bg BAT_LRNB_LRNAVG s)
        let m := ((m.batNewCap s (ux 32 q)).count (batPg s) BAT_LRNST_LCOUNT).bp BAT_STAT_LACT s 0
        let m := (m.irq (batPg s) 9).emit 0x5007 [s, up qnew.toNat, up q.toNat]
        let m := ((m.batRecWrite s 0).2).batDepot 5 s 0
        m.batTestEnd s (some [BitVec.ofInt 32 qnew, BitVec.ofInt 32 q, BitVec.ofInt 32 (span % 65536),
          BitVec.ofNat 32 ((m.tim.cycle + 2 ^ 32 - m.bg BAT_LRNCYC_CYCLE s) % 2 ^ 32)])

/-- The pack temperature in 1/16 °C. -/
def Chip.packT (m : Chip) (s : Nat) : Int := m.getS (batPg s) BAT_PACKT_T

/-- Does the pack temperature lie in the learning window, where there is pack data (R300, R315)? -/
def Chip.learnTemp (m : Chip) (s : Nat) : Bool :=
  m.bg BAT_CFG_PMSCTX s == 0 || (!m.has (batPg s) BAT_STAT_TUNK &&
    decide (16 * m.getS (batPg s) BAT_LRNB_LRNTMIN ≤ m.packT s) && decide (m.packT s ≤ 16 * m.getS (batPg s) BAT_LRNB_LRNTMAX))

/-- The first discharge after a qualified rest may start a learning cycle (R315). -/
def Chip.batLearnStart (m : Chip) (s : Nat) : Chip :=
  match (m.batSt s).restSoc with
  | none => m
  | some soc =>
    let m := m.modBat s (fun b => { b with restSoc := none })
    let svc := m.bg BAT_STAT_SVC s
    let flags := m.has (batPg s) BAT_STAT_LOWCONF || m.has (batPg s) BAT_STAT_DISE || m.has (batPg s) BAT_STAT_DISF
    if (svc == 2 || svc == 3) && !(m.batSt s).waiting && !flags && decide (100 * m.bg BAT_LRNA_LRNHI s ≤ soc) && m.learnTemp s && m.nvPermitted
        && !m.has (batPg s) BAT_STAT_LPEND && !m.has (batPg s) BAT_STAT_LACT then
      let old := m.bg BAT_LRNCYC_CYCLE s
      let w := (m.bp BAT_LRNCYC_CYCLE s m.tim.cycle).batRecWrite s 1
      if w.1 then
        let m := ((w.2.bp BAT_LRNST_LSTART s ((soc + 50) / 100)).bp BAT_STAT_LACT s 1).bp BAT_LRNDQ_DQ s 0
        (m.modBat s (fun b => { b with lstart := soc, dis := 0, chg := 0, hist := [], ticks := 0 })).emit 0x5006
          [s, (soc + 50) / 100]
      else w.2.bp BAT_LRNCYC_CYCLE s old
    else m

/-- The reason an open cycle is disqualified in this waypoint, the lowest first (R318). -/
def Chip.batReason (m : Chip) (s : Nat) (ovr : Bool) : Option Nat :=
  let b := m.batSt s
  let pack := m.bg BAT_CFG_PMSCTX s != 0
  let unk := m.has (batPg s) BAT_STAT_TUNK
  let sum := b.hist.foldl (fun (a : Int × Nat) x => (a.1 + x.1, a.2 + x.2)) (0, 0)
  let hours := if m.bg BAT_LRND_LRNMAXH s = 0 then 1 else m.bg BAT_LRND_LRNMAXH s
  let stale := fun c => bit (m.get 5 CAL_STAT_STALE) c
  if pack && !unk && !m.learnTemp s then some 1
  else if pack && unk then some 2
  else if b.hist.length == 256 && decide ((m.bg BAT_LRNC_LRNIMAX s * 5 * 2 ^ 24 * sum.2 : Nat) < -sum.1 * 16) then some 3
  else if decide (m.bg BAT_LRNB_LRNCHG s * m.bg BAT_QLRN_Q s * batUnit < 100 * b.chg) then some 5
  else if decide (hours * 720000000000 < b.ticks) then some 6
  else if m.has (batPg s) BAT_STAT_DISE || m.has (batPg s) BAT_STAT_DISF then some 7
  else if ovr || stale (12 + s) || stale (19 + s) || (m.metCh (12 + s)).bad then some 8
  else none

/-! ### Voltage and charge (R299, R303, R304) -/

/-- SOCOCV of a compensated voltage (R304), in 0.01 %. -/
def Chip.socOcv (m : Chip) (s : Nat) (v : Int) : Nat :=
  let p := fun k => m.getS (batPg s) BAT_OCV_V k
  if v ≤ p 0 then 0
  else match (List.range 10).find? (fun k => decide (v ≤ p (k + 1))) with
  | some k => (1000 * (k : Int) + divNear (1000 * (v - p k)) (p (k + 1) - p k).toNat).toNat
  | none => 10000

/-- Q takes a state of charge in 0.01 % of QLRN (R305, R308). -/
def Chip.batSetSoc (m : Chip) (s soc : Nat) : Chip :=
  (m.modBat s (fun b => { b with q := soc * m.bg BAT_QLRN_Q s * batUnit / 10000 })).batShow s

/-- A re-anchor (R308). -/
def Chip.batAnchor (m : Chip) (s : Nat) : Chip :=
  let before := m.bg BAT_SOC_SOC s
  let ocv := m.bg BAT_SOCOCV_SOC s
  let m := m.batSetSoc s ocv
  let m := (((m.bp BAT_STAT_LOWCONF s 0).bp BAT_STAT_DISE s 0).bp BAT_STAT_DISF s 0).bp BAT_STAT_EODCUT s 0
  let m := ((m.irq (batPg s) 8).count (batPg s) BAT_CNT_ANCHORS).emit 0x5005 [s, before, ocv, m.bg BAT_RESTM_MIN s]
  let m := m.batDepot 6 s 0
  if m.bg BAT_STAT_SVC s = 1 ∨ m.bg BAT_STAT_SVC s = 4 then m.batSvc s 2 else m

/-! ### The waypoint (R298, R314) -/

/-- What a boundary brings a string: charge of the waypoint in 2⁻²⁴ nC, its ticks, over-range, whether the voltage tests
use it, and whether it is held. -/
structure BatIn where
  dq : Int
  ticks : Nat
  ovr : Bool
  usable : Bool
  held : Bool

/-- The input of a string at the boundary. DEDUCED, unsafe (log 52). -/
def Chip.batIn (m : Chip) (s : Nat) : BatIn :=
  let has := fun f c => m.has 3 f c
  let ovr := has MEA_WP_OVR (12 + s) || has MEA_WP_OVR (19 + s)
  { dq := ((m.met.wp[12 + s]?).getD (0, 0)).1, ticks := m.met.ticks, ovr := ovr,
    usable := bit m.mea.resOk (12 + s) && bit m.mea.resOk (19 + s) && !ovr && m.met.ticks != 0 &&
      atN m.met.scale (19 + s) != 0,
    held := has MEA_WP_HELD (12 + s) || has MEA_WP_HELD (19 + s) }

/-- Pack temperature known or unknown (R300). DEDUCED, unsafe (log 52). -/
def Chip.batTunk (m : Chip) (s : Nat) : Chip :=
  let c := m.bg BAT_CFG_PMSCTX s
  let x := m.ctx c
  let lim := if m.bg BAT_CFG_TSTALE s = 0 then 1 else m.bg BAT_CFG_TSTALE s
  let old := decide (lim < (m.tim.cycle + 2 ^ 32 - x.stamp.cycle) % 2 ^ 32)
  m.bp BAT_STAT_TUNK s (b2n (c != 0 && (x.state != 2 || old)))

/-- The compensated voltage and the mean current (R299), where the waypoint is usable. DEDUCED, unsafe (log 52). -/
def Chip.batVolt (m : Chip) (s : Nat) (x : BatIn) : Chip :=
  if !x.usable then m
  else
    let drop := divFloor (x.dq * m.bg BAT_RINT_R s * 2 ^ 16) (x.ticks * 5 * 1000000 * atN m.met.scale (19 + s))
    let v := satS 24 (m.wpCode (19 + s) - drop)
    let m := m.putS (batPg s) BAT_VCOMP_V v
    let m := m.putS (batPg s) BAT_IMEAN_I (satS 16 (divFloor (x.dq * 16) (x.ticks * 5 * 2 ^ 24)))
    m.bp BAT_SOCOCV_SOC s (m.socOcv s v)

/-- The Q update of R303: the charge with its efficiency, in 2⁻³⁹ nC, and the machine after. DESIGN CHOICE, safe (log
51). -/
def Chip.batCharge (m : Chip) (s : Nat) (x : BatIn) : Int × Chip :=
  let q : Int := if 0 < x.dq then x.dq * m.bg BAT_CFG_CEFF s else x.dq * 2 ^ 15
  if (m.batSt s).waiting then (q, m)
  else
    let cap := m.bg BAT_QLRN_Q s * batUnit
    (q, (m.modBat s (fun b => { b with q := (clampI 0 cap (b.q + q)).toNat })).batShow s)

/-- A run of waypoints: counted on a usable one that meets the test, ended by one that does not. DEDUCED, unsafe (log
52). -/
def runNext (n : Nat) (usable test : Bool) : Nat := if usable then (if test then satInc 8 n else 0) else n

/-- The cut-off (R310). A learning cycle it ends is closed later in the boundary (R314). -/
def Chip.batCut (m : Chip) (s : Nat) (x : BatIn) : Chip :=
  let b := m.batSt s
  let v := m.getS (batPg s) BAT_VCOMP_V
  let low := runNext b.lowRun x.usable (decide (v ≤ m.getS (batPg s) BAT_VEOD_V))
  let ocv := runNext b.ocvRun x.usable (decide (m.getS (batPg s) BAT_OCV_V 1 ≤ v))
  let cell := m.has (batPg s) BAT_CFG_CELLEN && !m.has (batPg s) BAT_STAT_TUNK &&
    decide (m.bg BAT_PACKV_VMIN s ≤ m.bg BAT_CELL_CELLMIN s)
  let hold := decide (4 ≤ low) || cell
  let m := m.modBat s (fun b => { b with lowRun := low, ocvRun := ocv, cutWas := hold })
  if hold && !b.cutWas then
    let before := m.bg BAT_SOC_SOC s
    let m := (m.modBat s (fun b => { b with q := 0 })).batShow s
    let m := ((m.bp BAT_STAT_EODCUT s 1).irq (batPg s) 6).raise (92 + s)
    let m := (m.emit 0x5002 [s, sp v, before, if 4 ≤ low then 1 else 2]).batDepot 3 s 0
    m.batRecover s
  else if 16 ≤ ocv then m.bp BAT_STAT_EODCUT s 0 else m

/-- The count says empty and the voltage does not (R312). -/
def Chip.batDisE (m : Chip) (s : Nat) (x : BatIn) (q : Int) (oldQ : Nat) (cut : Bool) : Chip :=
  if x.usable && !cut && !(m.batSt s).waiting && decide (q < 0) && decide (0 < oldQ) && (m.batSt s).q == 0 &&
      decide (m.getS (batPg s) BAT_VEOD_V < m.getS (batPg s) BAT_VCOMP_V) && !m.has (batPg s) BAT_STAT_DISE then
    let m := ((m.bp BAT_STAT_DISE s 1).irq (batPg s) 7).emit 0x5004 [s, 1, 0, sp (m.getS (batPg s) BAT_VCOMP_V)]
    ((m.batDepot 4 s 1).batRecover s).batDisqualify s 7
  else m

/-- The full level (R311): FULLV holds with it, and after it until vcomp falls below VFCHK. -/
def Chip.batFull (m : Chip) (s : Nat) (x : BatIn) : Chip :=
  let b := m.batSt s
  let v := m.getS (batPg s) BAT_VCOMP_V
  let high := runNext b.highRun x.usable (decide (m.getS (batPg s) BAT_VEOC_V ≤ v))
  let cell := m.has (batPg s) BAT_CFG_CELLEN && !m.has (batPg s) BAT_STAT_TUNK &&
    decide (m.bg BAT_CELL_CELLMAX s ≤ m.bg BAT_PACKV_VMAX s)
  let hold := decide (4 ≤ high) || cell
  let stays := b.fullv && !(x.usable && decide (v < m.getS (batPg s) BAT_VFCHK_V))
  let m := m.modBat s (fun b => { b with highRun := high, fullWas := hold, fullv := hold || stays })
  if hold && !b.fullWas then m.emit 0x5003 [s, sp v, if 4 ≤ high then 1 else 2] else m

/-- The count says full and the voltage does not (R313). -/
def Chip.batDisF (m : Chip) (s : Nat) (x : BatIn) (q : Int) (oldSoc : Nat) : Chip :=
  let lim := 100 * m.bg BAT_EOCW_W3 s
  let soc := m.bg BAT_SOC_SOC s
  if x.usable && !(m.batSt s).waiting && decide (0 < q) && decide (oldSoc < lim) && decide (lim ≤ soc) &&
      decide (m.getS (batPg s) BAT_VCOMP_V < m.getS (batPg s) BAT_VFCHK_V) && !m.has (batPg s) BAT_STAT_DISF then
    let m := ((m.bp BAT_STAT_DISF s 1).irq (batPg s) 7).emit 0x5004 [s, 2, soc, sp (m.getS (batPg s) BAT_VCOMP_V)]
    ((m.batDepot 4 s 2).batRecover s).batDisqualify s 7
  else m

/-- The rest's time (R307): a waypoint of over-range leaves it as it was inside or outside. -/
def Chip.batRest (m : Chip) (s : Nat) (x : BatIn) : Chip :=
  let b := m.batSt s
  let inside := if x.ovr || x.ticks == 0 then b.inside
    else decide (absI x.dq * 16 ≤ m.bg BAT_REST_RESTI s * x.ticks * 5 * 2 ^ 24)
  let ticks := if inside then b.restTicks + x.ticks else 0
  let m := m.modBat s (fun b => { b with inside := inside, restTicks := ticks })
  let m := if inside then m else m.bp BAT_STAT_REST s 0
  m.bp BAT_RESTM_MIN s (satU 16 (ticks / 12000000000))

/-- The learning tests of a waypoint, and the end that the rise of the cut-off brings (R314–R316, R318). -/
def Chip.batLearn (m : Chip) (s : Nat) (x : BatIn) (q : Int) (cut : Bool) : Chip :=
  let below := decide (x.dq < 0) && !(m.batSt s).inside && x.ticks != 0
  let m := if below then m.batLearnStart s else m
  if !m.has (batPg s) BAT_STAT_LACT then m
  else
    let m := m.modBat s (fun b => { b with
      dis := if q < 0 then b.dis + absI q else b.dis, chg := if 0 < q then b.chg + absI q else b.chg,
      hist := ((x.dq, x.ticks) :: b.hist).take 256, ticks := b.ticks + x.ticks })
    let m := m.putS (batPg s) BAT_LRNDQ_DQ (satS 32 (m.batSt s).net)
    let m := match m.batReason s x.ovr with
      | some r => m.batDisqualify s r
      | none => if cut then m.batLearnEnd s 0 else m
    let start : Int := (m.batSt s).lstart
    let den := start - 100 * m.bg BAT_LRNA_LRNLO s
    if m.has (batPg s) BAT_STAT_LACT && (m.opOf (batPg s)).isSome then
      m.progress (batPg s) (clampI 0 254 (divFloor (254 * (start - m.bg BAT_SOC_SOC s)) den)).toNat
    else m

/-- A warning level rose (R309). -/
def Chip.batWarn (m : Chip) (s kind level : Nat) : Chip :=
  ((((m.irq (batPg s) (3 + kind)).raise (88 + s)).emit 0x5001 [s, kind, level, m.bg BAT_SOC_SOC s])).batDepot kind s level

/-- The warning levels (R309, R311). -/
def Chip.batLevels (m : Chip) (s : Nat) : Chip :=
  let soc := m.bg BAT_SOC_SOC s
  let hys := m.bg BAT_EODW_HYS s
  let normal := m.bg BAT_STAT_SVC s == 2
  let d := m.bg BAT_STAT_EODL s
  let c := m.bg BAT_STAT_EOCL s
  let dW := [m.bg BAT_EODW_W1 s, m.bg BAT_EODW_W2 s, m.bg BAT_EODW_W3 s]
  let cW := [m.bg BAT_EOCW_W1 s, m.bg BAT_EOCW_W2 s] ++ (if m.has (batPg s) BAT_STAT_DISF then [] else [m.bg BAT_EOCW_W3 s])
  let at_ := fun (l : List Nat) (held : Nat) (inn stay : Nat → Bool) =>
    ((List.range l.length).filter (fun k => inn (atN l k) || (decide (k < held) && stay (atN l k)))).length
  let d' := if normal then at_ dW d (fun w => decide (soc ≤ 100 * w)) (fun w => decide (soc ≤ 100 * (w + hys))) else 0
  let c' := if (m.batSt s).fullv then 3
    else if normal then at_ cW c (fun w => decide (100 * w ≤ soc)) (fun w => decide (100 * w ≤ soc + 100 * hys)) else 0
  let m := (m.bp BAT_STAT_EODL s d').bp BAT_STAT_EOCL s c'
  let m := if d < d' then m.batWarn s 1 d' else m
  if c < c' then m.batWarn s 2 c' else m

/-- The charging window (R325). DESIGN CHOICE, safe (log 3). -/
def Chip.batWindow (m : Chip) (s : Nat) : Chip :=
  let unk := m.has (batPg s) BAT_STAT_TUNK
  let t := m.packT s
  let lo := 16 * m.getS (batPg s) BAT_TWIN_TCMIN
  let hi := 16 * m.getS (batPg s) BAT_TWIN_TCMAX
  let h : Int := 16 * m.bg BAT_TWIN_THYS s
  let was := m.has (batPg s) BAT_STAT_CHGINH
  let inh := if m.bg BAT_CFG_PMSCTX s = 0 then false
    else if unk || decide (t < lo) || decide (hi < t) then true
    else if decide (lo + h ≤ t) && decide (t ≤ hi - h) then false else was
  let m := m.bp BAT_STAT_CHGINH s (b2n inh)
  if inh && !was then
    let f := if unk then m.freeWord else (BitVec.ofInt 32 (sp t), m)
    (f.2.irq (batPg s) 11).emit 0x500B [s, f.1.toNat % 2 ^ 24]
  else m

/-- Will the string that still waits have no record: RECEN = 0, or its pages not in one region with OWNER 0, or a lower
string's (R321)? While the store is closed its regions are not known. -/
def Chip.batNoPage (m : Chip) (s : Nat) : Bool :=
  !bit (m.batSt s).recpg 31 || (!m.nvClosed && (m.batRecPage s).isNone)

/-- A capacity set while the string waits completes once it is known to have no record (R321, R324). -/
def Chip.batCapNone (m : Chip) (s : Nat) : Chip :=
  match m.opOf (batPg s) with
  | some o => if o.cmd == 2 && (m.batSt s).waiting && (m.batSt s).capSet && m.batNoPage s then m.endDone (batPg s) [] else m
  | none => m

/-- One string at a waypoint boundary, in the order of R314; the charging window is judged in every service. DEDUCED,
unsafe (log 52). -/
def Chip.batStep (m : Chip) (s : Nat) : Chip :=
  let m := (m.batTunk s).batCapNone s
  if m.bg BAT_STAT_SVC s = 0 then m.batWindow s
  else
    let x := m.batIn s
    let oldQ := (m.batSt s).q
    let oldSoc := m.bg BAT_SOC_SOC s
    let c := m.batCharge s x
    let m := c.2.batVolt s x
    let m := m.modBat s (fun b => { b with clean := x.usable && !x.held })
    let held := (m.batSt s).cutWas
    let m := m.batCut s x
    let cut := (m.batSt s).cutWas && !held
    let m := (m.batDisE s x c.1 oldQ cut).batFull s x
    let m := (m.batDisF s x c.1 oldSoc).batRest s x
    ((m.batLearn s x c.1 cut).batLevels s).batWindow s

/-- The estimators at a waypoint boundary, alongside stage 3 (R298). -/
def Chip.batStage (m : Chip) : Chip := (List.range (nStrings m.die.part)).foldl Chip.batStep m

/-! ### Start, rest and requests -/

/-- The string's record is read at start (R305, R306, R323); a capacity that OPCMD 0x02 has set meanwhile stands
(R324). -/
def Chip.batReadRecord (m : Chip) (s : Nat) : Chip :=
  let cap := fun (m : Chip) (q : Nat) => if (m.batSt s).capSet then m else m.bp BAT_QLRN_Q s q
  let none_ := fun (m : Chip) => (cap m (m.bg BAT_QRATED_Q s)).bp BAT_STAT_NOREC s 1
  let m := m.batPlace s
  match (m.batSt s).recPage with
  | none => none_ m
  | some p =>
    let r := m.recReadTold p
    let m := r.2
    if r.1.absent then none_ m
    else
      let b := r.1.payload
      let m := ((cap m (le32 b)).bp BAT_STAT_NOREC s 0).bp BAT_LRNST_LCOUNT s (le16 (b.drop 8))
      let m := (m.bp BAT_LRNST_LREASON s ((b[11]?).getD 0)).bp BAT_LRNCYC_CYCLE s (le32 (b.drop 12))
      if (b[10]?).getD 0 = 1 then
        let m := ((m.irq (batPg s) 12).emit 0x500A [s, up (le32 (b.drop 12))]).bp BAT_LRNST_LREASON s 13
        let m := (((m.irq (batPg s) 10).count (batPg s) BAT_CNT_DISQ).batRecWrite s 0).2
        m.emit 0x5008 [s, 13]
      else m

/-- A capacity that OPCMD 0x02 set before the record was read is written now, and the operation completes (R324). -/
def Chip.batCapStored (m : Chip) (s : Nat) : Chip :=
  if !(m.batSt s).capSet then m
  else
    let w := (m.modBat s (fun b => { b with capSet := false })).batRecWrite s 0
    match w.2.opOf (batPg s) with
    | some o => if w.1 && o.cmd == 2 then w.2.endDone (batPg s) [] else w.2
    | none => w.2

/-- The estimator starts from a clean waypoint (R305). -/
def Chip.batStart (m : Chip) (s : Nat) : Chip :=
  if (m.bg BAT_STAT_SVC s = 1 ∨ m.bg BAT_STAT_SVC s = 3) ∧ (m.batSt s).waiting ∧ (m.batSt s).clean ∧ !m.nvClosed then
    let m := (m.batReadRecord s).batCapStored s
    ((m.modBat s (fun b => { b with waiting := false })).batSetSoc s (m.bg BAT_SOCOCV_SOC s)).bp BAT_STAT_LOWCONF s 1
  else m

/-- A rest has lasted RESTT minutes: it qualifies, may end a learning cycle and may re-anchor (R307, R308, R316). -/
def Chip.batQualify (m : Chip) (s : Nat) : Chip :=
  let b := m.batSt s
  let mins := if m.bg BAT_REST_RESTT s < 30 then 30 else m.bg BAT_REST_RESTT s
  if m.bg BAT_STAT_SVC s = 0 ∨ m.has (batPg s) BAT_STAT_REST ∨ b.restTicks < mins * 12000000000 then m
  else
    let ocv := m.bg BAT_SOCOCV_SOC s
    let m := (m.bp BAT_STAT_REST s 1).modBat s (fun b => { b with restSoc := some ocv })
    let m := if ocv ≤ 100 * m.bg BAT_LRNA_LRNLO s then m.batLearnEnd s ocv else m
    let far := decide (100 * m.bg BAT_REST_ANCTOL s < absI ((m.bg BAT_SOC_SOC s : Int) - ocv))
    let flag := m.has (batPg s) BAT_STAT_LOWCONF || m.has (batPg s) BAT_STAT_DISE || m.has (batPg s) BAT_STAT_DISF
      || m.has (batPg s) BAT_STAT_EODCUT
    if !b.waiting && (flag || far) then m.batAnchor s else m

/-- CTRL.ENABLE of a string: entry into STARTUP, or OFF (R301, R302). -/
def Chip.batEnable (m : Chip) (s : Nat) (en : Bool) : Chip :=
  if en then
    if m.bg BAT_STAT_SVC s ≠ 0 then m
    else if !m.batValid s then m.batCfgErr s
    else
      let m := m.put (batPg s) HDR_CTRL_ENABLE 1
      let m := (m.bp BAT_STAT_REST s 0).bp BAT_RESTM_MIN s 0
      let m := m.modBat s (fun b => { b with
        waiting := true, clean := false, recpg := (m.rd (BAT_RECPG_PAGE.addr (batPg s))).toNat, recPage := none,
        lowRun := 0, highRun := 0, ocvRun := 0, cutWas := false, fullWas := false, fullv := false,
        inside := false, restTicks := 0, restSoc := none })
      (m.batSvc s 1).batShow s
  else
    let m := m.put (batPg s) HDR_CTRL_ENABLE 0
    let m := (m.batDisqualify s 11).batSvc s 0
    match m.opOf (batPg s) with
    | some o => if o.cmd = 1 then m.endErr (batPg s) 0x11 11 else m
    | none => m

/-- A write of SVC.REQ (R301). -/
def Chip.batSvcReq (m : Chip) (s req : Nat) : Chip :=
  let svc := m.bg BAT_STAT_SVC s
  if req = 2 then (if svc = 1 ∨ svc = 2 ∨ svc = 4 then m.batSvc s 3 else m)
  else if req = 1 then m.batLeaveTest s else m

/-- OPCMD 0x02: set the learned capacity (R324). While the string still waits for its record, the write waits with it.
DEDUCED, unsafe (log 53). -/
def Chip.batSetCap (m : Chip) (s : Nat) (o : LongOp) : Chip :=
  if !m.unlockedFor o.req (batPg s) then m.endErr (batPg s) 0x04 0
  else if o.arg = 0 ∨ 2 * m.bg BAT_QRATED_Q s < o.arg then m.endErr (batPg s) 0x02 0
  else
    let m := (m.batNewCap s o.arg).batDisqualify s 11
    if (m.batSt s).waiting then
      (m.modBat s (fun b => { b with capSet := true })).batCapNone s
    else
    let w := m.batRecWrite s 0
    if w.1 then w.2.endDone (batPg s) [] else w.2

/-- A BAT page has accepted a command (R319, R324). -/
def Chip.batOpStart (m : Chip) (s : Nat) : Chip :=
  match m.opOf (batPg s) with
  | none => m
  | some o =>
    if o.cmd = 1 then
      if m.bg BAT_STAT_SVC s = 0 then m.endErr (batPg s) 0x10 0 else m.batSvc s 3
    else if o.cmd = 2 then m.batSetCap s o
    else m.endErr (batPg s) 0x01 0

/-- An abort of a string's operation (R319): an open cycle is disqualified with reason 12. -/
def Chip.batAbort (m : Chip) (s : Nat) : Chip :=
  let prog := m.get (batPg s) HDR_STATUS_PROGRESS
  let test := (m.opOf (batPg s)).map (fun o => o.cmd) == some 1
  let m := m.endErr (batPg s) 0x05 prog
  if test then (m.batDisqualify s 12).batLeaveTest s else m

/-- VIN has stayed above the brown-out level for 100 ms: the pending record is written (R322). -/
def Chip.batCommit (m : Chip) (s : Nat) : Chip :=
  let b := m.batSt s
  if m.nv.vinLow ∨ m.ticksSince m.nv.vinTick < 100 * msTicks ∨ !m.has (batPg s) BAT_STAT_LPEND then m
  else
    let m := m.bp BAT_STAT_LPEND s 0
    let m := m.nvEnqueue { kind := .battery, arg := s, page := b.pendPage, payload := b.pend }
    let m := m.emit 0x5009 [s, up (m.bg BAT_QPEND_Q s)]
    match m.opOf (batPg s) with
    | some o => if o.cmd = 2 ∧ b.capSet = false then m.endDone (batPg s) [] else m
    | none => m

/-! ### Commands -/

/-- REST_QUALIFIED (R308): acts once RESTT minutes of rest have been counted. -/
def execRestQualified (n : Fin 4) (s : State) : Host.Outcome State Fault Refusal :=
  s.run (fun m => if n.val < nStrings m.die.part then m.batQualify n.val else m)

/-- ESTIMATOR_START (R305). DEDUCED, unsafe (log 53). -/
def execEstimatorStart (n : Fin 4) (s : State) : Host.Outcome State Fault Refusal :=
  s.run (fun m => if n.val < nStrings m.die.part then m.batStart n.val else m)

/-- BATTERY_ENABLE_WRITE (R301). -/
def execBatteryEnableWrite (r : Requester) (n : Fin 4) (en : Bool) (s : State) : Host.Outcome State Fault Refusal :=
  s.run (fun m => m.onPage (reqCode r) (batPg n.val) (fun m => m.batEnable n.val en))

/-- SVC_REQ_TEST (R301). -/
def execSvcReqTest (r : Requester) (n : Fin 4) (s : State) : Host.Outcome State Fault Refusal :=
  s.run (fun m => m.onPage (reqCode r) (batPg n.val) (fun m => m.batSvcReq n.val 2))

/-- SVC_REQ_NORMAL (R301). -/
def execSvcReqNormal (r : Requester) (n : Fin 4) (s : State) : Host.Outcome State Fault Refusal :=
  s.run (fun m => m.onPage (reqCode r) (batPg n.val) (fun m => m.batSvcReq n.val 1))

/-- CAPACITY_TEST (R319). -/
def execCapacityTest (r : Requester) (n : Fin 4) (s : State) : Host.Outcome State Fault Refusal :=
  s.run (fun m => m.onPage (reqCode r) (batPg n.val) (fun m =>
    m.startOp (batPg n.val) 1 (reqCode r) (fun m => m.batOpStart n.val)))

/-- SET_LEARNED_CAPACITY (R324). -/
def execSetLearnedCapacity (r : Requester) (n : Fin 4) (arg : Word) (s : State) : Host.Outcome State Fault Refusal :=
  s.run (fun m => m.onPage (reqCode r) (batPg n.val) (fun m =>
    (m.wr (batPg n.val * 0x400 + 0x24) arg).startOp (batPg n.val) 2 (reqCode r) (fun m => m.batOpStart n.val)))

/-- PENDING_RECORD_COMMIT (R322). -/
def execPendingRecordCommit (n : Fin 4) (s : State) : Host.Outcome State Fault Refusal :=
  s.run (fun m => if n.val < nStrings m.die.part then m.batCommit n.val else m)

end Sys2Proof.Machine
end

