-- ==== Sys2Proof/Machine/SeqSup.lean ====
section
/-! DEFINITION. Rail supervision (R329–R335) and Sequencing (R336–R342): levels, warnings, faults, power-good, enables,
step words, and the eight states. -/

namespace Sys2Proof.Machine

/-- A field of a rail. -/
def Chip.rg (m : Chip) (f : Fld) (r : Nat) : Nat := m.get 0x21 f r

/-- A rail outside its registers. -/
def Chip.railSt (m : Chip) (r : Nat) : RailSt := (m.rail[r]?).getD {}

/-- Change a rail outside its registers. -/
def Chip.modRail (m : Chip) (r : Nat) (f : RailSt → RailSt) : Chip := { m with rail := setAt m.rail r (f (m.railSt r)) }

/-- The bit of a rail in a mask register. -/
def Chip.railBit (m : Chip) (f : Fld) (r : Nat) : Bool := bit (m.get 0x21 f) r

/-- Store the bit of a rail in a mask register. -/
def Chip.setRailBit (m : Chip) (f : Fld) (r : Nat) (v : Bool) : Chip :=
  if v then m.maskSet 0x21 f r else m.maskClr 0x21 f r

/-- The sequencer's state. -/
def Chip.seqState (m : Chip) : Nat := m.get 0x20 SEQ_STAT_STATE

/-- A Depot entry of Sequencing and Supervision (R388). -/
def Chip.seqDepot (m : Chip) (tag n code : Nat) : Chip := m.depot 20 tag (n + m.seqState * 2 ^ 8 + code * 2 ^ 16)

/-- FACT of a rail; 11 is treated as 10 (R351). -/
def Chip.fact (m : Chip) (r : Nat) : Nat := Nat.min 2 (m.rg SUP_RCFG_FACT r)

/-- Has the rail a latched fault? -/
def Chip.railLatched (m : Chip) (r : Nat) : Bool := m.railBit SUP_FUV_MASK r || m.railBit SUP_FOV_MASK r

/-- Sequencing commands a rail's enable: its ball leaves high impedance (R511). -/
def Chip.railDrive (m : Chip) (r : Nat) : Chip := { m with seq := { m.seq with driven := setBit m.seq.driven r } }

/-- A rail's enable turns off; its under-voltage tests are disarmed (R332). -/
def Chip.railOff (m : Chip) (r : Nat) : Chip :=
  if m.rg SUP_RCFG_ENEN r = 0 then m
  else ((m.railDrive r).setRailBit SUP_ENOUT_MASK r false).modRail r (fun x => { x with armed := false })

/-- A rail's enable turns on: its under-voltage tests wait for power-good (R332). -/
def Chip.railOn (m : Chip) (r : Nat) : Chip :=
  let m := m.railDrive r
  if m.railBit SUP_ENOUT_MASK r then m
  else (m.setRailBit SUP_ENOUT_MASK r true).modRail r (fun x => { x with armed := false })

/-! ### Supervision -/

/-- Do a rail's under-voltage tests run (R332)? -/
def Chip.uvArmed (m : Chip) (r : Nat) : Bool := m.has 0x21 SUP_RCFG_MON r && (m.railSt r).armed && m.seqState != 4

/-- A warning rises (R330). -/
def Chip.railWarn (m : Chip) (r kind : Nat) : Chip :=
  let f := if kind = 1 then SUP_WUV_MASK else SUP_WOV_MASK
  if m.railBit f r then m
  else
    let m := ((m.setRailBit f r true).irq 0x21 4).raise 102
    (m.emit 0x6004 [r, kind, (m.railSt r).code]).seqDepot 3 r (m.railSt r).code

/-- Power-good of a rail (R333). -/
def Chip.railPg (m : Chip) (r : Nat) : Chip :=
  let x := m.railSt r
  let latched := m.railLatched r
  if 4 ≤ x.bad ∨ latched then m.setRailBit SUP_PG_MASK r false
  else if 4 ≤ x.good then
    let arm := m.rg SUP_RCFG_ENEN r == 0 || m.railBit SUP_ENOUT_MASK r
    (m.setRailBit SUP_PG_MASK r true).modRail r (fun x => { x with been := true, armed := x.armed || arm })
  else m

/-- A conversion of a rail (R330, R333). DEDUCED, unsafe (log 54). -/
def Chip.supSar (m : Chip) (r code : Nat) : Chip :=
  let uvw := m.rg SUP_LVLA_UVW r
  let ovw := m.rg SUP_LVLB_OVW r
  let run := fun (n : Nat) (t : Bool) => if t then satInc 8 n else 0
  let inn := decide (uvw ≤ code) && decide (code ≤ ovw)
  let m := m.modRail r (fun x => { x with
    code := code, below := run x.below (m.uvArmed r && decide (code < uvw)),
    above := run x.above (m.has 0x21 SUP_RCFG_MON r && decide (ovw < code)),
    clearU := run x.clearU (decide (uvw + 8 ≤ code)), clearO := run x.clearO (decide (code + 8 ≤ ovw)),
    good := run x.good (inn && !m.railLatched r), bad := run x.bad (!inn) })
  let x := m.railSt r
  let m := if 4 ≤ x.below then m.railWarn r 1
    else if 16 ≤ x.clearU then m.setRailBit SUP_WUV_MASK r false else m
  let m := if 4 ≤ x.above then m.railWarn r 2
    else if 16 ≤ x.clearO then m.setRailBit SUP_WOV_MASK r false else m
  m.railPg r

/-- Has the window comparator of a rail seen a voltage, in SAR codes, beyond UVF or OVF for the deglitch time (R331)? -/
def Chip.railBeyond (m : Chip) (r code us : Nat) : Bool :=
  decide (Nat.max 1 (m.rg SUP_RCFG_FDGL r) ≤ us) &&
  (decide (code < m.rg SUP_LVLA_UVF r) || decide (m.rg SUP_LVLB_OVF r < code))

/-- The window comparator of a rail sees a voltage, in SAR codes, for a time in µs (R331, R332). -/
def Chip.railFault (m : Chip) (r code us : Nat) : Chip :=
  let isOver := decide (m.rg SUP_LVLB_OVF r < code)
  let f := if isOver then SUP_FOV_MASK else SUP_FUV_MASK
  let runs := if isOver then m.has 0x21 SUP_RCFG_MON r else m.uvArmed r
  if !(runs && m.railBeyond r code us) || m.railBit f r then m
  else
    let kind := if isOver then 2 else 1
    let m := ((m.setRailBit f r true).irq 0x21 5).raise 103
    let m := (m.emit 0x6005 [r, kind, m.fact r]).setRailBit SUP_PG_MASK r false
    let m := if m.fact r = 0 then m else m.railOff r
    let m := if m.fact r = 2 then { m with seq := { m.seq with fact := true } } else m
    m.seqDepot 4 r (m.railSt r).code

/-- Does a rail's comparator read it inside UVF–OVF (R334)? -/
def Chip.railInside (m : Chip) (r code : Nat) : Bool :=
  decide (m.rg SUP_LVLA_UVF r ≤ code) && decide (code ≤ m.rg SUP_LVLB_OVF r)

/-- The rails' last conversions, which stand for what their comparators read where a write of FCLR by its address does
not say it. DEDUCED, unsafe (log 28). -/
def Chip.railCodes (m : Chip) : List Nat := (List.range 24).map (fun r => (m.railSt r).code)

/-- A write of FCLR (R334); the comparators read the rails' voltages as these SAR codes. DEDUCED, unsafe (log 54). -/
def Chip.railClear (m : Chip) (req v : Nat) (codes : List Nat) : Chip :=
  (bitsUp v 24).foldl (fun m r =>
    if !m.railLatched r then m
    else if (codes[r]?).any (m.railInside r ·) then
      ((m.setRailBit SUP_FUV_MASK r false).setRailBit SUP_FOV_MASK r false).emit 0x6009 [r, req]
    else m.irq 0x21 6) m

/-- Are a rail's levels in order (R329)? -/
def Chip.railOrder (m : Chip) (r : Nat) : Bool :=
  decide (m.rg SUP_LVLA_UVF r ≤ m.rg SUP_LVLA_UVW r) && decide (m.rg SUP_LVLA_UVW r ≤ m.rg SUP_LVLB_OVW r) &&
  decide (m.rg SUP_LVLB_OVW r ≤ m.rg SUP_LVLB_OVF r)

/-- Does another rail drive the same ball (R335)? -/
def Chip.railBallTaken (m : Chip) (r : Nat) : Bool :=
  m.has 0x21 SUP_RCFG_ENEN r && (List.range 24).any (fun k =>
    k != r && m.has 0x21 SUP_RCFG_ENEN k && m.rg SUP_RCFG_GPIO k == m.rg SUP_RCFG_GPIO r)

/-- A write of a rail's configuration or levels (R329, R335). A rail that gains an enable output is armed by its next
turning on, one that loses it by having been power-good since reset (R332). A latched fault that FACT now acts on
holds the enable at off (R331). DEDUCED, unsafe (log 54). -/
def Chip.supCfgWrite (m : Chip) (r addr v : Nat) : Chip :=
  let o := addr % 0x400
  let rail := (if o < SUP_LVLA_UVW.off then o - SUP_RCFG_MON.off
    else if o < SUP_LVLB_OVF.off then o - SUP_LVLA_UVW.off else o - SUP_LVLB_OVF.off) / 4
  let n := m.plainWrite r addr v
  let en := m.rg SUP_RCFG_ENEN rail
  let n := if n.rg SUP_RCFG_ENEN rail = en then n else n.modRail rail (fun x => { x with armed := en == 1 && x.been })
  if n.has 0x21 SUP_RCFG_MON rail && !n.railOrder rail then m.irq 0x21 6
  else if n.railBallTaken rail then m.irq 0x21 6
  else if n.railLatched rail && n.fact rail != 0 then n.railOff rail
  else n

/-! ### GPIO balls (R26, R335, R510, R516) -/

/-- The rail whose enable output a GPIO ball is. -/
def Chip.gpioRail (m : Chip) (k : Nat) : Option Nat :=
  (List.range 24).find? (fun r => m.has 0x21 SUP_RCFG_ENEN r && m.rg SUP_RCFG_GPIO r == k)

/-- The level of a GPIO ball: a rail's enable as Sequencing set it, by EPOL, high-impedance in boot, on a standby, in
STANDBY, and until Sequencing commands it (R511); or a general output of PIN, from run entry in every role. -/
def Chip.gpioBall (m : Chip) (k : Nat) : BallLevel :=
  let lvl := fun (b : Bool) => if b then BallLevel.high else .low
  if m.held || m.has 0x37 PIN_STAT_OHOLD then .highZ
  else
    match m.gpioRail k with
    | some r =>
      if !m.leads || m.seqState == 7 || !bit m.seq.driven r then .highZ
      else lvl (m.railBit SUP_ENOUT_MASK r != m.has 0x21 SUP_RCFG_EPOL r)
    | none =>
      if !bit (m.get 0x37 PIN_GPDIR_OUT) k then .highZ
      else if bit (m.get 0x37 PIN_GPOD_OD) k && bit (m.get 0x37 PIN_GPOUT_LVL) k then .highZ
      else lvl (bit (m.get 0x37 PIN_GPOUT_LVL) k)

/-! ### Step words (R336) -/

/-- Is a step word refused (R336)? DEDUCED, unsafe (log 54). -/
def stepRefused (p : Part) (down : Bool) (w : Nat) : Bool :=
  let op := w / 2 ^ 28
  let low := w % 2 ^ 28
  if op = 0 then low != 0
  else if op = 1 ∨ op = 2 then low % 2 ^ 16 != 0 || decide (2 ^ 21 ≤ low) || decide (24 ≤ low / 2 ^ 16)
  else if op = 3 then low % 2 ^ 16 / 2 != 0 || decide (2 ^ 20 ≤ low) || decide (nDomains p ≤ low / 2 ^ 16)
  else if op = 4 then low % 2 ^ 16 / 2 != 0 || decide (2 ^ 18 ≤ low) || decide (nLoops p ≤ low / 2 ^ 16)
  else if op = 5 then decide (2 ^ 16 ≤ low)
  else if op = 6 then decide (2 ^ 24 ≤ low) || (down && low % 2 ^ 16 == 0)
  else true

/-- A write of a step word. -/
def Chip.seqStepWrite (m : Chip) (addr v : Nat) : Chip :=
  let down := decide (SEQ_DNSTEP_STEP.addr 0x20 ≤ addr)
  let k := (addr - (if down then SEQ_DNSTEP_STEP.addr 0x20 else SEQ_UPSTEP_STEP.addr 0x20)) / 4
  if stepRefused m.die.part down v then (m.irq 0x20 7).emit 0x600A [if down then 2 else 1, k]
  else m.wr addr (BitVec.ofNat 32 v)

/-! ### States (R339) -/

/-- Is a held loop enable still asserted in a state (R20)? None in OFF and STANDBY, no enable 1 in PWRDN, no enable 0
in PWRUP. DESIGN CHOICE, unsafe (log 122). -/
def heldStays (st : Nat) (h : Nat × Bool) : Bool :=
  if st = 0 ∨ st = 7 then false else if st = 4 then !h.2 else if st = 2 then h.2 else true

/-- A change of state. -/
def Chip.seqTo (m : Chip) (toSt : Nat) : Chip :=
  let old := m.seqState
  if old = toSt then m
  else
    let m := (m.put 0x20 SEQ_STAT_STATE toSt).irq 0x20 4
    let m := { m with seq := { m.seq with running := false, evLine := none, pend := 0, up := false,
                                          heldLoops := m.seq.heldLoops.filter (heldStays toSt) } }
    let m := if toSt = 1 ∨ toSt = 2 then (m.put 0x20 SEQ_STAT_FAILPEND 0).put 0x20 SEQ_STAT_INLOST 0 else m
    let m := if toSt = 2 ∨ toSt = 4 then m.put 0x20 SEQ_STAT_STEP 0 else m
    let m := if toSt = 3 then m.put 0x20 SEQ_STAT_ATTEMPT 0 else m
    let m := if toSt = 5 then { m with seq := { m.seq with retryFrom := m.tim.tick } } else m
    let m := (m.emit 0x6001 [old, toSt, m.get 0x20 SEQ_STAT_ATTEMPT]).raise 100
    m.seqDepot 1 (m.get 0x20 SEQ_STAT_STEP) 0

/-- FAILED: retries exhausted (R339). -/
def Chip.seqFailed (m : Chip) : Chip :=
  ((m.irq 0x20 6).emit 0x6003 [m.get 0x20 SEQ_STAT_ATTEMPT]).seqTo 6

/-- A power-up start: as the first attempt, or as one more while attempts are left (R339). DEDUCED, unsafe (log 55).
-/
def Chip.seqUp (m : Chip) (first : Bool) : Chip :=
  let a := m.get 0x20 SEQ_STAT_ATTEMPT
  if first then (m.put 0x20 SEQ_STAT_ATTEMPT 1).seqTo 2
  else if m.get 0x20 SEQ_CFG_RETRYN + 1 ≤ a then m.seqFailed
  else (m.put 0x20 SEQ_STAT_ATTEMPT (a + 1)).seqTo 2

/-- Power-down begins for a cause: 1 input loss, 2 command, 3 FACT 10 request. -/
def Chip.seqPowerDown (m : Chip) (cause : Nat) : Chip :=
  let m := m.seqTo 4
  if cause = 1 then (m.put 0x20 SEQ_STAT_INLOST 1).emit 0x6007 [m.get 0x20 SEQ_CFG_INSRC] else m

/-- A power-down request at a boundary (R339). -/
def Chip.seqDown (m : Chip) (cause : Nat) : Chip :=
  let st := m.seqState
  if st = 3 then m.seqPowerDown cause
  else if st = 2 then
    if m.seq.running then (if m.seq.pend = 0 then { m with seq := { m.seq with pend := cause } } else m)
    else m.seqPowerDown cause
  else if (st = 5 ∨ st = 6) ∧ cause ≠ 3 then m.seqTo 1
  else m

/-- The rails that the power-up sequence turns on, to its END. -/
def Chip.upRails (m : Chip) : List Nat :=
  (((List.range 32).map (fun k => m.get 0x20 SEQ_UPSTEP_STEP k)).takeWhile (fun w => w / 2 ^ 28 != 0)).filterMap
    (fun w => if w / 2 ^ 28 = 1 then some (w / 2 ^ 16 % 32) else none)

/-- The controller role has changed: Sequencing takes it up at the next boundary (R339, R342). DEDUCED, unsafe (log
55). -/
def Chip.seqRole (m : Chip) : Chip := if m.leads then m else { m with seq := { m.seq with stby := true } }

/-- A write of CTRL.ENABLE: the state follows at the next boundary (R339, R342); one in boot is kept apart (R508).
DEDUCED, unsafe (log 55). -/
def Chip.seqEnable (m : Chip) (en : Bool) : Chip :=
  let m := m.putB 0x20 HDR_CTRL_ENABLE en
  { m with seq := { m.seq with
      enOff := m.seq.enOff || !en
      enOn := if !en then 0 else if m.has 0x37 PIN_STAT_OHOLD then 2 else 1 } }

/-- ENABLE at the boundary: 0 makes the state OFF, and 1 then DOWN on a master or solo controller, STANDBY where it was
written in boot (R339, R508). -/
def Chip.seqEnStage (m : Chip) : Chip :=
  let on := m.seq.enOn
  let off := m.seq.enOff
  let m := { m with seq := { m.seq with enOff := false, enOn := 0 } }
  let m := if off then m.seqTo 0 else m
  if m.seqState ≠ 0 ∨ on = 0 then m
  else if on = 2 then m.seqTo 7
  else if m.leads then m.seqTo 1
  else m

/-- SOFTRST stops Sequencing at once (R34). -/
def Chip.seqStop (m : Chip) : Chip :=
  let m := (m.putB 0x20 HDR_CTRL_ENABLE false).seqTo 0
  { m with seq := { m.seq with enOff := false, enOn := 0 } }

/-- The role at the boundary (R339): STANDBY with the enables released once the role was standby; on a master or solo
controller from STANDBY to UP where every rail of the sequence is power-good, else PWRUP. -/
def Chip.seqRoleStage (m : Chip) : Chip :=
  let stby := m.seq.stby
  let m := { m with seq := { m.seq with stby := false } }
  let m := if stby && m.seqState != 0 && m.seqState != 7 then
    let m := ((List.range 24).foldl (fun m r => m.railOff r) m).seqTo 7
    { m with seq := { m.seq with driven := 0 } }
    else m
  if m.leads && m.seqState == 7 then
    if m.upRails.all (fun r => m.railBit SUP_PG_MASK r) then
      ((m.upRails.filter (fun r => m.has 0x21 SUP_RCFG_ENEN r)).foldl (fun m r =>
        ((m.railDrive r).setRailBit SUP_ENOUT_MASK r true).modRail r (fun x => { x with armed := true })) m).seqTo 3
    else m.seqUp true
  else m

/-! ### Steps (R336, R337) -/

/-- The step in progress is complete: the sequence ends, or goes on at the next boundary. -/
def Chip.seqStepDone (m : Chip) (last : Bool) : Chip :=
  let st := m.seqState
  let step := m.get 0x20 SEQ_STAT_STEP
  let m := { m with seq := { m.seq with running := false, evLine := none } }
  if st = 2 then
    if m.seq.pend ≠ 0 then m
    else if last || step == 31 then m.seqTo 3
    else m.put 0x20 SEQ_STAT_STEP (step + 1)
  else if m.seq.up then m.emit 0x6008 [step]
  else if last || step == 31 then
    if m.has 0x20 SEQ_STAT_FAILPEND then
      (if m.get 0x20 SEQ_STAT_ATTEMPT ≤ m.get 0x20 SEQ_CFG_RETRYN then m.seqTo 5 else m.seqFailed)
    else m.seqTo 1
  else m.put 0x20 SEQ_STAT_STEP (step + 1)

/-- A power-up step fails (R339). -/
def Chip.seqStepFail (m : Chip) (cause : Nat) : Chip :=
  let step := m.get 0x20 SEQ_STAT_STEP
  let rail := if m.seq.word / 2 ^ 28 = 1 then m.seq.word / 2 ^ 16 % 32 else 0
  let loss := m.seq.pend
  let m := ((m.put 0x20 SEQ_FAIL_CAUSE cause).put 0x20 SEQ_FAIL_STEP step).put 0x20 SEQ_FAIL_RAIL rail
  let m := (((m.emit 0x6002 [step, cause, rail]).irq 0x20 5).raise 101).seqDepot 2 step (m.railSt rail).code
  (m.seqPowerDown loss).put 0x20 SEQ_STAT_FAILPEND 1

/-- Is the running step complete at this boundary, or failed with a cause? -/
def Chip.seqTest (m : Chip) : Bool × Option Nat :=
  let w := m.seq.word
  let op := w / 2 ^ 28
  let r := w / 2 ^ 16 % 32
  if op = 1 then
    if m.rg SUP_RCFG_ENEN r = 0 then (true, none)
    else if m.railLatched r && m.fact r != 0 then (false, some 2)
    else (m.railBit SUP_PG_MASK r && m.railBit SUP_ENOUT_MASK r, none)
  else if op = 2 then (m.rg SUP_RCFG_ENEN r == 0 || decide ((m.railSt r).code ≤ m.rg SUP_RTIM_DISLVL r), none)
  else if op = 3 then
    (m.dg DOM_GCTL_EN (w / 2 ^ 16 % 16) == w % 2 || m.dg DOM_ST_HELD (w / 2 ^ 16 % 16) == 1, none)
  else if op = 4 then (true, none)
  else if op = 5 then (m.seq.wpLeft == 0, none)
  else if op = 6 then (m.seq.evSeen, none)
  else (true, none)

/-- A loop enable of Sequencing: written, or held while a higher claim stands over the loop (R20, R336). DEDUCED,
unsafe (log 55). -/
def Chip.seqLoop (m : Chip) (x : Nat) (en : Bool) : Chip :=
  let held := m.seq.heldLoops.filter (fun h => h.1 != x)
  if m.claimed x then { m with seq := { m.seq with heldLoops := held ++ [(x, en)] } }
  else ({ m with seq := { m.seq with heldLoops := held } }).marEnable x en

/-- What a step does when it starts, and whether it is complete at once. -/
def Chip.seqAct (m : Chip) : Bool × Chip :=
  let w := m.seq.word
  let op := w / 2 ^ 28
  let r := w / 2 ^ 16 % 32
  if op = 1 then
    if m.rg SUP_RCFG_ENEN r = 0 then (true, m)
    else if m.railLatched r && m.fact r != 0 then (false, m)
    else (m.railBit SUP_ENOUT_MASK r && m.railBit SUP_PG_MASK r, m.railOn r)
  else if op = 2 then
    if m.rg SUP_RCFG_ENEN r = 0 ∨ !m.railBit SUP_ENOUT_MASK r then (true, m) else (false, m.railOff r)
  else if op = 3 then
    let m := m.domEn (w / 2 ^ 16 % 16) (bit w 0) none
    (m.seqTest.1, m)
  else if op = 4 then (true, m.seqLoop (w / 2 ^ 16 % 4) (bit w 0))
  else if op = 5 then (w % 2 ^ 16 == 0, { m with seq := { m.seq with wpLeft := w % 2 ^ 16 } })
  else if op = 6 then
    (false, { m with seq := { m.seq with
      evLine := some (w / 2 ^ 16 % 256), evSeen := false, wpLeft := w % 2 ^ 16 } })
  else (true, m)

/-- A step starts: its word is read now (R350). -/
def Chip.seqStart (m : Chip) : Chip :=
  let k := m.get 0x20 SEQ_STAT_STEP
  let w := if m.seqState = 2 then m.get 0x20 SEQ_UPSTEP_STEP k else m.get 0x20 SEQ_DNSTEP_STEP k
  let a := ({ m with seq := { m.seq with running := true, word := w, start := m.tim.tick } }).seqAct
  if a.1 then a.2.seqStepDone (decide (w / 2 ^ 28 = 0))
  else match a.2.seqTest.2 with
    | some c => if a.2.seqState = 2 then a.2.seqStepFail c else a.2.seqStepDone false
    | none => a.2

/-- Step progress at a boundary (R337). -/
def Chip.seqProgress (m : Chip) : Chip :=
  let st := m.seqState
  if st ≠ 2 ∧ st ≠ 4 then m
  else if m.seq.running then
    let m := if m.seq.wpLeft = 0 then m else { m with seq := { m.seq with wpLeft := m.seq.wpLeft - 1 } }
    let t := m.seqTest
    match t.2 with
    | some c => if st = 2 then m.seqStepFail c else m.seqStepDone false
    | none => if t.1 then m.seqStepDone false else m
  else
    let m := if st = 2 ∧ m.seq.pend ≠ 0 then m.seqPowerDown m.seq.pend
      else if st = 4 ∧ m.seq.up then m.seqUp false else m
    if m.seqState = 2 ∨ m.seqState = 4 then m.seqStart else m

/-! ### Input and the boundary (R338, R342) -/

/-- Has RETRYDLY passed in RETRYWAIT (R339)? -/
def Chip.seqRetryDue (m : Chip) : Bool :=
  let d := if m.get 0x20 SEQ_CFG_RETRYDLY = 0 then 1 else m.get 0x20 SEQ_CFG_RETRYDLY
  decide (d * 100 * msTicks ≤ m.ticksSince m.seq.retryFrom)

/-- Is the input good (R338)? DEDUCED, unsafe (log 55). -/
def Chip.seqInput (m : Chip) : Bool :=
  let src := m.get 0x20 SEQ_CFG_INSRC
  if src = 1 then decide (10 * m.get 0x23 NVM_CFG_BOWLVL < m.get 0x23 NVM_VIN_V)
  else if src = 2 then m.railBit SUP_PG_MASK (m.get 0x20 SEQ_CFG_INRAIL)
  else true

/-- `CMD` down, where one waits (R342). -/
def Chip.seqCmdDown (m : Chip) : Chip :=
  if bit m.seq.cmd 1 then ({ m with seq := { m.seq with cmd := m.seq.cmd % 2 } }).seqDown 2 else m

/-- `CMD` up, where one waits. DEDUCED, unsafe (log 55). -/
def Chip.seqCmdUp (m : Chip) : Chip :=
  if bit m.seq.cmd 0 then
    let m := { m with seq := { m.seq with cmd := 0 } }
    if m.seqState = 1 ∨ m.seqState = 6 then m.seqUp true else m
  else m

/-- Input loss is qualified: the rest of the boundary follows (R338, R342). -/
def Chip.seqLoss (m : Chip) : Chip :=
  let m := ({ m with seq := { m.seq with lossDue := false } }).put 0x20 SEQ_STAT_INGOOD 0
  (((m.seqDown 1).seqCmdDown).seqCmdUp).seqProgress

/-- Input return is qualified: the rest of the boundary follows (R338, R339, R342). -/
def Chip.seqReturn (m : Chip) : Chip :=
  let m := ({ m with seq := { m.seq with retDue := false } }).put 0x20 SEQ_STAT_INGOOD 1
  let m := m.seqCmdDown
  let st := m.seqState
  let m := if st = 1 && m.has 0x20 SEQ_CFG_AUTO then m.seqUp false
    else if st = 4 && m.has 0x20 SEQ_STAT_INLOST && !m.has 0x20 SEQ_STAT_FAILPEND then
      let m := if m.seq.running then m else m.emit 0x6008 [m.get 0x20 SEQ_STAT_STEP]
      { m with seq := { m.seq with up := true } }
    else if st = 5 && m.seqRetryDue then m.seqUp false
    else m
  m.seqCmdUp.seqProgress

/-- Sequencing at a waypoint boundary, stage 7 (R337, R342). Where an input change falls due, the rest of the boundary
follows with its qualification. DEDUCED, unsafe (log 55). -/
def Chip.seqStage (m : Chip) : Chip :=
  let m := (m.seqEnStage).seqRoleStage
  let m := m.seq.heldLoops.foldl (fun m h => m.seqLoop h.1 h.2) m
  let m := if m.seq.fact then ({ m with seq := { m.seq with fact := false } }).seqDown 3 else m
  let good := m.seqInput
  let nz := fun n => if n = 0 then 1 else n
  let s := m.seq
  let loss := if good then 0 else satInc 17 s.lossRun
  let ret := if good then satInc 17 s.retRun else 0
  let was := m.has 0x20 SEQ_STAT_INGOOD
  let m := { m with seq := { m.seq with
    lossRun := loss, retRun := ret, lossDue := was && decide (nz (m.get 0x20 SEQ_INQ_INLOSS) ≤ loss),
    retDue := !was && decide (nz (m.get 0x20 SEQ_INQ_INRET) ≤ ret) } }
  if m.seq.lossDue || m.seq.retDue then m else ((m.seqCmdDown).seqCmdUp).seqProgress

/-- A step's timeout has passed (R336). -/
def Chip.seqTimeout (m : Chip) : Chip :=
  let w := m.seq.word
  let op := w / 2 ^ 28
  let r := w / 2 ^ 16 % 32
  let nz := fun n => if n = 0 then 1 else n
  let age := m.ticksSince m.seq.start
  if !m.seq.running || m.seqTest.1 then m
  else if op = 1 then
    (if age < nz (m.rg SUP_RTIM_PGTO r) * msTicks then m
     else if m.seqState = 2 then m.seqStepFail 1 else m.seqStepDone false)
  else if op = 2 then
    if nz (m.rg SUP_RTIM_DISTO r) * 10 * msTicks ≤ age then
      ((m.maskSet 0x21 SUP_NODIS_MASK r).emit 0x6006 [r, (m.railSt r).code]).seqStepDone false
    else m
  else if op = 6 ∧ w % 2 ^ 16 ≠ 0 ∧ m.seq.wpLeft = 0 then (if m.seqState = 2 then m.seqStepFail 3 else m.seqStepDone false)
  else m

/-- RETRYDLY has passed in RETRYWAIT (R339); step 0 starts in stage 7 (R337). -/
def Chip.seqRetry (m : Chip) : Chip :=
  if m.seqState = 5 && m.seqRetryDue && m.has 0x20 SEQ_STAT_INGOOD then m.seqUp false else m

/-- A write of CMD waits for the boundary, where a down applies before an up (R342). -/
def Chip.seqCmd (m : Chip) (v : Nat) : Chip :=
  if v % 4 = 1 ∨ v % 4 = 2 then { m with seq := { m.seq with cmd := m.seq.cmd ||| v % 4 } } else m

/-! ### Commands -/

/-- RAIL_FAULT (R331). DEDUCED, unsafe (log 54). -/
def execRailFault (n : Fin 24) (x : RailSeen) (s : State) : Host.Outcome State Fault Refusal :=
  s.run (fun m => m.railFault n.val x.code.toNat x.us.toNat)

/-- RAIL_FAULT_CLEAR (R334): FCLR takes `v` while the comparators read these voltages. -/
def execRailFaultClear (r : Requester) (v : BitVec 24) (codes : List (BitVec 12)) (s : State) :
    Host.Outcome State Fault Refusal :=
  s.run (fun m =>
    if isHost (reqCode r) then
      m.onUnlocked (reqCode r) 0x21 0x1DC v.toNat (fun m => m.railClear (reqCode r) v.toNat (codes.map BitVec.toNat))
    else m.irq 0x21 6)

/-- SEQ_STEP_TIMEOUT (R336). DESIGN CHOICE, safe (log 2). -/
def execSeqStepTimeout (s : State) : Host.Outcome State Fault Refusal := s.run Chip.seqTimeout

/-- INPUT_LOSS_QUALIFIED (R338): acts once INLOSS waypoints have been counted. DESIGN CHOICE, safe (log 2). -/
def execInputLossQualified (s : State) : Host.Outcome State Fault Refusal :=
  s.run (fun m => if m.seq.lossDue then m.seqLoss else m)

/-- INPUT_RETURN_QUALIFIED (R338): acts once INRET waypoints have been counted. -/
def execInputReturnQualified (s : State) : Host.Outcome State Fault Refusal :=
  s.run (fun m => if m.seq.retDue then m.seqReturn else m)

/-- SEQ_CMD_UP (R339). -/
def execSeqCmdUp (r : Requester) (s : State) : Host.Outcome State Fault Refusal :=
  s.run (fun m => m.onPage (reqCode r) 0x20 (fun m => m.seqCmd 1))

/-- SEQ_CMD_DOWN (R339). -/
def execSeqCmdDown (r : Requester) (s : State) : Host.Outcome State Fault Refusal :=
  s.run (fun m => m.onPage (reqCode r) 0x20 (fun m => m.seqCmd 2))

/-- SEQ_ENABLE_WRITE (R339). -/
def execSeqEnableWrite (r : Requester) (en : Bool) (s : State) : Host.Outcome State Fault Refusal :=
  s.run (fun m => m.onPage (reqCode r) 0x20 (fun m => m.seqEnable en))

/-- SEQ_RETRY_DELAY_END (R339). -/
def execSeqRetryDelayEnd (s : State) : Host.Outcome State Fault Refusal := s.run Chip.seqRetry

end Sys2Proof.Machine
end

