-- ==== Sys2Proof/Machine/Thermal.lean ====
section
/-! DEFINITION. Thermal (R343–R348): conversions, samples, the throttle level, the rate check and the window of NVM
writes. -/

namespace Sys2Proof.Machine

/-- TEMP in 1/16 °C. -/
def Chip.temp (m : Chip) : Int := m.getS 0x22 THM_TEMP_T

/-- A new TEMP: TMAX keeps the highest (R352). -/
def Chip.setTemp (m : Chip) (t : Int) : Chip :=
  (m.putS 0x22 THM_TEMP_T t).maxNote (THM_TMAX_T.addr 0x22) (ux 16 t) (fun a b => decide (sx 16 b < sx 16 a))

/-- The window of NVM writes (R347, R348): a fall of NVMOK is told; a rise resumes what waits. -/
def Chip.thmWindow (m : Chip) : Chip :=
  let t := m.temp
  let was := m.has 0x22 THM_STAT_NVMOK
  let ok := if m.has 0x22 THM_STAT_SNSFLT || m.thm.convs.isEmpty then false
    else if decide (t < -480) || decide (1760 < t) then false
    else if decide (-448 ≤ t) && decide (t ≤ 1728) then true
    else was || (m.thm.samples.isEmpty && m.thm.convs.length == 1)
  let m := (m.putB 0x22 THM_STAT_NVMOK ok).putB 0x23 NVM_STAT_INHTHM (!ok)
  if was && !ok then (m.irq 0x22 7).emit 0x7004 [sp t] else if ok && !was then m.nvKick else m

/-- The throttle level (R344). -/
def Chip.thmLevel (m : Chip) : Chip :=
  let held := if bit m.thm.holds 3 then 3 else if bit m.thm.holds 2 then 2 else if bit m.thm.holds 1 then 1 else 0
  let rate := if m.has 0x22 THM_STAT_RATEHI then m.get 0x22 THM_RATE_RATELVL else 0
  let flt := if m.has 0x22 THM_STAT_SNSFLT then 3 else 0
  let lvl := Nat.max held (Nat.max rate flt)
  let old := m.get 0x22 THM_STAT_LEVEL
  if lvl = old then m
  else (((m.put 0x22 THM_STAT_LEVEL lvl).irq 0x22 4).raise 104).emit 0x7001 [old, lvl, sp m.temp]

/-- The thresholds at a sample (R344). -/
def Chip.thmHolds (m : Chip) : Chip :=
  let t := m.temp
  let h : Int := 16 * m.get 0x22 THM_RATE_HYS
  let one := fun (k : Nat) (th : Int) =>
    if 16 * th ≤ t then true else if t < 16 * th - h then false else bit m.thm.holds k
  let n := 2 * b2n (one 1 (m.getS 0x22 THM_LVL_TH1)) + 4 * b2n (one 2 (m.getS 0x22 THM_LVL_TH2)) +
    8 * b2n (one 3 (m.getS 0x22 THM_LVL_TH3))
  { m with thm := { m.thm with holds := n } }

/-- The rate check at a sample (R345). DEDUCED, unsafe (log 56). -/
def Chip.thmRate (m : Chip) : Chip :=
  let s := m.thm.samples
  let m := if 16 ≤ s.length then m.put 0x22 THM_STAT_RATEARM 1 else m
  match s[0]?, s[16]? with
  | some a, some b =>
    let rate := divFloor ((a - b) * 1000) 1024
    let m := m.putS 0x22 THM_RATEM_R (satS 16 rate)
    let lim : Int := m.get 0x22 THM_RATE_RATELIM
    let hi := m.has 0x22 THM_STAT_RATEHI
    let run := if rate * 4 ≤ lim * 3 then satInc 5 m.thm.rateRun else 0
    let m := { m with thm := { m.thm with rateRun := run } }
    if !hi && decide (lim < rate) then ((m.put 0x22 THM_STAT_RATEHI 1).irq 0x22 6).emit 0x7003 [sp rate]
    else if hi && decide (16 ≤ run) then m.put 0x22 THM_STAT_RATEHI 0
    else m
  | _, _ => m

/-- The warning, wherever TEMP or TWARN changes (R344); its rise is told. DEDUCED, unsafe (log 56). -/
def Chip.thmWarn (m : Chip) : Chip :=
  let w := decide (16 * m.getS 0x22 THM_LVL_TWARN ≤ m.temp)
  let was := m.has 0x22 THM_STAT_WARN
  let m := m.putB 0x22 THM_STAT_WARN w
  if w && !was then (m.irq 0x22 5).emit 0x7002 [sp m.temp] else m

/-- A conversion (R343, R347, R348). DEDUCED, unsafe (log 56). -/
def Chip.thmConvert (m : Chip) (t : Int) (fault : Bool) : Chip :=
  let m := { m with thm := { m.thm with count := satInc 8 m.thm.count } }
  if fault || decide (t < -880) || decide (2800 < t) then
    let was := m.has 0x22 THM_STAT_SNSFLT
    let m := ({ m with thm := { m.thm with goodRun := 0 } }).put 0x22 THM_STAT_SNSFLT 1
    let m := if was then m else (m.irq 0x22 8).emit 0x7005 [sp t]
    m.thmLevel.thmWindow
  else
    let run := satInc 7 m.thm.goodRun
    let m := { m with thm := { m.thm with convs := (t :: m.thm.convs).take 64, goodRun := run } }
    let m := if 64 ≤ run then m.put 0x22 THM_STAT_SNSFLT 0 else m
    let m := if m.thm.samples.isEmpty then (m.setTemp t).thmWarn else m
    m.thmLevel.thmWindow

/-- A sample, every 64 conversions (R343–R345). -/
def Chip.thmSample (m : Chip) : Chip :=
  if m.thm.count < 64 then m
  else
    let m := { m with thm := { m.thm with count := 0 } }
    if m.has 0x22 THM_STAT_SNSFLT || m.thm.convs.isEmpty then m
    else
      let t := divFloor (m.thm.convs.foldl (· + ·) 0) m.thm.convs.length
      let m := { m.setTemp t with thm := { m.thm with samples := (t :: m.thm.samples).take 17 } }
      ((((m.thmHolds).thmRate).thmLevel).thmWarn).thmWindow

/-- A write of LVL (R352): one that breaks TH1 < TH2 < TH3 is dropped. -/
def Chip.thmLvlWrite (m : Chip) (r v : Nat) : Chip :=
  let n := m.plainWrite r (THM_LVL_TH1.addr 0x22) v
  let t := fun f => n.getS 0x22 f
  if t THM_LVL_TH1 < t THM_LVL_TH2 ∧ t THM_LVL_TH2 < t THM_LVL_TH3 then
    if m.thm.convs.isEmpty then n else n.thmWarn
  else m

/-- TEMP_CONVERSION (R343): the reading in 1/16 °C, or an open or shorted diode. DEDUCED, unsafe (log 56). -/
def execTempConversion (t : BitVec 16) (fault : Bool) (s : State) : Host.Outcome State Fault Refusal :=
  s.run (fun m => m.thmConvert t.toInt fault)

/-- TEMP_SAMPLE (R344): acts once 64 conversions have been counted. DESIGN CHOICE, safe (log 2); DEDUCED, unsafe (log
56). -/
def execTempSample (s : State) : Host.Outcome State Fault Refusal := s.run Chip.thmSample

end Sys2Proof.Machine
end

