-- ==== Sys2Proof/Machine/Fabric.lean ====
section
/-! DEFINITION. The commands of the event fabric and the Depot (R379–R396). -/

namespace Sys2Proof.Machine

/-- A write of HSEV (R385). -/
def Chip.hsevWrite (m : Chip) (v : Nat) : Chip := (bitsUp v 8).foldl (fun m k => m.raise (224 + k)) m

/-- Can a GPIO ball stand at a level? One that the controller drives stands at the level it drives (R335, R384).
DEDUCED, unsafe (log 119). -/
def Chip.gpioCan (m : Chip) (k : Nat) (lvl : Bool) : Bool :=
  match m.gpioBall k with
  | .high => lvl
  | .low => !lvl
  | _ => true

/-- A new level of a GPIO ball is accepted (R384): GPIN shows it, and its line pulses as GPEDGE selects. -/
def Chip.gpioLevel (m : Chip) (k : Nat) (lvl : Bool) : Chip :=
  let was := bit (m.get 0x37 PIN_GPIN_LVL) k
  if was = lvl ∨ !m.gpioCan k lvl then m
  else
    let m := if lvl then m.maskSet 0x37 PIN_GPIN_LVL k else m.maskClr 0x37 PIN_GPIN_LVL k
    let sel := bitsOf (m.rd (0x31 * 0x400 + 0x44 + 4 * (k / 16))).toNat (2 * (k % 16)) 2
    if bit sel (if lvl then 0 else 1) then m.raise (192 + k) else m

/-- The present level of a line: only the port policy lines and the Depot's not-empty line are levels (R380, R383). -/
def Chip.lineLevel (m : Chip) (n : Nat) : Bool :=
  if n = 120 then m.dep.total != 0
  else if 80 ≤ n ∧ n < 88 then
    decide (n - 80 < nPorts m.die.part) && m.get (0x10 + (n - 80)) PD_PEVT_EV &&& m.get (0x10 + (n - 80)) PD_PEVTEN_EV != 0
  else false

/-- LEVELk (R383). -/
def Chip.levelWord (m : Chip) (k : Nat) : Nat :=
  (List.range 32).foldl (fun n b => if m.lineLevel (32 * k + b) then setBit n b else n) 0

/-- A rising edge of a line (R382). A level line rises where its condition comes to hold, which the Depot and the port
policy tell by themselves: it has no other edge (R379). DEDUCED, unsafe (log 119). -/
def Chip.lineEdge (m : Chip) (n : Nat) : Chip :=
  if n == 120 || (decide (80 ≤ n) && decide (n < 88)) then m else m.raise n

/-- EVENT_LINE_EDGE (R382). -/
def execEventLineEdge (n : BitVec 8) (s : State) : Host.Outcome State Fault Refusal :=
  s.run (fun m => m.lineEdge n.toNat)

/-- GPIO_LEVEL_CHANGE (R384). -/
def execGpioLevelChange (k : Fin 32) (lvl : Level) (s : State) : Host.Outcome State Fault Refusal :=
  s.run (fun m => m.gpioLevel k.val lvl)

/-- HSEV_WRITE (R385). -/
def execHsevWrite (r : Requester) (v : BitVec 8) (s : State) : Host.Outcome State Fault Refusal :=
  s.run (fun m => m.onPage (reqCode r) 0x31 (fun m => m.hsevWrite v.toNat))

/-- PUTTAG_WRITE (R390). -/
def execPuttagWrite (r : Requester) (tag : BitVec 8) (s : State) : Host.Outcome State Fault Refusal :=
  s.run (fun m => m.onPage (reqCode r) 0x30 (fun m => m.depPut (reqCode r) tag.toNat))

/-- TAKE0_READ (R394). DEDUCED, safe (log 18). -/
def execTake0Read (r : Requester) (s : State) : Host.Outcome State Fault Refusal :=
  s.run (fun m => m.onPage (reqCode r) 0x30 (fun m =>
    ((if reqCode r = 0 then m.spiCommit else m).depTake (reqCode r)).2))

/-- TAKE_RESERVATION_LAPSE (R395). -/
def execTakeReservationLapse (r : Requester) (s : State) : Host.Outcome State Fault Refusal :=
  s.run (fun m => m.depLapse (reqCode r))

/-- DEPOT_FLUSH (R396). -/
def execDepotFlush (r : Requester) (arg : Word) (s : State) : Host.Outcome State Fault Refusal :=
  s.run (fun m => (m.wr (0x30 * 0x400 + 0x24) arg).startOp 0x30 1 (reqCode r) Chip.depFlush)

end Sys2Proof.Machine
end

