-- ==== Sys2Proof/Machine/Recorder.lean ====
section
/-! DEFINITION. The event recorder (R449–R467): geometry, record writes, start, header, full and clear, reading, search,
software records, and the rate limit's refill. -/

namespace Sys2Proof.Machine

/-- The recorder's region (R449). -/
def Chip.recRegion (m : Chip) : Option NvRegion := m.nv.ownedBy 1

/-- Capacity of a region (R450). -/
def recCapacity (size : Nat) : Nat := Nat.min 12288 ((16 * size - 2) * 8)

/-- NOREG and CAPN follow the region table (R449, R450). -/
def Chip.recGeometry (m : Chip) : Chip :=
  match m.recRegion with
  | some g => (m.put 0x24 REC_STAT_NOREG 0).put 0x24 REC_CAPN_CAPN (recCapacity g.size)
  | none => (m.put 0x24 REC_STAT_NOREG 1).put 0x24 REC_CAPN_CAPN 0

/-- Byte offset of record `i` in the store (R450). -/
def recOffset (g : NvRegion) (i : Nat) : Nat := g.base * 4096 + 0x200 + 32 * i

/-- May the recorder write a record now (R457, R459)? -/
def Chip.recMay (m : Chip) : Bool :=
  m.rcd.started && m.enabled 0x24 && m.recRegion.isSome && m.nvPermitted && !m.nvClosed && m.nv.betweenPages &&
  !(m.busy 0x24 && (m.opOf 0x24).any (fun o => o.cmd == 2))

/-- The bytes of a record (R451); a record queued before the start takes PCC and the operating-hours base now (R459). -/
def Chip.recBytes (m : Chip) (e : Rec) : List Nat :=
  let hours := if e.based then e.hours else (e.hours + m.rcd.hdrBase) % 2 ^ 32
  let pcc := if e.based then e.pcc else (m.rd (REC_PCC_PCC.addr 0x24)).toNat
  let par := fun k => bytesOf 3 ((e.params[k]?).getD 0)
  bytesOf 2 e.code ++ [e.sev % 8, e.src % 256] ++ bytesOf 4 hours ++ bytesOf 4 pcc ++ bytesOf 4 e.stamp.cycle ++
    bytesOf 2 e.stamp.angle ++ [e.stamp.flags % 8, e.supp % 256] ++ par 0 ++ par 1 ++ par 2 ++ par 3

/-- The header is to be written (R460, R461): a record write that waits its turn, and while writing is held until it
resumes (R459). -/
def Chip.recHeaderDue (m : Chip) : Chip :=
  match m.recRegion with
  | some g =>
    if !m.enabled 0x24 then { m with rcd := { m.rcd with hdrDue := true } }
    else if m.nv.wait.any (fun j => j.kind == NvKind.recHeader) then m
    else m.nvEnqueue { kind := .recHeader, page := 16 * g.base }
  | none => m

/-- CTRL.ENABLE (R459): while it is 0 no header is written; one that waits is due again when writing resumes. -/
def Chip.recEnable (m : Chip) (en : Bool) : Chip :=
  let m := m.putB 0x24 HDR_CTRL_ENABLE en
  if en then
    (if m.rcd.hdrDue then ({ m with rcd := { m.rcd with hdrDue := false } }).recHeaderDue else m)
  else
    let held := m.nv.wait.any (fun j => j.kind == NvKind.recHeader)
    { m with rcd := { m.rcd with hdrDue := m.rcd.hdrDue || held },
             nv := { m.nv with wait := m.nv.wait.filter (fun j => j.kind != NvKind.recHeader) } }

/-- A record met a full recorder (R461). -/
def Chip.recDropFull (m : Chip) : Chip :=
  let m := m.count 0x24 REC_DROP_DROPFULL
  { m with rcd := { m.rcd with dropTotal := satInc 32 m.rcd.dropTotal } }

/-- Write a record into slot `n`: words 1, 2, 3, then 0 (R453). -/
def Chip.recSlotWrite (m : Chip) (g : NvRegion) (n : Nat) (e : Rec) : Chip :=
  let off := recOffset g n
  let b := m.recBytes e
  let word := fun (m : Chip) (k : Nat) => m.nvWriteWord ((off + 8 * k) / 256) ((off + 8 * k) % 256 / 8) ((b.drop (8 * k)).take 8)
  word (word (word (word m 1) 2) 3) 0

/-- Write records into the next slots in one write operation, with its journal entries (R457, R476); the one that fills
the recorder stops it, and what no longer fits is dropped (R461). -/
def Chip.recPut (m : Chip) (g : NvRegion) (es : List Rec) : Chip :=
  let n := m.get 0x24 REC_STAT_NREC
  let room := if m.has 0x24 REC_STAT_FULL then 0 else recCapacity g.size - n
  let here := es.take room
  let page := fun k => recOffset g (n + k) / 256
  let pages := (List.range here.length).filter (fun k => k == 0 || page k != page (k - 1))
  let m := if here.isEmpty then m
    else
      let m := (here.zip (List.range here.length)).foldl (fun (m : Chip) x =>
        (if pages.contains x.2 then m.nvJournal 2 (page x.2) else m).recSlotWrite g (n + x.2) x.1) (m.nvJournal 1 pages.length)
      let m := (m.nvJournal 3 pages.length).put 0x24 REC_STAT_NREC (n + here.length)
      if n + here.length = recCapacity g.size then
        (((m.put 0x24 REC_STAT_FULL 1).irq 0x24 4).raise 110).recHeaderDue
      else m
  (es.drop room).foldl (fun m _ => m.recDropFull) m

/-- A record made at this moment that passes neither the rate limit nor the queue (R476). -/
def Chip.recNow (m : Chip) (code sev : Nat) (ps : List Nat) : Rec :=
  { code := code, sev := sev, src := 14, stamp := m.stamp, hours := m.opHours, based := true,
    pcc := (m.rd (REC_PCC_PCC.addr 0x24)).toNat, params := ps }

/-- Write the oldest queued record, with a record of drops before it once the queue has space (R457, R476). -/
def Chip.recWrite (m : Chip) : Chip :=
  match m.recRegion, m.rcd.queue with
  | some g, e :: t =>
    if m.rcd.droppedSince = 0 ∨ 16 ≤ m.rcd.queue.length then
      ({ m with rcd := { m.rcd with queue := t } }).recPut g [e]
    else
      ({ m with rcd := { m.rcd with queue := t, droppedSince := 0 } }).recPut g
        [m.recNow 0x8032 2 [up m.rcd.droppedSince], e]
  | _, _ => m

/-- Write all queued records, at most 16 of them: what the store does between two pages (R457). DESIGN CHOICE, safe
(log 61). -/
def Chip.recFlush (m : Chip) : Chip :=
  if m.recMay then (List.range 16).foldl (fun m _ => m.recWrite) m else m

/-- Storage word `k` of a record slot, empty where it does not read. -/
def Chip.recWord (m : Chip) (g : NvRegion) (i k : Nat) : List Nat × Chip :=
  let off := recOffset g i + 8 * k
  let r := m.nvReadWord 15 (off / 256) (off % 256 / 8)
  (r.1.getD [], r.2)

/-- CODE of a record slot, 0 where its word does not read. -/
def Chip.recCode (m : Chip) (g : NvRegion) (i : Nat) : Nat × Chip :=
  let r := m.recWord g i 0
  (le16 r.1, r.2)

/-- Count forward while slots hold a record. -/
def Chip.recForward (m : Chip) (g : NvRegion) : Nat → Nat → Nat × Chip
  | 0, i => (i, m)
  | f + 1, i =>
    if recCapacity g.size ≤ i then (i, m)
    else
      let c := m.recCode g i
      if c.1 = 0 then (i, c.2) else Chip.recForward c.2 g f (i + 1)

/-- Count backward while the slot below holds none. -/
def Chip.recBackward (m : Chip) (g : NvRegion) : Nat → Nat × Chip
  | 0 => (0, m)
  | i + 1 =>
    let c := m.recCode g i
    if c.1 = 0 then Chip.recBackward c.2 g i else (i + 1, c.2)

/-- The end of the records, looked for from the header's count (R459). -/
def Chip.recEnd (m : Chip) (g : NvRegion) (n : Nat) : Nat × Chip :=
  let x := m.recForward g (recCapacity g.size) n
  x.2.recBackward g x.1

/-- The start is complete once the header is written: the queued records are written, then its codes (R459, R505). -/
def Chip.recOpened (m : Chip) : Chip :=
  let m := { m with rcd := { m.rcd with opening := false, started := true, headAt := m.tim.tick } }
  let m := (m.put 0x24 REC_STAT_STARTED 1).recFlush
  let m := m.emit 0xA040 [m.get 0x01 CLK_RSTC_CAUSE, m.get 0x01 CLK_RSTCNT_COUNT, m.get 0x01 CLK_BOOT_LASTPH]
  m.emit 0x8030 [up (m.rd (REC_PCC_PCC.addr 0x24)).toNat, m.get 0x24 REC_STAT_NREC, m.get 0x24 REC_STAT_HDRNEW]

/-- The start of the recorder (R459, R505): the header is written at once where the store may, and else as a record
write that waits (R408, R421). -/
def Chip.recStart (m : Chip) : Chip :=
  match m.recRegion with
  | none => m
  | some g =>
    if m.rcd.started || m.rcd.opening || !m.enabled 0x24 || m.nvClosed then m
    else
      let r := m.recReadTold (16 * g.base)
      let p := r.1.payload
      let m := r.2.putB 0x24 REC_STAT_HDRNEW r.1.absent
      let x := m.recEnd g (Nat.min (recCapacity g.size) (le16 (p.drop 8)))
      let m := (x.2.put 0x24 REC_STAT_NREC x.1).putB 0x24 REC_STAT_FULL (x.1 == recCapacity g.size)
      let m := m.put 0x24 REC_PCC_PCC (le32 p + (if bit m.causes 0 then 1 else 0))
      let m := { m with rcd := { m.rcd with
        hdrBase := le32 (p.drop 4), dropTotal := satU 32 (le32 (p.drop 12) + m.rcd.dropTotal), opening := true } }
      if m.nvPermitted && !m.nv.writing then (m.recWriteNow (16 * g.base) m.recHeader).2.recOpened else m.recHeaderDue

/-! ### Clear and search (R462, R464) -/

/-- CODE 0 is written into the record of a slot; of a word that does not read, into the whole word. -/
def Chip.recZero (m : Chip) (g : NvRegion) (i : Nat) : Chip :=
  let off := recOffset g i
  let r := m.nvReadWord 15 (off / 256) (off % 256 / 8)
  match r.1 with
  | some d => r.2.nvWriteWord (off / 256) (off % 256 / 8) (0 :: 0 :: d.drop 2)
  | none => r.2.nvWriteWord (off / 256) (off % 256 / 8) (List.replicate 8 0)

/-- Clear the records from the last one downward to `left` of them, a write operation with its journal entries (R415),
then the header, then code 0x8031 (R462, R476). -/
def Chip.recErase (m : Chip) (req left : Nat) : Chip :=
  match m.recRegion with
  | none => m
  | some g =>
    let n := m.get 0x24 REC_STAT_NREC
    let page := fun i => recOffset g i / 256
    let down := (List.range (n - left)).map (fun k => n - 1 - k)
    let pages := if left < n then page (n - 1) + 1 - page left else 0
    let m := (down.foldl (fun (m : Chip) i =>
      (if i + 1 = n ∨ page i ≠ page (i + 1) then m.nvJournal 2 (page i) else m).recZero g i) (m.nvJournal 1 pages)).nvJournal 3 pages
    let m := (m.put 0x24 REC_STAT_NREC left).put 0x24 REC_STAT_FULL 0
    let m := (m.recWriteNow (16 * g.base) m.recHeader).2
    m.recPut g [m.recNow 0x8031 1 [req, n - left]]

/-- Can a clear run now (R459, R462)? Its header waits for every operation of the store before it (R421), and the
clear with it. DEDUCED, unsafe (log 69). -/
def Chip.recClearMay (m : Chip) : Bool :=
  m.rcd.started && m.enabled 0x24 && m.recRegion.isSome && m.nvPermitted && !m.nvClosed && !m.nv.writing

/-- The clear has run to its end. -/
def Chip.recClearEnd (m : Chip) : Chip :=
  match m.opOf 0x24 with
  | some o =>
    if o.cmd = 2 ∧ m.recClearMay then
      let n := m.get 0x24 REC_STAT_NREC
      (m.recErase o.req 0).endDone 0x24 [BitVec.ofNat 32 n]
    else m
  | none => m

/-- An abort stops a clear after the record in progress: how many it had cleared by then is open. DESIGN CHOICE, safe
(log 3); DESIGN CHOICE, safe (log 67). -/
def Chip.recAbort (m : Chip) : Chip :=
  let prog := m.get 0x24 HDR_STATUS_PROGRESS
  let m := match m.opOf 0x24 with
    | some o =>
      if o.cmd = 2 ∧ m.recClearMay then
        let f := m.freeWord
        f.2.recErase o.req (f.1.toNat % (m.get 0x24 REC_STAT_NREC + 1))
      else m
    | none => m
  m.endErr 0x24 0x05 prog

/-- The eight words of a record, 0 beyond NREC. -/
def Chip.recWords (m : Chip) (i : Nat) : List Word × Chip :=
  match m.recRegion with
  | none => (List.replicate 8 0, m)
  | some g =>
    if m.get 0x24 REC_STAT_NREC ≤ i then (List.replicate 8 0, m)
    else (List.range 4).foldl (fun (a : List Word × Chip) k =>
        let r := a.2.recWord g i k
        (a.1 ++ [BitVec.ofNat 32 (le32 r.1), BitVec.ofNat 32 (le32 (r.1.drop 4))], r.2)) ([], m)

/-- May a requester read the recorder's region (R463, R464)? -/
def Chip.recReadable (m : Chip) (r : Nat) : Bool :=
  match m.recRegion with
  | some g => match m.nv.regionOf (16 * g.base) with
    | some k => m.nv.mayAccess r k false
    | none => true
  | none => true

/-- Does a record match the filter (R464)? -/
def Chip.recFits (m : Chip) (i : Nat) : Bool :=
  let w := ((m.recWords i).1[0]?).getD 0
  bit (m.get 0x24 REC_FILT_CLASSM) (w.toNat % 65536 / 4096) && decide (m.get 0x24 REC_FILT_MINSEV ≤ w.toNat / 65536 % 8)

/-- The first record from an index that matches the filter. -/
def Chip.recFind (m : Chip) (start : Nat) : Option Nat :=
  ((List.range (m.get 0x24 REC_STAT_NREC - start)).map (fun k => start + k)).find? m.recFits

/-- A search has examined `k` records: PROGRESS (R464). -/
def Chip.recSeen (m : Chip) (o : LongOp) (k : Nat) : Chip :=
  (m.setOp { o with a := k }).progress 0x24 (255 * k / (m.get 0x24 REC_STAT_NREC - o.arg % 16384))

/-- How far a running search has come at this moment is open: a free number of records, no fewer than at the last look
and none behind the one it will find. DESIGN CHOICE, safe (log 3); DESIGN CHOICE, safe (log 67). -/
def Chip.recGlance (m : Chip) : Chip :=
  match m.opOf 0x24 with
  | some o =>
    let start := o.arg % 16384
    let last := (m.recFind start).getD (m.get 0x24 REC_STAT_NREC)
    if o.cmd = 1 ∧ start < last then
      let f := m.freeWord
      f.2.recSeen o (Nat.max o.a (f.1.toNat % (last - start)))
    else m
  | none => m

/-- OPCMD 0x01 reaches its end: the first record from an index that matches the filter, and the words examined are read
(R464). -/
def Chip.recSearch (m : Chip) (o : LongOp) : Chip :=
  let start := o.arg % 16384
  let n := m.get 0x24 REC_STAT_NREC
  let found := m.recFind start
  let upTo := found.getD n
  let m := match m.recRegion with
    | some g => (List.range (upTo - start)).foldl (fun (m : Chip) k => (m.recWord g (start + k) 0).2) m
    | none => m
  match found with
  | some i =>
    let w := m.recWords i
    w.2.endDone 0x24 (BitVec.ofNat 32 i :: w.1.take 5)
  | none => m.endDone 0x24 [0xFFFFFFFF]

/-- An operation of the recorder that runs reaches its end (R462, R464). -/
def Chip.recOpEnd (m : Chip) (o : LongOp) : Chip :=
  if m.nvClosed then m else if o.cmd = 1 then m.recSearch o else m.recClearEnd

/-- The REC page has accepted a command (R462, R464). -/
def Chip.recOpStart (m : Chip) : Chip :=
  match m.opOf 0x24 with
  | none => m
  | some o =>
    if o.cmd = 1 then (if m.recReadable o.req then m else m.endErr 0x24 0x11 0)
    else if o.cmd = 2 then
      if !m.unlockedFor o.req 0x24 then m.endErr 0x24 0x04 0
      else if !isHost o.req then m.endErr 0x24 0x10 0
      else if m.recRegion.isNone then m.endErr 0x24 0x12 0
      else m
    else m.endErr 0x24 0x01 0

/-! ### Reading and software records (R463, R465) -/

/-- A read of RD0: the record of the requester's RDIDX goes into its shadow. -/
def Chip.rd0 (m : Chip) (r : Nat) : Nat × Chip :=
  let idx := (m.rd (reqKey r (REC_RDIDX_IDX.addr 0x24))).toNat % 16384
  let w := if m.recReadable r && !m.nvClosed then m.recWords idx else (List.replicate 8 0, m)
  let m := (w.1.zip (List.range 8)).foldl (fun m x => m.setShadow r (REC_RD_DATA.addr 0x24 x.2) x.1) w.2
  (((w.1[0]?).getD 0).toNat, m)

/-- A write of PUTCODE (R465). -/
def Chip.putCode (m : Chip) (r v : Nat) : Chip :=
  let code := v % 65536
  if code / 4096 ≠ 15 ∨ code % 4096 = 0 ∨ r = 3 then m.irq 0x24 6
  else m.record code (v / 65536 % 8) (0x20 + r) m.stamp
    ((List.range 4).map (fun k => (m.rd (reqKey r (REC_PUTP_P.addr 0x24 k))).toNat % 2 ^ 24))

/-- Ticks in which a bucket of a code gains one token: REFILL × 10 ms, 0 treated as 1 (R455). DEDUCED, unsafe (log
120). -/
def Chip.refillTicks (m : Chip) (code : Nat) : Nat :=
  let n := match (List.range 8).find? (fun k => m.get 0x24 REC_RL_CODE k == code && code != 0) with
    | some k => m.get 0x24 REC_RL_REFILL k
    | none => m.get 0x24 REC_CFG_REFILL
  Nat.max 1 n * (10 * msTicks)

/-- A bucket of a code whose refill time has passed gains one token, up to DEPTH (R455). -/
def Chip.bucketAdd (m : Chip) (code : Nat) (b : Bucket) : Bucket :=
  if m.refillTicks code ≤ m.ticksSince b.since then
    { b with tokens := Nat.min (m.rateDepth code) (b.tokens + 1), since := (b.since + m.refillTicks code) % 2 ^ 64 }
  else b

/-- A bucket gains a token that is due (R455); code 0 is the overflow bucket. -/
def Chip.recRefill (m : Chip) (code : Nat) : Chip :=
  let add := m.bucketAdd code
  if code = 0 then
    (if m.rcd.overflowFresh then m else { m with rcd := { m.rcd with overflow := add m.rcd.overflow } })
  else { m with rcd := { m.rcd with buckets := m.rcd.buckets.map (fun b => if b.code = code then add b else b) } }

/-! ### Commands -/

/-- RECORD_WRITE (R457). -/
def execRecordWrite (s : State) : Host.Outcome State Fault Refusal :=
  s.run (fun m => if m.recMay then m.recWrite else m)

/-- RATE_LIMIT_REFILL (R455): the bucket of a code, 0 for the overflow bucket. -/
def execRateLimitRefill (code : BitVec 16) (s : State) : Host.Outcome State Fault Refusal :=
  s.run (fun m => m.recRefill code.toNat)

/-- RECORDER_START (R459). -/
def execRecorderStart (s : State) : Host.Outcome State Fault Refusal := s.run Chip.recStart

/-- Ticks in the 1/16 h between two header writes (R460). -/
def headerTicks : Nat := 256 * ticksPerHourPart

/-- Is a timed header write due: 1/16 h since the last, while writes are permitted (R460)? -/
def Chip.headerDue (m : Chip) : Bool :=
  m.rcd.started && m.enabled 0x24 && m.nvPermitted && decide (headerTicks ≤ m.ticksSince m.rcd.headAt)

/-- RECORDER_HEADER_WRITE (R460). -/
def execRecorderHeaderWrite (s : State) : Host.Outcome State Fault Refusal :=
  s.run (fun m =>
    if m.headerDue then ({ m with rcd := { m.rcd with headAt := m.tim.tick } }).recHeaderDue else m)

/-- RECORDER_ENABLE_WRITE (R459). -/
def execRecorderEnableWrite (r : Requester) (en : Bool) (s : State) : Host.Outcome State Fault Refusal :=
  s.run (fun m => m.onPage (reqCode r) 0x24 (fun m => m.recEnable en))

/-- RECORDER_CLEAR (R462). -/
def execRecorderClear (r : Requester) (s : State) : Host.Outcome State Fault Refusal :=
  s.run (fun m => m.startOp 0x24 2 (reqCode r) Chip.recOpStart)

/-- RECORDER_SEARCH (R464). -/
def execRecorderSearch (r : Requester) (arg : Word) (s : State) : Host.Outcome State Fault Refusal :=
  s.run (fun m => (m.wr (0x24 * 0x400 + 0x24) arg).startOp 0x24 1 (reqCode r) Chip.recOpStart)

/-- RD0_READ (R463). -/
def execRd0Read (r : Requester) (s : State) : Host.Outcome State Fault Refusal :=
  s.run (fun m => m.onPage (reqCode r) 0x24 (fun m => (m.rd0 (reqCode r)).2))

/-- PUTCODE_WRITE (R465). -/
def execPutcodeWrite (r : Requester) (v : Word) (s : State) : Host.Outcome State Fault Refusal :=
  s.run (fun m => m.onPage (reqCode r) 0x24 (fun m => m.putCode (reqCode r) v.toNat))

end Sys2Proof.Machine
end

