-- ==== Sys2Proof/Machine/BlackBox.lean ====
section
/-! DEFINITION. The black box (R468–R474, R478): points, states, slots and their headers. -/

namespace Sys2Proof.Machine

/-- NCHMAX; 0 is treated as 1, above 16 as 16. -/
def Chip.nchMax (m : Chip) : Nat := clampN 1 16 (m.get 0x25 BBX_CFG_NCHMAX)

/-- Number of slots of a region (R472). -/
def slotCount (size nch : Nat) : Nat := Nat.min 8 ((size * 4096 - 4096) / (nch * 2048))

/-- Page of a slot's header. -/
def slotHeaderPage (g : NvRegion) (k : Nat) : Nat := 16 * g.base + 2 * k

/-- Byte offset of a slot's data in the store (R472). -/
def Chip.slotData (m : Chip) (g : NvRegion) (k : Nat) : Nat := g.base * 4096 + 0x1000 + k * m.nchMax * 0x800

/-- A slot's header, as read with the codes of R420; absent reads as free. -/
def Chip.slotHeader (m : Chip) (k : Nat) : List Nat × Chip :=
  match m.nv.ownedBy 2 with
  | some g => let r := m.recReadTold (slotHeaderPage g k); (r.1.payload, r.2)
  | none => ([], m)

/-- The headers of several slots, as read in turn. -/
def Chip.slotHeaders (m : Chip) (ks : List Nat) : List (Nat × List Nat) × Chip :=
  ks.foldl (fun (x : List (Nat × List Nat) × Chip) k => let h := x.2.slotHeader k; (x.1 ++ [(k, h.1)], h.2)) ([], m)

/-- The capture sequence number a header's payload holds (R473). -/
def headerSeq (h : List Nat) : Nat := le32 (h.drop 40)

/-- NOREG, NSLOT and VALID follow the region table and the headers (R449, R472). The capture sequence number counts on
from the highest a header of the region holds, and restarts where the region is newly set (R473). DESIGN CHOICE,
unsafe (log 99). -/
def Chip.bbxGeometry (m : Chip) (fresh : Bool) : Chip :=
  if !isFull m.die.part then m
  else match m.nv.ownedBy 2 with
  | none => ((m.put 0x25 BBX_STAT_NOREG 1).put 0x25 BBX_STAT_NSLOT 0).put 0x25 BBX_STAT_VALID 0
  | some g =>
    let n := slotCount g.size m.nchMax
    let m := (m.put 0x25 BBX_STAT_NOREG 0).put 0x25 BBX_STAT_NSLOT n
    if m.nvClosed then m
    else
    let hs := m.slotHeaders (List.range 8)
    let m := hs.2
    let valid := hs.1.foldl (fun v h => if h.1 < n ∧ (h.2[0]?).getD 0 = 1 then setBit v h.1 else v) 0
    let seq := if fresh then 0 else hs.1.foldl (fun s h => Nat.max s (headerSeq h.2)) m.bbx.seq
    { m.put 0x25 BBX_STAT_VALID valid with bbx := { m.bbx with seq := seq } }

/-- The region table was set: the black box's region counts its captures anew where it has changed (R473). -/
def Chip.bbxRegion (m : Chip) (was : Option NvRegion) : Chip := m.bbxGeometry (m.nv.ownedBy 2 != was)

/-- The point of one channel by its CHCFG word (R468). -/
def Chip.bbxValue (m : Chip) (cfg : Nat) : Nat :=
  let i := cfg % 32
  if !bit cfg 31 then 0
  else match cfg / 32 % 8 with
  | 1 => m.get 3 MEA_WP_CODE i / 256
  | 2 => m.get 3 MEA_SUPRES_CODE i
  | 3 => m.get 3 MEA_IPHRES_CODE i
  | 4 => m.get 3 MEA_PMONRES_CODE i
  | 5 =>
    let pg := marPg (i % 4)
    if i / 4 = 0 then m.get pg MAR_DUTY_D else if i / 4 = 1 then m.get pg MAR_ILOOP_I else m.get pg MAR_ERR_X / 512 % 65536
  | 6 => m.dg DOM_MON_I i
  | _ => 0

/-- Entry into FILL: the channel words take effect (R468, R469). -/
def Chip.bbxFill (m : Chip) : Chip :=
  let m := { m with bbx := { m.bbx with active := (List.range 16).map (fun c => (m.rd (BBX_CHCFG_EN.addr 0x25 c)).toNat) } }
  m.put 0x25 BBX_STAT_STATE 1

/-- FILL or ARMED, by the points in the ring. -/
def Chip.bbxRearm (m : Chip) : Chip :=
  if 512 ≤ m.bbx.ring.length then m.put 0x25 BBX_STAT_STATE 2 else m.bbxFill

/-- The valid slot with the lowest capture sequence number, by the headers read. -/
def Chip.bbxOldest (m : Chip) : Option Nat × Chip :=
  let hs := m.slotHeaders (bitsUp (m.get 0x25 BBX_STAT_VALID) 8)
  ((hs.1.foldl (fun (b : Option (Nat × Nat)) h => match b with
    | none => some (h.1, headerSeq h.2)
    | some x => if headerSeq h.2 < x.2 then some (h.1, headerSeq h.2) else some x) none).map (fun x => x.1), hs.2)

/-- The payload of a free slot's header (R473): it keeps the capture sequence number, which counts on. The read is the
one that the write of the record makes (R421). DESIGN CHOICE, unsafe (log 99). -/
def Chip.bbxFreePayload (m : Chip) (g : NvRegion) (k : Nat) : List Nat :=
  List.replicate 40 0 ++ bytesOf 4 (headerSeq (m.recRead (slotHeaderPage g k)).1.payload)

/-- A slot's header is to be written free (R474). -/
def Chip.bbxFree (m : Chip) (k : Nat) : Chip :=
  match m.nv.ownedBy 2 with
  | some g => m.nvEnqueue { kind := .bbxHeader, arg := k, page := slotHeaderPage g k, payload := m.bbxFreePayload g k }
  | none => m

/-- The header of the slot that the frozen capture overwrites is written free, between two pages and before the
capture's first page (R457, R474). DEDUCED, unsafe (log 69). -/
def Chip.bbxOverwrite (m : Chip) : Chip :=
  match m.nv.ownedBy 2 with
  | none => m
  | some g =>
    let k := m.bbx.slot
    if m.capDue && bit (m.get 0x25 BBX_STAT_VALID) k && m.nvPermitted && !m.nvClosed && m.nv.betweenPages then
      (m.recWriteNow (slotHeaderPage g k) (m.bbxFreePayload g k)).2.maskClr 0x25 BBX_STAT_VALID k
    else m

/-- The flags of several waypoints combined (R105, R471). -/
def combineAll : List Nat → Nat
  | [] => 0
  | f :: t => t.foldl combineFlags f

/-- The window is complete (R469, R471): the half is frozen with its slot chosen, and the ring restarts empty.
DEDUCED, unsafe (log 69). -/
def Chip.bbxHold (m : Chip) : Chip :=
  let pts := (m.bbx.ring.take (512 + m.bbx.pre)).reverse
  let m := { m with bbx := { m.bbx with
    frozen := pts, ring := [], after := 0, window := combineAll m.bbx.flags, taken := 0, half := 1 - m.bbx.half } }
  let m := (m.put 0x25 BBX_STAT_STATE 4).put 0x25 BBX_STAT_FILL 0
  match m.bbxSlotFree with
  | some k => { m with bbx := { m.bbx with slot := k } }
  | none => match m.bbxOldest with
    | (some k, m) => ({ m with bbx := { m.bbx with slot := k } }).bbxOverwrite
    | (none, m) => m

/-- Did the trigger fall on the boundary whose point is taken, and so into the waypoint that begins there (R471)? The
cycle boundary of the same instant can have brought it. -/
def Chip.bbxTrigNow (m : Chip) : Bool := m.bbx.after == 0 && m.bbx.trigStamp.num == m.stamp.num

/-- The flags of the waypoint that a boundary closes (R471). -/
def Chip.bbxFlags (m : Chip) : Chip :=
  if isFull m.die.part then { m with bbx := { m.bbx with flags := (m.flags :: m.bbx.flags).take 1024 } } else m

/-- A point at a waypoint boundary (R468, R469). -/
def Chip.bbxPoint (m : Chip) : Chip :=
  let m := m.bbxFlags
  let st := m.get 0x25 BBX_STAT_STATE
  if !isFull m.die.part ∨ st = 0 ∨ !m.enabled 0x25 then m
  else
    let at_ := m.bbx.taken
    let m := { m with bbx := { m.bbx with
      ring := (m.bbx.active.map m.bbxValue :: m.bbx.ring).take 1024, taken := (at_ + 1) % 1024 } }
    let m := m.unitWrite 0x16 (fun k => k / 4 == 1024 * m.bbx.half + at_)
    let m := m.put 0x25 BBX_STAT_FILL (Nat.min 512 m.bbx.ring.length)
    if st = 1 ∧ 512 ≤ m.bbx.ring.length then m.put 0x25 BBX_STAT_STATE 2
    else if st = 3 ∧ m.bbxTrigNow = true then
      { m with bbx := { m.bbx with pre := Nat.min 512 m.bbx.ring.length } }
    else if st = 3 then
      let m := { m with bbx := { m.bbx with after := m.bbx.after + 1 } }
      if m.bbx.after = 512 then m.bbxHold else m
    else m

/-- The header of the capture in hand (R473). -/
def Chip.bbxHeader (m : Chip) (seq : Nat) : List Nat :=
  let b := m.bbx
  let nch := (b.active.filter (fun c => bit c 31)).length
  [1, nch, b.trigLine % 256, b.further % 256] ++ bytesOf 4 b.trigStamp.cycle ++ bytesOf 2 b.trigStamp.angle ++
    [b.trigStamp.flags % 8, b.window] ++ bytesOf 4 b.trigHours ++ bytesOf 4 b.trigPcc ++ bytesOf 2 b.pre ++
    bytesOf 2 b.furtherAngle ++ b.active.map (fun c => c % 256) ++ bytesOf 4 seq

/-- The data of the capture: the enabled channels in order, 1024 points each, point 0 first (R471, R472). -/
def BbxSt.data (b : BbxSt) : List Nat :=
  let pad := 1024 - b.frozen.length
  ((List.range 16).filter (fun c => bit ((b.active[c]?).getD 0) 31)).flatMap (fun c =>
    List.replicate (2 * pad) 0 ++ b.frozen.flatMap (fun p => bytesOf 2 ((p[c]?).getD 0)))

/-- The slot write of a frozen capture completes (R473, R474): the records queued before it, then data, then header;
the records that it brings are written before the next page of a commit (R457). DEDUCED, unsafe (log 69). -/
def Chip.bbxStored (m : Chip) : Chip :=
  match m.nv.ownedBy 2 with
  | none => m
  | some g =>
    let k := m.bbx.slot
    if m.get 0x25 BBX_STAT_STATE ≠ 4 ∨ m.nvClosed ∨ !m.nvPermitted ∨ !m.nv.betweenPages ∨ m.get 0x25 BBX_STAT_NSLOT ≤ k then m
    else
      let m := m.recFlush.bbxOverwrite.unitRead 0x16 (fun k => k / 4096 == 1 - m.bbx.half)
      let seq := (m.bbx.seq + 1) % 2 ^ 32
      let data := m.bbx.data
      let off := m.slotData g k
      let pages := data.length / 256
      let m := m.nvJournal 1 pages
      let m := (List.range pages).foldl (fun m i =>
        (m.nvJournal 2 (off / 256 + i)).nvWriteBytes (off + 256 * i) ((data.drop (256 * i)).take 256) 32) m
      let m := m.nvJournal 3 pages
      let m := (m.recWriteNow (slotHeaderPage g k) (m.bbxHeader seq)).2
      let line := m.bbx.trigLine
      let m := { m with
        bbx := { m.bbx with seq := seq, frozen := [] }
        nv := { m.nv with wait := m.nv.wait.filter (fun j => !(j.kind == NvKind.bbxHeader && j.arg == k)) } }
      let m := ((m.maskSet 0x25 BBX_STAT_VALID k).put 0x25 BBX_LAST_SEQ seq).put 0x25 BBX_LAST_SLOT k
      let m := ((m.raise 111).irq 0x25 4).emit 0x8033 [k, line, up seq]
      let m := if m.bbxSlotFree.isNone then m.emit 0x8035 [k] else m
      (if m.enabled 0x25 then m.bbxRearm else m.put 0x25 BBX_STAT_STATE 0).settle.recFlush.nvKick

/-- CTRL.ENABLE (R469): off at once, but a capture being stored completes first. -/
def Chip.bbxEnable (m : Chip) (en : Bool) : Chip :=
  let st := m.get 0x25 BBX_STAT_STATE
  let m := m.putB 0x25 HDR_CTRL_ENABLE en
  if en then (if st = 0 then m.bbxFill else m)
  else
    let m := ({ m with bbx := { m.bbx with ring := [], after := 0, taken := 0 } }).put 0x25 BBX_STAT_FILL 0
    if st = 4 then m else m.put 0x25 BBX_STAT_STATE 0

/-- A write of SLOTREL (R474): the slots' headers are written free, but for the slot being written. -/
def Chip.bbxRelease (m : Chip) (r v : Nat) : Chip :=
  if !isHost r ∨ !m.unlockedFor r 0x25 then m.irq 0x25 6
  else
    let busy := m.get 0x25 BBX_STAT_STATE == 4
    (bitsUp v (m.get 0x25 BBX_STAT_NSLOT)).foldl (fun m k => if busy && k == m.bbx.slot then m else m.bbxFree k) m

/-- Does a channel word name a source that exists (R468)? -/
def bbxSource (p : Part) (kind i : Nat) : Bool :=
  match kind with
  | 0 => true
  | 1 => decide (i < 24) && chainPresent p i
  | 2 => decide (i < 24)
  | 3 => decide (i < nPhases p)
  | 4 => decide (i < 16)
  | 5 => decide (i / 4 < 3) && decide (i % 4 < nLoops p)
  | 6 => decide (i < nDomains p)
  | _ => false

/-- A write of CHCFGc (R468, R472). -/
def Chip.bbxChcfg (m : Chip) (c v : Nat) : Chip :=
  let others := ((List.range 16).filter (fun k => k != c && m.has 0x25 BBX_CHCFG_EN k)).length
  if !bbxSource m.die.part (bitsOf v 5 3) (v % 32) ∨ (bit v 31 ∧ m.nchMax ≤ others) then m.irq 0x25 6
  else ((m.put 0x25 BBX_CHCFG_EN (v / 2 ^ 31) c).put 0x25 BBX_CHCFG_KIND (v / 32) c).put 0x25 BBX_CHCFG_INDEX v c

/-- A write of CFG (R472): NCHMAX changes only in OFF with every slot free, and not below the channels enabled. DESIGN
CHOICE, unsafe (log 99). -/
def Chip.bbxCfgWrite (m : Chip) (v : Nat) : Chip :=
  let on := ((List.range 16).filter (fun k => m.has 0x25 BBX_CHCFG_EN k)).length
  if bitsOf v 24 5 ≠ m.get 0x25 BBX_CFG_NCHMAX then
    if m.get 0x25 BBX_STAT_STATE ≠ 0 ∨ m.get 0x25 BBX_STAT_VALID ≠ 0 ∨ clampN 1 16 (bitsOf v 24 5) < on then m.irq 0x25 6
    else ((m.put 0x25 BBX_CFG_OVRW (v / 2 ^ 31)).put 0x25 BBX_CFG_NCHMAX (v / 2 ^ 24)).bbxGeometry false
  else m.put 0x25 BBX_CFG_OVRW (v / 2 ^ 31)

/-- The BBX page has accepted a command (R478). -/
def Chip.bbxOpStart (m : Chip) : Chip :=
  match m.opOf 0x25 with
  | none => m
  | some o =>
    let k := o.arg % 8
    if o.cmd ≠ 1 ∧ o.cmd ≠ 2 then m.endErr 0x25 0x01 0
    else if m.get 0x25 BBX_STAT_NSLOT ≤ k then m.endErr 0x25 0x02 0
    else if !bit (m.get 0x25 BBX_STAT_VALID) k then m.endErr 0x25 0x10 0
    else
      let x := m.slotHeader k
      let h := x.1
      let m := x.2
      let b := fun i => (h[i]?).getD 0
      let w := fun i => BitVec.ofNat 32 (le32 (h.drop i))
      let addr := match m.nv.ownedBy 2 with
        | some g => 0x00100000 + m.slotData g k
        | none => 0
      if o.cmd = 1 then
        m.endDone 0x25 [w 4, BitVec.ofNat 32 (le16 (h.drop 8) + b 10 % 8 * 2 ^ 16 + b 11 % 8 * 2 ^ 19 + b 3 * 2 ^ 24),
          BitVec.ofNat 32 (b 2 + b 1 * 2 ^ 8 + le16 (h.drop 20) * 2 ^ 16), w 12, BitVec.ofNat 32 addr, w 16]
      else m.endDone 0x25 [w 24, w 28, w 32, w 36, w 40]

/-! ### Commands -/

/-- BBX_TRIG_GO (R470). -/
def execBbxTrigGo (r : Requester) (s : State) : Host.Outcome State Fault Refusal :=
  s.run (fun m => m.onPage (reqCode r) 0x25 (fun m => m.bbxTrigger 0xFF m.stamp m.tim.tick))

/-- BBX_SLOT_WRITE_END (R473). -/
def execBbxSlotWriteEnd (s : State) : Host.Outcome State Fault Refusal := s.run Chip.bbxStored

/-- BBX_ENABLE_WRITE (R469). -/
def execBbxEnableWrite (r : Requester) (en : Bool) (s : State) : Host.Outcome State Fault Refusal :=
  s.run (fun m => m.onPage (reqCode r) 0x25 (fun m => m.bbxEnable en))

/-- BBX_SLOTREL_WRITE (R474). -/
def execBbxSlotrelWrite (r : Requester) (v : BitVec 8) (s : State) : Host.Outcome State Fault Refusal :=
  s.run (fun m => m.onRwl (reqCode r) 0x25 (fun m => m.bbxRelease (reqCode r) v.toNat))

/-- BBX_CHCFG_WRITE (R468). -/
def execBbxChcfgWrite (r : Requester) (c : Fin 16) (v : Word) (s : State) : Host.Outcome State Fault Refusal :=
  s.run (fun m => m.onUnlocked (reqCode r) 0x25 (0x060 + 4 * c.val) v.toNat (fun m => m.bbxChcfg c.val v.toNat))

/-- BBX_SLOT_INFO (R478). -/
def execBbxSlotInfo (r : Requester) (arg : Word) (s : State) : Host.Outcome State Fault Refusal :=
  s.run (fun m => m.onPage (reqCode r) 0x25 (fun m =>
    (m.wr (0x25 * 0x400 + 0x24) arg).startOp 0x25 1 (reqCode r) Chip.bbxOpStart))

/-- BBX_SLOT_CHANNEL_MAP (R478). -/
def execBbxSlotChannelMap (r : Requester) (arg : Word) (s : State) : Host.Outcome State Fault Refusal :=
  s.run (fun m => m.onPage (reqCode r) 0x25 (fun m =>
    (m.wr (0x25 * 0x400 + 0x24) arg).startOp 0x25 2 (reqCode r) Chip.bbxOpStart))

end Sys2Proof.Machine
end

