-- ==== Sys2Proof/Machine/Integrity.lean ====
section
/-! DEFINITION. The scrubber, the correction log's commands and the spare rows (R439–R448). -/

namespace Sys2Proof.Machine

/-! ### Walk (R442, R443) -/

/-- The arrays of a pass, ascending (R442). -/
def scrubArrays (p : Part) (nvm : Bool) : List Nat :=
  ((List.range 24) ++ (if nvm then [0x20, 0x21, 0x22, 0x23] else [])).filter (fun a => arrayWords p a != 0)

/-- The first word of the next array at or above a number; none at the end of the pass. -/
def scrubFrom (p : Part) (nvm : Bool) (a w : Nat) : Option (Nat × Nat) :=
  if w < arrayWords p a ∧ (scrubArrays p nvm).contains a then some (a, w)
  else ((scrubArrays p nvm).find? (fun b => decide (a < b) || (b == a && decide (w < arrayWords p b)))).map (fun b => (b, if b = a then w else 0))

/-- Words of a pass. -/
def passWords (p : Part) (nvm : Bool) : Nat := ((scrubArrays p nvm).map (arrayWords p)).sum

/-- What reading one word in the scrub did: corrected, failed, write-back skipped. -/
structure Scrubbed where
  ce : Bool
  ue : Bool
  skip : Bool
  chip : Chip

/-- The scrubber reads one word and mends it (R442, R443). `upset` are symbols that differ since the word was written,
those above position 11 for this access alone; `stuck` says that they stay after the write-back. DEDUCED, unsafe (log
57). -/
def Chip.scrubOne (m : Chip) (arr w upset : Nat) (stuck : Bool) : Scrubbed :=
  let e := m.upsets arr w ^^^ (upset % 2 ^ 96)
  let m := m.setUpsets arr w e
  let r := m.wordReadWith 15 arr w (upset / 2 ^ 96 * 2 ^ 96)
  match r.data with
  | none => ⟨false, true, false, r.chip⟩
  | some d =>
    if !r.corrected then ⟨false, false, false, r.chip⟩
    else if 0x20 ≤ arr ∧ !r.chip.nvPermitted then ⟨true, false, true, r.chip.count 0x27 SCB_WBSKIP_COUNT⟩
    else
      let m := r.chip.wordWrite arr w d
      if stuck then
        let again := (m.setUpsets arr w e).wordRead 15 arr w
        let m := again.chip
        ⟨true, false, false, match m.logOf arr w with
          | some k => m.put 0x26 ECC_LOG_STUCK 1 k
          | none => m⟩
      else ⟨true, false, false, m⟩

/-- May the scrubber start a word of an array now (R346, R443)? -/
def Chip.scrubMay (m : Chip) (arr : Nat) : Bool :=
  !(m.has 0x22 THM_MASK_SCBT && decide (2 ≤ m.get 0x22 THM_STAT_LEVEL)) &&
  (decide (arr < 0x20) || m.nvState == 1)

/-- The interval between two words in ticks: that of the pass on demand, or INTV, and at level 1 of the throttle seven
idle intervals after each word (R346, R442, R448). -/
def Chip.scrubInterval (m : Chip) (intv : Nat) : Nat :=
  let n := Nat.max 1 (if intv = 0 then m.get 0x27 SCB_CFG_INTV else intv)
  n * usTicks * (if m.has 0x22 THM_MASK_SCBT && m.get 0x22 THM_STAT_LEVEL == 1 then 8 else 1)

/-- Has the interval passed since the last word? -/
def Chip.scrubDue (m : Chip) (intv : Nat) : Bool := decide (m.scrubInterval intv ≤ m.ticksSince m.ecc.lastWord)

/-- A pass ends, of the walk or on demand: PASSCNT, LASTPASS, PASSERR, ev109 and IRQ bit PASS (R442). -/
def Chip.scrubPassEnd (m : Chip) (from_ ce ue : Nat) : Chip :=
  let m := m.put 0x27 SCB_PASSCNT_COUNT (m.get 0x27 SCB_PASSCNT_COUNT + 1)
  let m := m.put 0x27 SCB_LASTPASS_MS (m.ticksSince from_ / 200000)
  let m := (m.put 0x27 SCB_PASSERR_CE (satU 16 ce)).put 0x27 SCB_PASSERR_UE (satU 16 ue)
  (m.raise 109).irq 0x27 4

/-- The walk ends its pass and goes back to word 0 of array 0. -/
def Chip.scrubWrap (m : Chip) : Chip :=
  let m := (m.put 0x27 SCB_POS_ARRAY 0).put 0x27 SCB_POS_WORD 0
  if m.ecc.started then ({ m with ecc := { m.ecc with started := false } }).scrubPassEnd m.ecc.from_ m.ecc.ce m.ecc.ue else m

/-- A walk that stands in an array the pass no longer takes, as NVMEN was cleared, ends its pass there (R442).
DEDUCED, unsafe (log 57). -/
def Chip.scrubInside (m : Chip) (nvm : Bool) : Chip :=
  if (scrubFrom m.die.part nvm (m.get 0x27 SCB_POS_ARRAY) (m.get 0x27 SCB_POS_WORD)).isNone then m.scrubWrap else m

/-- The continuous walk reads its next word (R442). -/
def Chip.scrubWalk (m : Chip) (upset : Nat) (stuck : Bool) : Chip :=
  let nvm := m.has 0x27 SCB_CFG_NVMEN
  let m := m.scrubInside nvm
  match scrubFrom m.die.part nvm (m.get 0x27 SCB_POS_ARRAY) (m.get 0x27 SCB_POS_WORD) with
  | none => m
  | some (a, w) =>
    if !m.scrubMay a || !m.scrubDue 0 then m
    else
      let m := { m with ecc := { m.ecc with lastWord := m.tim.tick } }
      let m := if m.ecc.started then m else { m with ecc := { m.ecc with started := true, from_ := m.tim.tick, ce := 0, ue := 0 } }
      let s := m.scrubOne a w upset stuck
      let m := s.chip
      let m := { m with ecc := { m.ecc with ce := m.ecc.ce + b2n s.ce, ue := m.ecc.ue + b2n s.ue } }
      match scrubFrom m.die.part nvm a (w + 1) with
      | some (a', w') => (m.put 0x27 SCB_POS_ARRAY a').put 0x27 SCB_POS_WORD w'
      | none => m.scrubWrap

/-- A pass on demand reads its next word (R448). -/
def Chip.scrubPassWord (m : Chip) (o : LongOp) (upset : Nat) (stuck : Bool) : Chip :=
  let nvm := bit o.arg 16
  match scrubFrom m.die.part nvm m.ecc.opArray m.ecc.opWord with
  | none => m
  | some (a, w) =>
    if !m.scrubMay a || !m.scrubDue (o.arg % 65536) then m
    else
      let m := { m with ecc := { m.ecc with lastWord := m.tim.tick } }
      let s := m.scrubOne a w upset stuck
      let m := s.chip
      let m := { m with ecc := { m.ecc with
        opWords := m.ecc.opWords + 1, opCe := m.ecc.opCe + b2n s.ce, opUe := m.ecc.opUe + b2n s.ue,
        opSkip := m.ecc.opSkip + b2n s.skip } }
      match scrubFrom m.die.part nvm a (w + 1) with
      | some (a', w') =>
        ({ m with ecc := { m.ecc with opArray := a', opWord := w' } }).put 0x27 HDR_STATUS_PROGRESS
          (255 * m.ecc.opWords / passWords m.die.part nvm)
      | none =>
        let parts := [m.ecc.opWords, m.ecc.opCe, m.ecc.opUe, m.ecc.opSkip].map (BitVec.ofNat 32)
        (m.scrubPassEnd o.a m.ecc.opCe m.ecc.opUe).endDone 0x27 parts

/-- Once the interval has passed, the pass on demand, or else the continuous walk, reads a word. DEDUCED, unsafe (log
57). -/
def Chip.scrubWord (m : Chip) (upset : Nat) (stuck : Bool) : Chip :=
  match m.opOf 0x27 with
  | some o => if o.cmd = 1 then m.scrubPassWord o upset stuck else if m.enabled 0x27 then m.scrubWalk upset stuck else m
  | none => if m.enabled 0x27 then m.scrubWalk upset stuck else m

/-! ### ECC commands (R439, R441, R447) -/

/-- OPCMD 0x01: empty the log. -/
def Chip.eccEmpty (m : Chip) : Chip :=
  let m := (List.range 16).foldl (fun m k =>
    (m.wr (ECC_LOG_HITS.addr 0x26 k) 0).wr (ECC_LOGCYC_CYCLE.addr 0x26 k) 0) m
  (({ m with ecc := { m.ecc with fullTold := false } }).put 0x26 ECC_LOGSTAT_USED 0).endDone 0x26 []

/-- The page of a word of a store array. -/
def nvPage (arr w : Nat) : Nat := 512 * (arr - 0x20) + w / 32

/-- A word of the store is cleared: a write operation of one page with its journal entries (R415). -/
def Chip.nvWordZero (m : Chip) (arr w : Nat) : Chip :=
  (((m.nvJournal 1 1).nvJournal 2 (nvPage arr w)).wordWrite arr w (List.replicate 8 0)).nvJournal 3 1

/-- OPCMD 0x02: zero data with valid check bytes, in a unit's array the unit's own value (R441); a word of the store
waits for write permission (R407, R408). DEDUCED, unsafe (log 57). -/
def Chip.eccClear (m : Chip) (o : LongOp) : Chip :=
  let arr := bitsOf o.arg 16 8
  let w := o.arg % 65536
  if 0x20 ≤ arr ∧ !m.nvPermitted then m
  else
    let m := if 0x20 ≤ arr then m.nvWordZero arr w else m.wordWrite arr w (List.replicate 8 0)
    (if 0x11 ≤ arr ∧ arr ≤ 0x17 then m.unitZero arr (Config.ramWord arr w) else m).endDone 0x26 []

/-- The ECC page has accepted a command. -/
def Chip.eccOpStart (m : Chip) : Chip :=
  match m.opOf 0x26 with
  | none => m
  | some o =>
    let arr := bitsOf o.arg 16 8
    let n := arrayWords m.die.part arr
    if o.cmd = 1 then m.eccEmpty
    else if o.cmd ≠ 2 then m.endErr 0x26 0x01 0
    else if n = 0 then m.endErr 0x26 0x03 arr
    else if n ≤ o.arg % 65536 then m.endErr 0x26 0x02 0
    else if !m.unlockedFor o.req 0x26 then m.endErr 0x26 0x04 0
    else m.eccClear o

/-! ### Spare rows (R444, R445) -/

/-- Spare rows of an array (R444). -/
def spareRows (p : Part) (arr : Nat) : Nat := if arrayWords p arr = 0 then 0 else if 0x20 ≤ arr then 32 else 4

/-- Rows of an array. -/
def arrayRows (p : Part) (arr : Nat) : Nat := arrayWords p arr / rowWords arr

/-- Rows of an array among rows that were moved. -/
def rowsOf (rows : List (Nat × Nat)) (arr : Nat) : Nat := (rows.filter (fun s => s.1 == arr)).length

/-- The rows moved, by the factory fuse map and by the soft map (R444). DEDUCED, unsafe (log 59). -/
def Chip.moved (m : Chip) : List (Nat × Nat) := m.die.fuses ++ m.ecc.soft

/-- Has an array no spare row left (R444, R445)? -/
def Chip.noSpare (m : Chip) (arr : Nat) : Bool := decide (spareRows m.die.part arr ≤ rowsOf m.moved arr)

/-- The soft map's payload (R444). -/
def softPayload (rows : List (Nat × Nat)) : List Nat :=
  rows.length :: rows.flatMap (fun s => [s.1, s.2 % 256, s.2 / 256 % 2, 0])

/-- A row's corrected contents move to a spare (R445): its words are rewritten whole; a row of the store is a page, and
its copy a write operation with its journal entries (R415). -/
def Chip.rowCopy (m : Chip) (arr row : Nat) : Chip :=
  let copy := fun (m : Chip) => (List.range (rowWords arr)).foldl (fun m i =>
    let w := row * rowWords arr + i
    let r := m.wordRead 15 arr w
    r.chip.wordWrite arr w (r.data.getD (List.replicate 8 0))) m
  if 0x20 ≤ arr then (copy ((m.nvJournal 1 1).nvJournal 2 (512 * (arr - 0x20) + row))).nvJournal 3 1 else copy m

/-- The copy runs where it may, and the soft map is written; a row of the store waits for write permission and for a
commit that runs or waits (R408, R421). DEDUCED, unsafe (log 57); DEDUCED, unsafe (log 59). -/
def Chip.softAdd (m : Chip) (o : LongOp) : Chip :=
  let arr := bitsOf o.arg 16 8
  let row := o.arg % 512
  if o.phase ≠ 0 ∨ (0x20 ≤ arr ∧ (!m.nvPermitted ∨ m.nvClosed ∨ m.nv.committing)) then m
  else
    let m := (m.rowCopy arr row).setOp { o with phase := 1 }
    let soft := m.ecc.soft ++ [(arr, row)]
    let m := ({ m with ecc := { m.ecc with soft := soft } }).put 0x27 SCB_SOFTST_COUNT soft.length
    m.nvEnqueue { kind := .softMap, arg := o.arg, req := o.req, page := 0x7F4, payload := softPayload soft }

/-- The SCB page has accepted a command (R445, R448). DEDUCED, unsafe (log 59). -/
def Chip.scbOpStart (m : Chip) : Chip :=
  match m.opOf 0x27 with
  | none => m
  | some o =>
    let arr := bitsOf o.arg 16 8
    let row := o.arg % 512
    let p := m.die.part
    if o.cmd = 1 then
      { m.setOp { o with a := m.tim.tick } with ecc := { m.ecc with opArray := 0, opWord := 0, opWords := 0, opCe := 0, opUe := 0, opSkip := 0 } }
    else if o.cmd ≠ 2 then m.endErr 0x27 0x01 0
    else if arrayWords p arr = 0 then m.endErr 0x27 0x03 arr
    else if arrayRows p arr ≤ row then m.endErr 0x27 0x02 0
    else if !m.unlockedFor o.req 0x27 then m.endErr 0x27 0x04 0
    else if m.noSpare arr then m.endErr 0x27 0x10 0
    else if 8 ≤ m.ecc.soft.length then m.endErr 0x27 0x11 0
    else if m.moved.contains (arr, row) then m.endErr 0x27 0x12 0
    else if arr = 0x23 ∧ (row = 0x1F4 ∨ row = 0x1F5) then m.endErr 0x27 0x13 0
    else m.softAdd o

/-- The soft map is applied after the store becomes READY (R444). -/
def Chip.softApply (m : Chip) : Chip :=
  let r := m.recReadTold 0x7F4
  let b := r.1.payload
  if r.1.absent then r.2
  else
    let m := (List.range (Nat.min 8 ((b[0]?).getD 0))).foldl (fun m i =>
      let at_ := fun k => (b[1 + 4 * i + k]?).getD 0
      let arr := at_ 0
      let row := at_ 1 + 256 * (at_ 2 % 2)
      if arrayWords m.die.part arr = 0 ∨ m.moved.contains (arr, row) ∨ m.noSpare arr then
        (m.put 0x27 SCB_SOFTST_SMBAD 1).emit 0x8025 [arr, row]
      else { m with ecc := { m.ecc with soft := m.ecc.soft ++ [(arr, row)] } }) r.2
    m.put 0x27 SCB_SOFTST_COUNT m.ecc.soft.length

/-- SPSTAT for the array of a requester's SPSEL (R448). DEDUCED, unsafe (log 59). -/
def Chip.spstat (m : Chip) (r : Nat) : Nat :=
  let arr := (m.rd (reqKey r (SCB_SPSEL_ARRAY.addr 0x27))).toNat % 256
  spareRows m.die.part arr * 2 ^ 16 + rowsOf m.die.fuses arr % 256 * 2 ^ 8 + rowsOf m.ecc.soft arr % 256

/-! ### Commands -/

/-- SCRUB_WORD (R442): the symbols that differ at the word reached, and whether they are stuck. DESIGN CHOICE, safe
(log 2). -/
def execScrubWord (upset : BitVec 120) (stuck : Bool) (s : State) : Host.Outcome State Fault Refusal :=
  s.run (fun m => m.scrubWord upset.toNat stuck)

/-- ECC_LOG_EMPTY (R439). -/
def execEccLogEmpty (r : Requester) (s : State) : Host.Outcome State Fault Refusal :=
  s.run (fun m => m.startOp 0x26 1 (reqCode r) Chip.eccOpStart)

/-- ECC_CLEAR_WORD (R441). -/
def execEccClearWord (r : Requester) (arg : Word) (s : State) : Host.Outcome State Fault Refusal :=
  s.run (fun m => (m.wr (0x26 * 0x400 + 0x24) arg).startOp 0x26 2 (reqCode r) Chip.eccOpStart)

/-- SCRUB_PASS (R448). -/
def execScrubPass (r : Requester) (arg : Word) (s : State) : Host.Outcome State Fault Refusal :=
  s.run (fun m => (m.wr (0x27 * 0x400 + 0x24) arg).startOp 0x27 1 (reqCode r) Chip.scbOpStart)

/-- ADD_SOFT_SPARE (R445). -/
def execAddSoftSpare (r : Requester) (arg : Word) (s : State) : Host.Outcome State Fault Refusal :=
  s.run (fun m => (m.wr (0x27 * 0x400 + 0x24) arg).startOp 0x27 2 (reqCode r) Chip.scbOpStart)

end Sys2Proof.Machine
end

