-- ==== Sys2Proof/Machine/Store.lean ====
section
/-! DEFINITION. How write operations of the store end, word by word (R411, R415), and how the store opens after reset or
a recall scan (R403, R416–R418, R444). -/

namespace Sys2Proof.Machine

/-- What the end of a write operation brings, by its kind. DEDUCED, unsafe (log 62). -/
def Chip.nvFinish (m : Chip) (j : NvJob) : Chip :=
  let m := if j.kind == NvKind.seal then m.nvJournal 4 0 else m.nvJournal 3 j.done
  let m := { m with nv := { m.nv with cur := none, inWord := false, pause := false, stopTold := false } }
  let seq := BitVec.ofNat 32 j.seq
  let m := match j.kind with
    | .commit => (m.endDone 0x23 [BitVec.ofNat 32 j.done, BitVec.ofNat 32 j.words]).raise 105
    | .compat =>
      let page := (m.nv.latch.map NvSlot.page).getD 0
      ((({ m with nv := { m.nv with latch := none } }).put 0x23 NVM_CPSTAT_BUSY 0).put 0x23 NVM_CPSTAT_PAGE page).irq 0x23 8
    | .record => m.endDone 0x23 [seq, BitVec.ofNat 32 j.bank]
    | .region =>
      let was := m.nv.ownedBy 2
      ((({ m with nv := { m.nv with regions := regionsOf j.payload } }).recGeometry).bbxRegion was).endDone 0x23 [seq]
    | .password => ({ m with nv := { m.nv with pwds := pwdsOf j.payload } }).endDone 0x23 [seq]
    | .battery => m.put (batPg j.arg) BAT_STAT_NOREC 0
    | .softMap =>
      let mine := (m.opOf 0x27).any (fun (o : LongOp) => o.cmd == 2 && o.phase == 1 && o.arg == j.arg)
      (if mine then m.endDone 0x27 [seq] else m).emit 0x8024 [bitsOf j.arg 16 8, j.arg % 512]
    | .recHeader => if m.rcd.opening then m.recOpened else m
    | .bbxHeader => m.maskClr 0x25 BBX_STAT_VALID j.arg
    | .seal => m.endDone 0x23 []
  m.nvKick

/-- What follows between two pages of an operation: the end, a throttle pause, or the next page (R346, R408). DEDUCED,
unsafe (log 69). -/
def Chip.nvNextPage (m : Chip) (j : NvJob) : Chip :=
  if j.todo.isEmpty then (if m.nvPermitted then m.nvFinish j else m.nvHold)
  else if m.has 0x22 THM_MASK_NVMT && decide (2 ≤ m.get 0x22 THM_STAT_LEVEL) then
    { m with nv := { m.nv with pause := true, pauseAt := m.tim.tick } }
  else m.nvKick

/-- A page of an operation is complete: its slot frees, queued records go first, then what follows (R411, R457). -/
def Chip.nvPageDone (m : Chip) (j : NvJob) (page : Nat) (rest : List (Nat × List Nat)) : Chip :=
  let j' : NvJob := { j with done := j.done + 1, todo := rest, begun := false }
  let nv := if j.kind == NvKind.commit then m.nv.freeSlot page else m.nv
  let m := { m with nv := { nv with cur := some j', inWord := false } }
  let m := if j.kind == NvKind.commit then m.progress 0x23 (255 * j'.done / j'.total) else m
  m.recFlush.bbxOverwrite.nvNextPage j'

/-- Has the pause between two pages ended: 1 ms at level 2, 10 ms at level 3, none below (R346)? -/
def Chip.pauseOver (m : Chip) : Bool :=
  let lvl := m.get 0x22 THM_STAT_LEVEL
  !m.has 0x22 THM_MASK_NVMT || decide (lvl < 2) ||
    decide ((if lvl = 2 then 1 else 10) * msTicks ≤ m.ticksSince m.nv.pauseAt)

/-- A storage word write completes, or a pause ends (R408, R411). DESIGN CHOICE, safe (log 61). -/
def Chip.nvWordEnd (m : Chip) : Chip :=
  match m.nv.cur with
  | none => m.recFlush.nvKick
  | some j =>
    if m.nv.pause then if !m.pauseOver then m else (({ m with nv := { m.nv with pause := false } }).recFlush).nvKick
    else if !m.nv.inWord then m.recFlush.nvKick
    else match j.todo with
    | (p, w :: ws) :: rest =>
      let x := m.nvWordDone j p w
      let m := x.2
      let j := { j with words := j.words + b2n x.1 }
      if ws.isEmpty then m.nvPageDone j p rest
      else
        let m := { m with nv := { m.nv with cur := some { j with todo := (p, ws) :: rest } } }
        if m.nvPermitted then m else m.nvHold
    | (p, []) :: rest => m.nvPageDone j p rest
    | [] => if m.nvPermitted then m.nvFinish j else m.nvHold

/-- The store opens: region table, passwords and soft map are read, the recorder and the black box find their regions,
and a boot goes on to phase 2 (R403, R417, R444, R506). Without a region-table record region 0 has no passwords
(R404). -/
def Chip.storeOpen (m : Chip) : Chip :=
  let a := m.recReadTold 0x7F0
  let m := if a.1.absent then a.2 else { a.2 with nv := { a.2.nv with regions := regionsOf a.1.payload } }
  let b := m.recReadTold 0x7F2
  let pwds := if b.1.absent then b.2.nv.pwds else pwdsOf b.1.payload
  let m := { b.2 with nv := { b.2.nv with pwds := if a.1.absent then setAt pwds 0 (0, 0) else pwds } }
  let m := { m with boot := { m.boot with phase := if m.boot.phase < 2 then 2 else m.boot.phase } }
  (((m.softApply).recGeometry).bbxGeometry false).nvKick

/-- The boot phase of R506: phase 0 ends with reset release, phase 1 lasts until the store is READY. DEDUCED, safe
(log 11). -/
def Chip.bootPhase (m : Chip) : Nat := if m.boot.phase = 0 ∧ !m.held ∧ !m.nv.ready then 1 else m.boot.phase

/-- The scan reads the journal with the array (log 63): it says where the last operation was cut short: INTR, PAGE,
DONE (R417). DEDUCED, unsafe (log 63). -/
def Chip.recallStatus (m : Chip) : Chip :=
  let es := m.nvEntries.1
  match latestEntry es with
  | none => m
  | some e =>
    if e.kind = 2 then
      ((m.put 0x23 NVM_RCSTAT_INTR 1).put 0x23 NVM_RCSTAT_PAGE e.data).put 0x23 NVM_RCSTAT_DONE
        (Nat.min 31 (pagesStarted es 256 e.seq 0 - 1))
    else if e.kind = 1 then
      ((m.put 0x23 NVM_RCSTAT_INTR 1).put 0x23 NVM_RCSTAT_PAGE 0).put 0x23 NVM_RCSTAT_DONE 0
    else m

/-- The recall scan ends: after reset, where the store was not clean, or on demand (R417, R418). -/
def Chip.recallEnd (m : Chip) : Chip :=
  let boot := !m.nv.ready
  if (boot && m.nv.clean) || (!boot && !m.nv.recalling) then m
  else
    let m := m.recallStatus
    let s := m.nvScan 65536
    let m := { s.2 with nv := { s.2.nv with ready := true, recalling := false } }
    let m := (m.put 0x23 NVM_RCSTAT_UNC (satU 11 s.1)).raise 106
    let m := m.emit 0x8001 [s.1, m.get 0x23 NVM_RCSTAT_INTR, m.get 0x23 NVM_RCSTAT_PAGE, m.get 0x23 NVM_RCSTAT_DONE]
    if boot then m.storeOpen else (m.endDone 0x23 [BitVec.ofNat 32 s.1]).nvKick

/-- A clean store becomes READY, by what the journal told at reset release (R417). -/
def Chip.storeReady (m : Chip) : Chip :=
  if m.nv.ready || !m.nv.clean then m
  else
    let m := { m with nv := { m.nv with ready := true } }
    ((m.put 0x23 NVM_STAT_CLEAN 1).put 0x23 NVM_STAT_LOSTPG (if m.nv.jkind = 5 then m.nv.jdata % 32 else 0)).storeOpen

/-- NVM_WORD_WRITE_END (R411). DEDUCED, unsafe (log 69). -/
def execNvmWordWriteEnd (s : State) : Host.Outcome State Fault Refusal := s.run Chip.nvWordEnd

/-- RECALL_SCAN_END (R417). -/
def execRecallScanEnd (s : State) : Host.Outcome State Fault Refusal := s.run Chip.recallEnd

/-- STORE_READY (R417). -/
def execStoreReady (s : State) : Host.Outcome State Fault Refusal := s.run Chip.storeReady

end Sys2Proof.Machine
end

