-- ==== Sys2Proof/Machine/Pairing.lean ====
section
/-! DEFINITION. Controller pairing (R479–R502): frames of the Uttia link, health and the mastership rule, the mirror, the
takeover and the planned handover. -/

namespace Sys2Proof.Machine

/-- The controller's role (R502). -/
def Chip.role (m : Chip) : Nat := m.get 0x35 PAIR_STAT_ROLE

/-- Is the link up? -/
def Chip.linkUp (m : Chip) : Bool := m.has 0x35 PAIR_STAT_LINK

/-- Is the controller of a pair, with Pairing released (R484, R508)? -/
def Chip.inPair (m : Chip) : Bool := m.pair.released && m.pair.paired

/-! ### Frames (R481) -/

/-- Number of `n` bytes at an offset of a payload, first byte lowest (R537). DESIGN CHOICE, safe (log 84). -/
def frameNum (bs : List Byte) (off n : Nat) : Nat := bytesLE ((bs.drop off).take n)

/-- A whole frame: header, payload and CRC-32 (R481). DESIGN CHOICE, safe (log 84). -/
def uttiaFrame (type : Nat) (payload : List Nat) : List Nat :=
  let bs := [type, payload.length, 0, 0] ++ payload
  bs ++ bytesOf 4 (crc32 bs)

/-- A frame is discarded and counted (R481). DESIGN CHOICE, safe (log 84). -/
def Chip.badFrame (m : Chip) : Chip := m.count 0x35 PAIR_ERRCNT_BADFR

/-! ### Health (R485) -/

/-- The health byte. DEDUCED, unsafe (log 90). -/
def Chip.health (m : Chip) : Nat :=
  let on := fun x => m.enabled (marPg x)
  let fb := (List.range (nLoops m.die.part)).any (fun x => on x && m.has (marPg x) MAR_STAT_FBFLT)
  let ue : Bool := match m.ecc.ueAt with
    | some t => decide (m.ticksSince t ≤ 10000000 * usTicks)
    | none => false
  b2n (m.has 2 TTB_STAT_ACQSLOW) + 2 * b2n (bitsOf (m.get 5 CAL_STAT_STALE) 16 7 != 0) +
  4 * b2n (m.has 0x0C PHM_REMOV_OPEN || m.has 0x0C PHM_REMOV_SENSE || m.has 0x0C PHM_OVSTAT_LATCH) + 8 * b2n fb +
  16 * b2n (m.nvClosed || ue) + 32 * b2n (decide (2 ≤ m.get 0x22 THM_STAT_LEVEL) || m.has 0x22 THM_STAT_SNSFLT) +
  64 * b2n m.nv.vinLow + 128 * b2n (m.ports.any (fun p => p.stuck))

/-- The score of a health byte: its clear bits. -/
def healthScore (h : Nat) : Nat := 8 - popCount h 8

/-- The partner's score. -/
def Chip.partnerScore (m : Chip) : Nat := healthScore (m.get 0x35 PAIR_HEALTH_PARTNER)

/-! ### The mirror (R490–R492) -/

/-- Age of the last good mirror in µs, 0xFFFF where none came. -/
def Chip.mirAge (m : Chip) : Nat :=
  match m.pair.mirTick with
  | some t => satU 16 (m.ticksSince t / usTicks)
  | none => 0xFFFF

/-- Is the last good mirror usable (R492)? -/
def Chip.mirUsable (m : Chip) : Bool :=
  m.mirror.isSome && m.pair.mirFull && (match m.pair.mirTick with
    | some t => decide (m.ticksSince t ≤ 2200 * usTicks)
    | none => false)

/-- The mirror's part of loop `x` (R163, R490). -/
def Chip.mirLoop (m : Chip) (x : Nat) : List Nat :=
  if x < nLoops m.die.part then
    let pg := marPg x
    let w := if m.mode x = mdManual then m.get pg MAR_MDUTY_DUTY else m.get pg MAR_INTEG_I
    [m.mode x + 8 * m.owner x + 32 * m.get pg MAR_STAT_STR] ++ bytesOf 3 (m.get pg MAR_SPEFF_SP) ++ bytesOf 4 w
      ++ bytesOf 3 (m.get 0x1F HLD_REF_V x) ++ [0]
  else List.replicate 12 0

/-- The payload of a mirror captured now (R490). -/
def Chip.mirPayload (m : Chip) (seq : Nat) : List Nat :=
  let act := fun x => if x < nLoops m.die.part then bytesOf 2 (m.get 0x0C PHM_ACT_ACTIVE x) else [0, 0]
  bytesOf 4 seq ++ bytesOf 4 m.tim.cycle ++ bytesOf 4 (m.tim.angle + m.flags * 65536)
    ++ (List.range 4).flatMap m.mirLoop ++ (List.range 4).flatMap act
    ++ [m.get 0x1F HLD_STAT_STATE + 16 * m.get 0x1F HLD_STAT_CAUSE, m.get 0x1F HLD_STAT_OWNED, 0, 0]

/-- The contents of a mirror or handover payload (R490). -/
def mirrorOf (bs : List Byte) : Mirror :=
  let loop := fun x =>
    let o := 12 + 12 * x
    let b := frameNum bs o 1
    ({ mode := bitsOf b 0 3, owner := bitsOf b 3 2, str := bitsOf b 5 3, speff := frameNum bs (o + 1) 3,
       word := frameNum bs (o + 4) 4, ref := frameNum bs (o + 8) 3, act := frameNum bs (60 + 2 * x) 2 } : MirLoop)
  let a := frameNum bs 8 4
  { seq := frameNum bs 0 4, cycle := frameNum bs 4 4, angle := bitsOf a 0 16, flags := bitsOf a 16 3,
    loops := (List.range 4).map loop, huState := bitsOf (frameNum bs 68 1) 0 3, huCause := bitsOf (frameNum bs 68 1) 4 2,
    huOwned := bitsOf (frameNum bs 69 1) 0 4 }

/-- A Depot entry of source 23 (R500). -/
def Chip.pairDepot (m : Chip) (tag kind : Nat) (used : Bool) : Chip :=
  m.depot 23 tag (m.role + 4 * b2n used + 16 * kind + m.get 0x35 PAIR_PCYC_CYCLE * 2 ^ 32)

/-- MCNT takes a count; MVALID follows (R491). DEDUCED, unsafe (log 86). -/
def Chip.setMcnt (m : Chip) (n : Nat) : Chip :=
  let was := m.has 0x35 PAIR_STAT_MVALID
  let m := (m.put 0x35 PAIR_STAT_MCNT n).putB 0x35 PAIR_STAT_MVALID (n == 8)
  if n = 8 ∧ !was then (((m.irq 0x35 6).emitSev 0x9006 1 [n]).pairDepot 5 0 m.mirUsable).raise 114 else m

/-- A frame of a TYPE is not good: it is discarded and counted, and a heartbeat or a mirror ends its run (R481, R483,
R491). DEDUCED, unsafe (log 86). -/
def Chip.badFrameOf (m : Chip) (type : Nat) : Chip :=
  let m := m.badFrame
  if type = 1 then
    { m with pair := { m.pair with run := if m.linkUp then 8 else 0, after := if m.pair.after = 8 then 8 else 0, alignRun := 0 } }
  else if type = 2 then m.setMcnt 0 else m

/-- A mirror frame whose CRC is good (R491). With no sequence to follow, the mirror starts one. DEDUCED, unsafe (log
86). -/
def Chip.mirrorIn (m : Chip) (bs : List Byte) : Chip :=
  let im := mirrorOf bs
  let next := some ((im.seq + 1) % 2 ^ 32)
  let inTime : Bool := match m.pair.mirTick with
    | some t => decide (m.ticksSince t ≤ 150 * usTicks)
    | none => true
  let follows : Bool := match m.pair.nextSeq with
    | some k => im.seq == k && inTime
    | none => true
  if follows then
    let n := Nat.min 8 (m.get 0x35 PAIR_STAT_MCNT + 1)
    let m := { m with mirror := some im }
    let m := { m with pair := { m.pair with nextSeq := next, mirTick := some m.tim.tick, mirFull := n == 8 } }
    m.setMcnt n
  else
    let m := m.count 0x35 PAIR_ERRCNT_LOSTMR
    ({ m with pair := { m.pair with nextSeq := next } }).setMcnt 0

/-- No good mirror within 150 µs of the one before (R491). -/
def Chip.mirrorMissing (m : Chip) : Chip :=
  match m.pair.nextSeq, m.pair.mirTick with
  | some _, some t =>
    if 150 * usTicks ≤ m.ticksSince t then
      let m := m.count 0x35 PAIR_ERRCNT_LOSTMR
      ({ m with pair := { m.pair with nextSeq := none } }).setMcnt 0
    else m
  | _, _ => m

/-- The master sends a mirror every 100 µs of ticks (R490). -/
def Chip.mirrorSend (m : Chip) : Chip :=
  let due : Bool := match m.pair.mirSent with
    | some t => decide (100 * usTicks ≤ m.ticksSince t)
    | none => true
  if m.role = 1 ∧ due then
    let f := uttiaFrame 2 (m.mirPayload m.pair.mirSeq)
    { m with pair := { m.pair with mirSeq := (m.pair.mirSeq + 1) % 2 ^ 32, mirSent := some m.tim.tick, txMir := f } }
  else m

/-! ### Change of role (R484, R492, R495) -/

/-- Enabled loops that have phases. -/
def Chip.pairLoops (m : Chip) : List Nat :=
  (List.range (nLoops m.die.part)).filter (fun x => m.enabled (marPg x) && !(m.assigned x).isEmpty)

/-- A list of loops as a mask. -/
def maskOf (l : List Nat) : Nat := l.foldl (fun n k => setBit n k) 0

/-- What the units do at a change of role (R495); loops and Share take it up at their next boundary. DEDUCED, unsafe
(log 37). -/
def Chip.unitsRole (m : Chip) (used : Bool) : Chip :=
  let m := match m.mirror with
    | some im => if used then m.huTakeover im else m.huRole
    | none => m.huRole
  ((((m.marRole).domRole).portRole).seqRole).pmRole

/-- A change of role to `to` by a cause of `LASTTK.CAUSE`. DEDUCED, unsafe (log 88). -/
def Chip.roleChange (m : Chip) (toSt cause : Nat) : Chip :=
  let old := m.role
  if old = toSt then m
  else
    let used := m.inPair && toSt != 0 && m.mirUsable
    let m := ((m.put 0x35 PAIR_STAT_ROLE toSt).putB 0x35 PAIR_LASTTK_MUSED used).put 0x35 PAIR_LASTTK_CAUSE cause
    let m := if cause = 5 ∨ cause = 8 then m.count 0x35 PAIR_CNT_HANDOVERS
      else if toSt = 1 ∧ cause ≠ 0 then m.count 0x35 PAIR_CNT_TAKEOVERS else m
    let m := (m.irq 0x35 4).emitSev 0x9001 2 [old, toSt, cause, b2n used]
    let m := if toSt = 1 ∧ !used then m.emitSev 0x9009 3 [maskOf m.pairLoops, m.mirAge] else m
    let m := { m with pair := { m.pair with act := none, acked := none, want := none, leadSince := none } }
    let m := (m.pairDepot 1 cause used).unitsRole used
    m.raise 113

/-- A paired standby becomes master for a cause of R493. DEDUCED, unsafe (log 88). -/
def Chip.takeOver (m : Chip) (cause : Nat) : Chip :=
  if m.inPair && m.role == 0 then m.roleChange 1 cause else m

/-! ### Heartbeats (R482, R483, R486, R487, R497) -/

/-- The mastership rule on the data of the last heartbeats (R486): the role it gives this controller, if another. -/
def Chip.mastership (m : Chip) : Option Nat :=
  let own := healthScore m.pair.sentHealth
  let his := m.partnerScore
  let uid := m.get 0x35 PAIR_PUIDLO_UID + m.get 0x35 PAIR_PUIDHI_UID * 2 ^ 32
  let better := decide (his < own) || (own == his && decide (m.die.uid.toNat < uid))
  let mine := m.pair.sentRole == 1
  let his1 := m.get 0x35 PAIR_PANG_ROLE == 1
  if mine != his1 then none else if mine then (if better then none else some 0) else if better then some 1 else none

/-- What the rule rests on. DEDUCED, unsafe (log 87). -/
def Chip.mastershipInputs (m : Chip) : List Nat :=
  [m.pair.sentRole, m.get 0x35 PAIR_PANG_ROLE, healthScore m.pair.sentHealth, m.partnerScore,
   m.get 0x35 PAIR_PUIDLO_UID, m.get 0x35 PAIR_PUIDHI_UID]

/-- The rule is evaluated from the eighth heartbeat after link up on, when its inputs change (R486). DEDUCED, unsafe
(log 87). -/
def Chip.mastershipJudge (m : Chip) : Chip :=
  if m.inPair && m.linkUp && m.pair.after == 8 && m.pair.judged != m.mastershipInputs then
    { m with pair := { m.pair with judged := m.mastershipInputs, want := m.mastership } }
  else m

/-- Since when the partner's score leads the master's by 2 or more (R487). -/
def Chip.leadNote (m : Chip) : Chip :=
  let lead := m.inPair && m.linkUp && m.role == 1 && decide (healthScore m.health + 2 ≤ m.partnerScore)
  let since := if lead then some (m.pair.leadSince.getD m.tim.tick) else none
  { m with pair := { m.pair with leadSince := since } }

/-- Cycle alignment (R497): eight heartbeats in a row with both stamps /L, skew below 10 µs and another cycle.
DEDUCED, unsafe (log 89). -/
def Chip.cycleAlign (m : Chip) : Chip :=
  let skew := absI (m.getS 0x35 PAIR_SKEW_SKEW)
  let own := m.tim.cycle
  let his := m.get 0x35 PAIR_PCYC_CYCLE
  let ok := m.inPair && m.role == 0 && m.has 0x35 PAIR_CFG_CYCEN && m.linkUp && m.pair.sentFlags == 1 &&
    m.get 0x35 PAIR_PANG_FLAGS == 1 && decide (skew < 2000) && his != own && !m.has 2 TTB_STAT_ADJP
  let n := if ok then m.pair.alignRun + 1 else 0
  if 8 ≤ n then
    let new := (his + 1) % 2 ^ 32
    (({ m with pair := { m.pair with alignRun := 0 } }).cycadjWrite new).emitSev 0x9007 1 [up own, up new]
  else { m with pair := { m.pair with alignRun := n } }

/-- SKEW of a heartbeat (R497): its arrival minus the own boundary of its waypoint minus 1.6 µs, in ticks; where that
boundary is not the last one, whose tick is known, as measured. DESIGN CHOICE, safe (log 85). -/
def Chip.hbSkew (m : Chip) (angle measured : Nat) : Nat :=
  if angle / 256 = m.tim.angle / 256 then (m.ticksSince m.tim.wpTick + 2 ^ 32 - 320) % 2 ^ 32 else measured

/-- A good heartbeat (R482, R483, R497). -/
def Chip.heartbeatIn (m : Chip) (bs : List Byte) (measured : Nat) : Chip :=
  let skew := m.hbSkew (frameNum bs 8 2) measured
  let b10 := frameNum bs 10 1
  let b11 := frameNum bs 11 1
  let m := (m.put 0x35 PAIR_PCYC_CYCLE (frameNum bs 4 4)).put 0x35 PAIR_PANG_ANGLE (frameNum bs 8 2)
  let m := (m.put 0x35 PAIR_PANG_FLAGS (bitsOf b10 0 3)).put 0x35 PAIR_PANG_STATE (bitsOf b10 3 3)
  let m := (m.put 0x35 PAIR_PANG_ROLE (bitsOf b11 0 2)).put 0x35 PAIR_HEALTH_PARTNER (frameNum bs 12 1)
  let m := (m.put 0x35 PAIR_STAT_PMCNT (bitsOf (frameNum bs 13 1) 0 4)).put 0x35 PAIR_SKEW_SKEW skew
  let m := (m.put 0x35 PAIR_PUIDLO_UID (frameNum bs 16 4)).put 0x35 PAIR_PUIDHI_UID (frameNum bs 20 4)
  let m := m.put 0x35 PAIR_STAT_HBOK 1
  let run := Nat.min 8 (m.pair.run + 1)
  let after := if m.linkUp then Nat.min 8 (m.pair.after + 1) else 0
  let m := { m with pair := { m.pair with run := run, after := after, hbSeen := true, hbTick := m.tim.tick, act := none } }
  let m := if run = 8 ∧ !m.linkUp then
      let m := m.put 0x35 PAIR_STAT_LINK 1
      let m := { m with pair := { m.pair with barred3 := false, judged := [], alignRun := 0 } }
      (m.emitSev 0x9003 1 [m.partnerScore, sp (sx 32 skew)]).pairDepot 3 0 m.mirUsable
    else m
  ((m.mastershipJudge).leadNote).cycleAlign

/-- HBTO in effect, in ticks; its register holds 12–60 (R494). DEDUCED, unsafe (log 89). -/
def Chip.hbtoTicks (m : Chip) : Nat := clampN 12 60 (m.get 0x35 PAIR_CFG_HBTO) * 10 * usTicks

/-- ACTWIN in effect, in ticks (R494). -/
def Chip.actTicks (m : Chip) : Nat :=
  Nat.min (190 - clampN 12 60 (m.get 0x35 PAIR_CFG_HBTO)) (clampN 10 130 (m.get 0x35 PAIR_CFG_ACTWIN)) * 10 * usTicks

/-- Heartbeat loss (R483, R493). -/
def Chip.heartbeatLost (m : Chip) : Chip :=
  if m.has 0x35 PAIR_STAT_HBOK && decide (m.hbtoTicks ≤ m.ticksSince m.pair.hbTick) then
    let m := (m.put 0x35 PAIR_STAT_HBOK 0).put 0x35 PAIR_STAT_LINK 0
    let m := { m with pair := { m.pair with run := 0, after := 0, alignRun := 0, leadSince := none, want := none } }
    let high := m.has 0x35 PAIR_STAT_PMSI
    let m := (((m.irq 0x35 5).emitSev 0x9002 2 [m.role, b2n high]).pairDepot 2 0 m.mirUsable).raise 112
    if m.inPair && m.role == 0 then
      if !high then m.takeOver 2
      else if m.pair.barred3 then m
      else { m with pair := { m.pair with act := some m.tim.tick } }
    else m
  else m

/-- Loops on which MDVALID read 1 within ACTWIN (R493). -/
def Chip.activeLoops (m : Chip) : List Nat :=
  m.pairLoops.filter (fun x =>
    let l := m.loop x
    m.has (marPg x) MAR_MDMEAS_MDVALID ||
      (l.netSeen && decide (m.ticksSince l.netTick < m.actTicks)))

/-- The activity window ends (R493): cause 3, or a link fault. -/
def Chip.activityEnd (m : Chip) : Chip :=
  match m.pair.act with
  | some t =>
    if m.actTicks ≤ m.ticksSince t then
      let m := { m with pair := { m.pair with act := none } }
      if m.activeLoops.isEmpty then m.takeOver 3
      else
        ((((m.put 0x35 PAIR_STAT_LINKFLT 1).irq 0x35 7).emitSev 0x9004 3 [maskOf m.activeLoops])).pairDepot 4 3 m.mirUsable
    else m
  | none => m

/-- The payload of a heartbeat sent at this boundary (R482). -/
def Chip.hbPayload (m : Chip) (health : Nat) : List Nat :=
  bytesOf 4 m.pair.hbSeq ++ bytesOf 4 m.tim.cycle ++ bytesOf 2 m.tim.angle ++ [m.flags + 8 * m.ttb]
    ++ [m.role + 4 * m.get 0x35 PAIR_STAT_POS + 8 * b2n m.pair.paired, health, m.get 0x35 PAIR_STAT_MCNT, 0, 0]
    ++ bytesOf 8 m.die.uid.toNat

/-! ### Planned handover (R498, R499) -/

/-- Why a handover is refused (R498). -/
def Chip.handoverBar (m : Chip) : Option Nat :=
  if m.role ≠ 1 then some 0x10 else if !m.linkUp then some 0x11 else if m.get 0x35 PAIR_STAT_PMCNT ≠ 8 then some 0x12
  else if m.huState = huCarry ∨ m.huState = huReturn then some 0x13 else none

/-- Start of an operation of the PAIR page (R498). -/
def Chip.pairOpStart (m : Chip) : Chip :=
  match m.opOf 0x35 with
  | none => m
  | some o =>
    if o.cmd ≠ 1 then m.endErr 0x35 0x01 0
    else if !m.unlockedFor o.req 0x35 then m.endErr 0x35 0x04 0
    else match m.handoverBar with
      | some c => m.endErr 0x35 c 0
      | none => m

/-- t0 of a handover (R499): the mirror is captured and the handover frame leaves. DEDUCED, unsafe (log 88). -/
def Chip.handoverT0 (m : Chip) : Chip :=
  match m.opOf 0x35 with
  | some o =>
    if o.phase = 0 then
      let m := m.setOp { o with phase := 1, a := m.tim.tick }
      { m with pair := { m.pair with txHo := uttiaFrame 3 (m.mirPayload m.pair.mirSeq) } }
    else m
  | none => m

/-- No acknowledge within 1 ms (R499). -/
def Chip.handoverTimeout (m : Chip) : Chip :=
  match m.opOf 0x35 with
  | some o =>
    if o.phase = 1 ∧ 1000 * usTicks ≤ m.ticksSince o.a then
      (m.endErr 0x35 0x14 0).emitSev 0x9008 2 [0x14]
    else m
  | none => m

/-- The acknowledge arrives (R499); one that comes 1 ms after t0 or later finds the operation ended. -/
def Chip.handoverAck (m : Chip) : Chip :=
  match m.opOf 0x35 with
  | some o =>
    if o.phase = 1 ∧ 1000 * usTicks ≤ m.ticksSince o.a then m.handoverTimeout
    else if o.phase = 1 ∧ m.role = 1 then
      let st := m.stamp
      let m := m.roleChange 0 8
      m.endDone 0x35 [BitVec.ofNat 32 st.cycle, BitVec.ofNat 32 (st.flags * 65536 + st.angle)]
    else m
  | none => m

/-- A handover on the master's own account (R487), under the conditions of R498. DEDUCED, unsafe (log 88). -/
def Chip.autoHandover (m : Chip) : Chip :=
  match m.pair.leadSince with
  | some t =>
    if m.has 0x35 PAIR_CFG_AUTOHO && decide (1000000 * usTicks ≤ m.ticksSince t) && m.handoverBar.isNone && !m.busy 0x35 then
      m.acceptOp 0x35 1 0 3
    else m
  | none => m

/-- The handover frame arrives at the standby (R499). DEDUCED, unsafe (log 86). -/
def Chip.handoverIn (m : Chip) (bs : List Byte) : Chip :=
  if m.inPair && m.role == 0 then
    { m with pair := { m.pair with acked := some (m.tim.tick, mirrorOf bs), txAck := uttiaFrame 4 [] } }
  else m

/-- PMSI is low for 2 µs (R493, R499): cause 5 within 10 µs of an acknowledge, with the handover mirror usable, else
cause 1. DEDUCED, unsafe (log 88). -/
def Chip.pmsiFall (m : Chip) : Chip :=
  let m := m.put 0x35 PAIR_STAT_PMSI 0
  match m.pair.acked with
  | some (t, im) =>
    if m.ticksSince t ≤ 10 * usTicks then
      let m := { m with mirror := some im }
      ({ m with pair := { m.pair with mirTick := some t, mirFull := true } }).takeOver 5
    else m.takeOver 1
  | none => m.takeOver 1

/-- A dual mastership (R489). -/
def Chip.dualMaster (m : Chip) : Chip :=
  let m := m.put 0x35 PAIR_STAT_PMSI 1
  if m.inPair && m.role == 1 && !m.linkUp then
    let pos := m.get 0x35 PAIR_STAT_POS
    let m := (m.put 0x35 PAIR_STAT_DUAL 1).irq 0x35 8
    let m := if pos = 1 then
        let m := m.roleChange 0 7
        { m with pair := { m.pair with barred3 := true } }
      else m
    (m.emitSev 0x9005 3 [pos, pos]).pairDepot 6 (if pos = 1 then 7 else 0) false
  else m

/-- No heartbeat since reset (R488): CLAIMDLY is 2 ms with PPOS low, 6 ms with PPOS high; a PMSI that is high has not
stayed low. -/
def Chip.claimEnd (m : Chip) : Chip :=
  let dly := if m.has 0x35 PAIR_STAT_POS then 6000 else 2000
  if m.pair.hbSeen || m.has 0x35 PAIR_STAT_PMSI || !decide (dly * usTicks ≤ m.ticksSince m.pair.since) then m
  else m.takeOver 4

/-- Pairing at a waypoint boundary, in stage 1 of R15: the commit of the mastership rule (R486), the heartbeat (R482)
and t0 of a handover (R499). DEDUCED, unsafe (log 87). -/
def Chip.pairStage (m : Chip) : Chip :=
  if !m.pair.released then m
  else
    let m := match m.pair.want with
      | some w =>
        let m := { m with pair := { m.pair with want := none } }
        if m.inPair then m.roleChange w 6 else m
      | none => m
    let h := m.health
    let m := m.put 0x35 PAIR_HEALTH_OWN h
    let f := uttiaFrame 1 (m.hbPayload h)
    let m := { m with pair := { m.pair with hbSeq := (m.pair.hbSeq + 1) % 2 ^ 32, sentRole := m.role, sentHealth := h,
                                            sentFlags := m.flags, txHb := f } }
    (m.leadNote).handoverT0

/-- A CFG write: HBTO and ACTWIN are limited (R494). DEDUCED, unsafe (log 89). -/
def pairCfg (v : Nat) : Nat :=
  let hb := clampN 12 60 (bitsOf v 16 8)
  let act := Nat.min (190 - hb) (clampN 10 130 (bitsOf v 8 8))
  setBits (setBits v 16 8 hb) 8 8 act

/-! ### Commands -/

/-- HEARTBEAT_RECEIVED (R483): a good frame with its payload, the skew it arrives with (R497), and the level of PMSI.
DESIGN CHOICE, safe (log 84); DESIGN CHOICE, safe (log 85). -/
def execHeartbeatReceived (payload : List Byte) (skew : BitVec 32) (pmsi : Level) (s : State) :
    Host.Outcome State Fault Refusal :=
  s.run (fun m =>
    if !m.pair.released then m
    else if payload.length ≠ 24 then m.badFrameOf 1
    else (m.putB 0x35 PAIR_STAT_PMSI pmsi).heartbeatIn payload skew.toNat)

/-- UTTIA_BAD_FRAME (R481): TYPE as received. -/
def execUttiaBadFrame (type : BitVec 8) (s : State) : Host.Outcome State Fault Refusal :=
  s.run (fun m =>
    if !m.pair.released then m else m.badFrameOf type.toNat)

/-- HEARTBEAT_LOST (R483), with the level of PMSI. DESIGN CHOICE, safe (log 85). -/
def execHeartbeatLost (pmsi : Level) (s : State) : Host.Outcome State Fault Refusal :=
  s.run (fun m => if !m.pair.released then m else (m.putB 0x35 PAIR_STAT_PMSI pmsi).heartbeatLost)

/-- MIRROR_SEND (R490). -/
def execMirrorSend (s : State) : Host.Outcome State Fault Refusal := s.run Chip.mirrorSend

/-- MIRROR_RECEIVED (R491): a good frame with its payload. DESIGN CHOICE, safe (log 84). -/
def execMirrorReceived (payload : List Byte) (s : State) : Host.Outcome State Fault Refusal :=
  s.run (fun m =>
    if !m.pair.released then m else if payload.length ≠ 72 then m.badFrameOf 2 else m.mirrorIn payload)

/-- AUTO_HANDOVER_START (R487). -/
def execAutoHandoverStart (s : State) : Host.Outcome State Fault Refusal := s.run Chip.autoHandover

/-- CLAIM_DELAY_EXPIRY (R488): PMSI has stayed low for CLAIMDLY. -/
def execClaimDelayExpiry (s : State) : Host.Outcome State Fault Refusal :=
  s.run (fun m => if m.pair.released then m.claimEnd else m)

/-- DUAL_MASTERSHIP (R489): PMSI is high for 4 µs. DESIGN CHOICE, safe (log 85). -/
def execDualMastership (s : State) : Host.Outcome State Fault Refusal :=
  s.run (fun m => if m.pair.released then m.dualMaster else m)

/-- PMSI_FALL_TAKEOVER (R493). DESIGN CHOICE, safe (log 85). -/
def execPmsiFallTakeover (s : State) : Host.Outcome State Fault Refusal :=
  s.run (fun m => if m.pair.released then m.pmsiFall else m)

/-- ACTIVITY_WINDOW_END (R493). -/
def execActivityWindowEnd (s : State) : Host.Outcome State Fault Refusal := s.run Chip.activityEnd

/-- HANDOVER (R498): OPCMD 0x01 is written. DESIGN CHOICE, safe (log 29). -/
def execHandover (r : Requester) (s : State) : Host.Outcome State Fault Refusal :=
  s.run (fun m => m.startOp 0x35 1 (reqCode r) Chip.pairOpStart)

/-- HANDOVER_FRAME_RECEIVED (R499): a good frame with its payload. -/
def execHandoverFrameReceived (payload : List Byte) (s : State) : Host.Outcome State Fault Refusal :=
  s.run (fun m =>
    if !m.pair.released then m else if payload.length ≠ 72 then m.badFrame else m.handoverIn payload)

/-- HANDOVER_ACK_RECEIVED (R499). -/
def execHandoverAckReceived (s : State) : Host.Outcome State Fault Refusal := s.run Chip.handoverAck

/-- HANDOVER_ACK_TIMEOUT (R499). -/
def execHandoverAckTimeout (s : State) : Host.Outcome State Fault Refusal := s.run Chip.handoverTimeout

/-- HANDOVER_PMSI_TIMEOUT (R499): PMSI has not fallen within 10 µs of the acknowledge. -/
def execHandoverPmsiTimeout (s : State) : Host.Outcome State Fault Refusal :=
  s.run (fun m =>
    match m.pair.acked with
    | some (t, _) =>
      if 10 * usTicks ≤ m.ticksSince t then { m with pair := { m.pair with acked := none } } else m
    | none => m)

/-- MIRROR_TIMEOUT (R491). DESIGN CHOICE, safe (log 2). -/
def execMirrorTimeout (s : State) : Host.Outcome State Fault Refusal := s.run Chip.mirrorMissing

end Sys2Proof.Machine
end

