-- ==== Sys2Proof/Machine/Operands.lean ====
section
/-! DEFINITION. The operand forms of the engines' instruction words (R359): the fields of each format, the bits a format
writes 0 (R360), the guard, and an engine's registers, which stand in its ENG page (R378). -/

namespace Sys2Proof.Machine

/-! ### Fields of a word -/

/-- The word of an opcode and its 26 lower bits. -/
def instrWord (op : Nat) (f : BitVec 26) : Nat := op * 2 ^ 26 + f.toNat

/-- OP. -/
def wOp (w : Nat) : Nat := bitsOf w 26 6
/-- PRED. -/
def wPred (w : Nat) : Nat := bitsOf w 23 3
/-- PN. -/
def wPn (w : Nat) : Bool := bit w 22
/-- rd of formats R, I, M and X. -/
def wRd (w : Nat) : Nat := bitsOf w 18 4
/-- ra of formats R, I, C and X. -/
def wRa (w : Nat) : Nat := bitsOf w 14 4
/-- rb of formats R and X. -/
def wRb (w : Nat) : Nat := bitsOf w 10 4
/-- imm14 of format I, extended with zeros. -/
def wImm14 (w : Nat) : Nat := bitsOf w 0 14
/-- imm16 of format M. -/
def wImm16 (w : Nat) : Nat := bitsOf w 0 16
/-- pd of formats C and P. -/
def wPd (w : Nat) : Nat := bitsOf w 19 3
/-- cond of format C. -/
def wCond (w : Nat) : Nat := bitsOf w 10 4
/-- rb of CMP. -/
def wCmpRb (w : Nat) : Nat := bitsOf w 6 4
/-- imm10 of CMPI. -/
def wImm10 (w : Nat) : Nat := bitsOf w 0 10
/-- pa of format P. -/
def wPa (w : Nat) : Nat := bitsOf w 16 3
/-- pb of format P. -/
def wPb (w : Nat) : Nat := bitsOf w 13 3
/-- simm22 of format B. -/
def wImm22 (w : Nat) : Nat := bitsOf w 0 22
/-- FN of format X. -/
def wFn (w : Nat) : Nat := bitsOf w 4 6
/-- UNIT of format X. -/
def wUnit (w : Nat) : Nat := bitsOf w 0 4

/-- A 32-bit result. -/
def w32 (n : Nat) : Nat := n % 2 ^ 32

/-- imm14, sign-extended to 32 bits. -/
def simm14 (w : Nat) : Nat := ux 32 (sx 14 (wImm14 w))

/-- imm10, sign-extended to 32 bits. -/
def simm10 (w : Nat) : Nat := ux 32 (sx 10 (wImm10 w))

/-- The target of a branch from a word index: simm22 counts words from the instruction's own address, and the word index
wraps modulo 4096 (R353, R361). -/
def branchTo (pc w : Nat) : Nat := ux 12 (pc + sx 22 (wImm22 w))

/-- The bits below a mask that a format writes 0 are 0 (R360). -/
def zeroIn (w mask : Nat) : Bool := w &&& mask == 0

/-- [9:0] of format R. DEDUCED, safe (log 79). -/
def maskR : Nat := 0x3FF
/-- rd of format R. -/
def maskRd : Nat := 0x3C0000
/-- ra of format R. -/
def maskRa : Nat := 0x3C000
/-- rb of format R. -/
def maskRb : Nat := 0x3C00
/-- [17:16] of format M. -/
def maskM : Nat := 0x30000
/-- [18] of format C. -/
def maskC : Nat := 0x40000
/-- [12:2] of format P. -/
def maskP : Nat := 0x1FFC
/-- imm14[13:5] of the immediate shifts. -/
def maskShift : Nat := 0x3FE0
/-- All fields of an instruction below its guard. DEDUCED, safe (log 79). -/
def maskAll : Nat := 0x3FFFFF

/-! ### An engine's registers -/

/-- Page of an engine. -/
def engPg (x : Fin 8) : Nat := 0x28 + x.val

/-- STAT.STATE: 0 OFF, 1 RUN, 2 WAIT, 3 STALL, 4 HALTED. -/
def Chip.engState (m : Chip) (x : Fin 8) : Nat := m.get (engPg x) ENG_STAT_STATE

/-- Enter a state with a stall source (R374). -/
def Chip.engTo (m : Chip) (x : Fin 8) (st src : Nat) : Chip :=
  (m.put (engPg x) ENG_STAT_STATE st).put (engPg x) ENG_STAT_STALLSRC src

/-- PC, a word index. -/
def Chip.pc (m : Chip) (x : Fin 8) : Nat := m.get (engPg x) ENG_PC_PC

/-- Set PC, modulo 4096. -/
def Chip.setPc (m : Chip) (x : Fin 8) (n : Nat) : Chip := m.put (engPg x) ENG_PC_PC n

/-- Go on with the next word (R353). -/
def Chip.engNext (m : Chip) (x : Fin 8) : Chip := m.setPc x (m.pc x + 1)

/-- A general register. -/
def Chip.g (m : Chip) (x : Fin 8) (i : Nat) : Nat := m.get (engPg x) ENG_G_G i

/-- Write a general register. -/
def Chip.setG (m : Chip) (x : Fin 8) (i v : Nat) : Chip := m.put (engPg x) ENG_G_G v i

/-- Write several general registers upward (R371). -/
def Chip.setGs (m : Chip) (x : Fin 8) : Nat → List Nat → Chip
  | _, [] => m
  | i, v :: t => Chip.setGs (m.setG x i v) x (i + 1) t

/-- p7…p0 as a byte; p0 reads 1 (R363). -/
def Chip.preds (m : Chip) (x : Fin 8) : Nat := m.get (engPg x) ENG_PREG_P * 2 + 1

/-- A predicate. -/
def Chip.pred (m : Chip) (x : Fin 8) (i : Nat) : Bool := bit (m.preds x) i

/-- Write p7…p1 from a byte (R361, R363). -/
def Chip.setPreds (m : Chip) (x : Fin 8) (v : Nat) : Chip := m.put (engPg x) ENG_PREG_P (v / 2)

/-- Write one predicate; a write to p0 is ignored (R363). -/
def Chip.setPred (m : Chip) (x : Fin 8) (i : Nat) (b : Bool) : Chip :=
  m.setPreds x (if b then setBit (m.preds x) i else clearBit (m.preds x) i)

/-- Does the guard hold (R359)? -/
def Chip.guardHolds (m : Chip) (x : Fin 8) (w : Nat) : Bool := m.pred x (wPred w) != wPn w

end Sys2Proof.Machine
end

