-- ==== Sys2Proof/Machine/Flags.lean ====
section
/-! DEFINITION. The conditions that CMP and CMPI put into predicates (R362), the logic of PSET, and the arithmetic of the
engines' instructions (R361). The block has no other flags computed from operands. -/

namespace Sys2Proof.Machine

/-- A condition of R362 on two 32-bit words; none for a cond value that traps. -/
def condOf (cond a b : Nat) : Option Bool :=
  if cond = 0 then some (a == b)
  else if cond = 1 then some (a != b)
  else if cond = 2 then some (decide (sx 32 a < sx 32 b))
  else if cond = 3 then some (decide (sx 32 b ≤ sx 32 a))
  else if cond = 4 then some (decide (a < b))
  else if cond = 5 then some (decide (b ≤ a))
  else if cond = 6 then some (a &&& b != 0)
  else if cond = 7 then some (a &&& b == 0)
  else none

/-- The logic of PSET (R361). -/
def psetOf (op : Nat) (a b : Bool) : Bool :=
  if op = 0 then a && b else if op = 1 then a || b else if op = 2 then a != b else a && !b

/-- ADD. -/
def aluAdd (a b : Nat) : Nat := w32 (a + b)
/-- SUB. -/
def aluSub (a b : Nat) : Nat := w32 (a + 2 ^ 32 - b)
/-- Shift left by the low five bits. -/
def aluShl (a b : Nat) : Nat := w32 (a <<< (b % 32))
/-- Shift right by the low five bits, zeros in. -/
def aluShr (a b : Nat) : Nat := a >>> (b % 32)
/-- Shift right by the low five bits, sign in. -/
def aluAsr (a b : Nat) : Nat := ux 32 (divFloor (sx 32 a) ((2 ^ (b % 32) : Nat) : Int))
/-- Low word of the product. -/
def aluMul (a b : Nat) : Nat := w32 (a * b)
/-- High word of the signed product. -/
def aluMulh (a b : Nat) : Nat := ux 32 (divFloor (sx 32 a * sx 32 b) ((2 ^ 32 : Nat) : Int))
/-- High word of the unsigned product. -/
def aluMulhu (a b : Nat) : Nat := a * b / 2 ^ 32
/-- Signed minimum. -/
def aluMin (a b : Nat) : Nat := if sx 32 a ≤ sx 32 b then a else b
/-- Signed maximum. -/
def aluMax (a b : Nat) : Nat := if sx 32 a ≤ sx 32 b then b else a
/-- Saturated sum. -/
def aluAdds (a b : Nat) : Nat := ux 32 (satS 32 (sx 32 a + sx 32 b))
/-- Saturated difference. -/
def aluSubs (a b : Nat) : Nat := ux 32 (satS 32 (sx 32 a - sx 32 b))
/-- Quotient truncated toward zero, with the results the spec gives for a divisor of 0 and for overflow. -/
def aluDiv (unsigned : Bool) (a b : Nat) : Nat :=
  if unsigned then (if b = 0 then 0xFFFFFFFF else a / b)
  else if b = 0 then (if sx 32 a < 0 then 0x80000000 else 0x7FFFFFFF)
  else if a = 0x80000000 ∧ b = 0xFFFFFFFF then 0x7FFFFFFF
  else ux 32 (Int.tdiv (sx 32 a) (sx 32 b))

end Sys2Proof.Machine
end

