-- ==== Sys2Proof/Machine/Engine.lean ====
section
/-! DEFINITION. An engine around its instructions (R358, R363, R369, R370, R374–R376): its RAMs, traps, waits and stalls,
ENABLE, the windows PDATA and DDATA, and the program load. -/

namespace Sys2Proof.Machine

/-- What an engine keeps outside its registers. -/
def Chip.engSt (m : Chip) (x : Fin 8) : EngSt := (m.eng[x.val]?).getD {}

/-- Set what an engine keeps outside its registers. -/
def Chip.setEng (m : Chip) (x : Fin 8) (e : EngSt) : Chip := { m with eng := setAt m.eng x.val e }

/-- Requester code of an engine. -/
def engReq (x : Fin 8) : Nat := 4 + x.val

/-- Array number of an engine's program RAM (R434). -/
def progArr (x : Fin 8) : Nat := x.val

/-- Array number of an engine's data RAM (R434). -/
def dataArr (x : Fin 8) : Nat := 8 + x.val

/-! ### Traps -/

/-- Is the engine in a trap handler? -/
def Chip.inHandler (m : Chip) (x : Fin 8) : Bool := m.has (engPg x) ENG_STAT_HANDLER

/-- The engine halts at the word after this one (R374). -/
def Chip.engHalt (m : Chip) (x : Fin 8) : Chip := ((m.engTo x 4 0).irq (engPg x) 4).engNext x

/-- Causes that set FAULT and are logged (R369). -/
def trapFault (cause : Nat) : Bool := cause == 2 || cause == 3 || cause == 4 || cause == 6 || cause == 7

/-- The trap entry of R369. -/
def Chip.trapEntry (m : Chip) (x : Fin 8) (cause : Nat) (inst : Word) : Chip :=
  let pg := engPg x
  let pc := m.pc x
  let m := (m.put pg ENG_TEPC_EPC pc).put pg ENG_TCAUSE_CAUSE cause
  let m := (m.put pg ENG_TINST_INST inst.toNat).put pg ENG_STAT_HANDLER 1
  let m := m.setPc x (m.get pg ENG_CFG_TVEC)
  if trapFault cause then (m.irq pg 5).emit 0xA020 [x.val, cause, pc, up inst.toNat] else m

/-- A double trap: the engine halts, and the first trap's values stay (R370). -/
def Chip.doubleTrap (m : Chip) (x : Fin 8) (cause : Nat) : Chip :=
  let pg := engPg x
  let m := (m.put pg ENG_STAT_DCAUSE cause).put pg ENG_STAT_DOUBLE 1
  let m := (m.irq pg 6).emit 0xA021 [x.val, m.get pg ENG_TCAUSE_CAUSE, cause, m.get pg ENG_TEPC_EPC]
  m.engHalt x

/-- A trap is taken (R369, R370). -/
def Chip.trap (m : Chip) (x : Fin 8) (cause : Nat) (inst : Word) : Chip :=
  if m.inHandler x then m.doubleTrap x cause else m.trapEntry x cause inst

/-- A trap of the word at hand. -/
def Chip.trapW (m : Chip) (x : Fin 8) (cause w : Nat) : Chip := m.trap x cause (BitVec.ofNat 32 w)

/-! ### Issue, wait and stall -/

/-- The idle cycles that the throttle level puts after each instruction of an engine of ENGMASK: one at level 2, three
at level 3 (R346). A cycle is a tick of 5 ns, and the instruction's own cycle comes first. DEDUCED, unsafe (log 74).
-/
def Chip.engIdle (m : Chip) (x : Fin 8) : Chip :=
  let lvl := m.get 0x22 THM_STAT_LEVEL
  if bit (m.get 0x22 THM_MASK_ENGMASK) x.val && decide (2 ≤ lvl) then
    m.setEng x { m.engSt x with idle := m.tim.tick + (if lvl = 2 then 2 else 4) }
  else m

/-- An instruction is issued from PC by an engine in RUN that is not idle (R346, R359, R374): program RAM holds its
word there, and a row with another word changes nothing. The fetch of an uncorrectable word traps with cause 6, and
what TINST then receives is free (R358); an instruction whose guard does not hold changes nothing but PC. DESIGN
CHOICE, safe (log 3); DEDUCED, safe (log 13). -/
def Chip.issue (m : Chip) (x : Fin 8) (w : Nat) (body : Chip → Chip) : Chip :=
  if m.engState x ≠ 1 ∨ m.tim.tick < (m.engSt x).idle then m
  else
    match m.read32 (engReq x) (progArr x) (4 * m.pc x) with
    | (none, n) =>
      let f := n.freeWord
      f.2.trap x 6 f.1
    | (some v, n) =>
      if v ≠ w then m
      else
        let n := n.engIdle x
        if n.guardHolds x w then body n else n.engNext x

/-- An instruction whose bits under a mask must be 0 (R360). DEDUCED, safe (log 79). -/
def Chip.checked (m : Chip) (x : Fin 8) (w mask : Nat) (body : Chip → Chip) : Chip :=
  if zeroIn w mask then body m else m.trapW x 3 w

/-- The engine waits at its instruction (R374). -/
def Chip.engWait (m : Chip) (x : Fin 8) (k : EngWait) : Chip :=
  (m.engTo x 2 0).setEng x { m.engSt x with wait := k }

/-- A wait ends: rd receives its value, if it has one, and the engine goes on (R364, R366, R367). -/
def Chip.engResume (m : Chip) (x : Fin 8) (rd : Option Nat) (v : Nat) : Chip :=
  let m := ((m.engTo x 1 0).setEng x { m.engSt x with wait := .none }).engIdle x
  let m := match rd with
    | some r => m.setG x r v
    | none => m
  m.engNext x

/-- An engine's instruction stalls (R374). DEDUCED, unsafe (log 74). -/
def Chip.engStall (m : Chip) (x : Fin 8) (src w : Nat) : Chip :=
  (m.engTo x 3 src).setEng x { m.engSt x with stall := w }

/-- The engine goes to OFF: a wait in progress is cancelled, and so is a put that waits for a Depot slot (R374). -/
def Chip.engOff (m : Chip) (x : Fin 8) : Chip :=
  let m := (m.engTo x 0 0).setEng x {}
  { m with dep := { m.dep with waiting := m.dep.waiting.filter (fun e => e.src != x.val) } }

/-- SOFTRST stops an engine at once: all that a stalled load could still do returns to its reset value (R374).
DEDUCED, unsafe (log 76). -/
def Chip.engStop (m : Chip) (x : Fin 8) : Chip := (m.putB (engPg x) HDR_CTRL_ENABLE false).engOff x

/-- A stop is due once the access in progress has completed (R374). DEDUCED, unsafe (log 76). -/
def Chip.engStopDue (m : Chip) (x : Fin 8) : Chip :=
  if (m.engSt x).stopDue && decide (m.engState x ≠ 3) then m.engOff x else m

/-- Does a program load run for the engine (R376)? -/
def Chip.loadRuns (m : Chip) (x : Fin 8) : Bool := m.busy (engPg x)

/-- CTRL.ENABLE is written (R363, R374, R376). DEDUCED, unsafe (log 76). -/
def Chip.engEnable (m : Chip) (x : Fin 8) (en : Bool) : Chip :=
  let pg := engPg x
  if en then
    if m.engState x ≠ 0 then (m.putB pg HDR_CTRL_ENABLE true).setEng x { m.engSt x with stopDue := false }
    else if m.loadRuns x then m.irq pg 7
    else (((((m.putB pg HDR_CTRL_ENABLE true).setPreds x 0).put pg ENG_STAT_HANDLER 0).put pg ENG_STAT_DOUBLE 0).engTo x 1 0)
  else
    let m := m.putB pg HDR_CTRL_ENABLE false
    if m.engState x = 3 ∧ m.get pg ENG_STAT_STALLSRC ≠ 4 then m.setEng x { m.engSt x with stopDue := true }
    else m.engOff x

/-- ENGINE_ENABLE_WRITE (R374). -/
def execEngineEnableWrite (r : Requester) (x : Fin 8) (en : Bool) (s : State) : Host.Outcome State Fault Refusal :=
  s.run (fun m => m.onPage (reqCode r) (engPg x) (fun m => m.engEnable x en))

/-! ### PDATA and DDATA -/

/-- A read of a RAM word by a register: a word that cannot be read gives 0 (R440). -/
def Chip.ramRead (m : Chip) (r arr word : Nat) : Nat × Chip :=
  let v := m.read32 r arr (4 * word)
  (v.1.getD 0, v.2)

/-- A PDATA read (R375). -/
def Chip.pdataRead (m : Chip) (r : Nat) (x : Fin 8) : Nat × Chip :=
  let a := m.get (engPg x) ENG_PADDR_ADDR
  let v := m.ramRead r (progArr x) a
  (v.1, v.2.put (engPg x) ENG_PADDR_ADDR (a + 1))

/-- A PDATA write: only while the engine is OFF; a dropped write accesses nothing (R375). DEDUCED, unsafe (log 77). -/
def Chip.pdataWrite (m : Chip) (r : Nat) (x : Fin 8) (v : Nat) : Chip :=
  let a := m.get (engPg x) ENG_PADDR_ADDR
  if m.engState x = 0 then (m.write32 r (progArr x) (4 * a) v).2.put (engPg x) ENG_PADDR_ADDR (a + 1)
  else m.irq (engPg x) 7

/-- A DDATA read (R375). -/
def Chip.ddataRead (m : Chip) (r : Nat) (x : Fin 8) : Nat × Chip :=
  let a := m.get (engPg x) ENG_DADDR_ADDR
  let v := m.ramRead r (dataArr x) a
  (v.1, v.2.put (engPg x) ENG_DADDR_ADDR (a + 1))

/-- A DDATA write, in every state (R375). -/
def Chip.ddataWrite (m : Chip) (r : Nat) (x : Fin 8) (v : Nat) : Chip :=
  let a := m.get (engPg x) ENG_DADDR_ADDR
  (m.write32 r (dataArr x) (4 * a) v).2.put (engPg x) ENG_DADDR_ADDR (a + 1)

/-- PDATA_ACCESS (R375): a read, or a write of a word. -/
def execPdataAccess (r : Requester) (x : Fin 8) (wr : Option Word) (s : State) : Host.Outcome State Fault Refusal :=
  s.run (fun m => m.onPage (reqCode r) (engPg x) (fun m =>
    match wr with
    | some v => m.pdataWrite (reqCode r) x v.toNat
    | none => (m.pdataRead (reqCode r) x).2))

/-- DDATA_ACCESS (R375): a read, or a write of a word. -/
def execDdataAccess (r : Requester) (x : Fin 8) (wr : Option Word) (s : State) : Host.Outcome State Fault Refusal :=
  s.run (fun m => m.onPage (reqCode r) (engPg x) (fun m =>
    match wr with
    | some v => m.ddataWrite (reqCode r) x v.toNat
    | none => (m.ddataRead (reqCode r) x).2))

/-- A write of PC, G0–G15 or PREG: only in OFF and HALTED (R375). -/
def Chip.engRegWrite (m : Chip) (r : Nat) (x : Fin 8) (addr v : Nat) : Chip :=
  if m.engState x = 0 ∨ m.engState x = 4 then m.plainWrite r addr v else m.irq (engPg x) 7

/-! ### The program load (R376) -/

/-- A program load fails (R376, R377). DEDUCED, unsafe (log 77). -/
def Chip.loadFail (m : Chip) (x : Fin 8) (reason word : Nat) : Chip :=
  (m.endErr (engPg x) reason word).emit 0xA022 [x.val, reason, word]

/-- Words of a load's argument. -/
def loadWords (arg : Nat) : Nat := bitsOf arg 19 11 * 4

/-- First byte of a load's block in the NVM window. -/
def loadOff (arg : Nat) : Nat := bitsOf arg 2 17 * 4

/-- OPCMD on an ENG page (R376). -/
def Chip.engOpStart (m : Chip) (x : Fin 8) : Chip :=
  match m.opOf (engPg x) with
  | none => m
  | some o =>
    let n := loadWords o.arg
    if o.cmd ≠ 1 then m.endErr (engPg x) 0x01 0
    else if !m.unlockedFor o.req (engPg x) then m.loadFail x 0x04 0
    else if o.arg % 4 ≠ 0 ∨ o.arg / 2 ^ 30 ≠ 0 ∨ n = 0 ∨ 4096 < n ∨ 0x80000 < loadOff o.arg + 4 * n then
      m.loadFail x 0x02 0
    else if m.engState x ≠ 0 then m.loadFail x 0x10 0
    else m

/-- How reading a program from the store ends. -/
inductive LoadEnd where
  | done | refused (word : Nat) | notReady (word : Nat)
deriving DecidableEq, Repr

/-- Read words of the NVM window into program RAM from word 0 upward. -/
def Chip.loadFrom (m : Chip) (x : Fin 8) (req off : Nat) : Nat → Nat → LoadEnd × Chip
  | _, 0 => (.done, m)
  | word, n + 1 =>
    match m.nvRead req (off + 4 * word) with
    | (.value v, m) => Chip.loadFrom (m.write32 req (progArr x) (4 * word) v).2 x req off (word + 1) n
    | (.refused, m) => (.refused word, m)
    | (.notReady, m) => (.notReady word, m)

/-- The load's reads are made and the operation ends; while a page is not ready it goes on, with PROGRESS at 255 × the
words loaded / the length. DEDUCED, unsafe (log 77). -/
def Chip.engLoadEnd (m : Chip) (x : Fin 8) (o : LongOp) : Chip :=
  match m.loadFrom x o.req (loadOff o.arg) 0 (loadWords o.arg) with
  | (.done, m) => m.endDone (engPg x) [BitVec.ofNat 32 (loadWords o.arg)]
  | (.refused k, m) => (m.progress (engPg x) (255 * k / loadWords o.arg)).loadFail x 0x11 k
  | (.notReady k, m) => m.progress (engPg x) (255 * k / loadWords o.arg)

/-- How far a load has come at this moment is open: a free number of words, none behind the one that will stop it
(R376). DESIGN CHOICE, safe (log 3); DESIGN CHOICE, safe (log 67). -/
def Chip.engGlance (m : Chip) (x : Fin 8) : Chip :=
  match m.opOf (engPg x) with
  | some o =>
    let n := loadWords o.arg
    let last := match (m.loadFrom x o.req (loadOff o.arg) 0 n).1 with
      | .done => n
      | .refused j | .notReady j => j
    let f := m.freeWord
    if o.cmd = 1 then f.2.progress (engPg x) (255 * (f.1.toNat % (last + 1)) / n) else m
  | none => m

/-- An abort leaves the words already written, a free number of them but no fewer than PROGRESS has shown (R376).
DESIGN CHOICE, safe (log 3); DEDUCED, unsafe (log 77). -/
def Chip.engAbort (m : Chip) (x : Fin 8) (o : LongOp) : Chip :=
  let n := loadWords o.arg
  let f := m.freeWord
  let k := Nat.max (f.1.toNat % n) ((m.get (engPg x) HDR_STATUS_PROGRESS * n + 254) / 255)
  let r := f.2.loadFrom x o.req (loadOff o.arg) 0 k
  let k := match r.1 with
    | .done => k
    | .refused j | .notReady j => j
  let m := r.2.progress (engPg x) (255 * k / n)
  m.endErr (engPg x) 0x05 (m.get (engPg x) HDR_STATUS_PROGRESS)

/-- ENGINE_PROGRAM_LOAD (R376): OPARG takes `arg` and OPCMD 0x01 is written. -/
def execEngineProgramLoad (r : Requester) (x : Fin 8) (arg : Word) (s : State) : Host.Outcome State Fault Refusal :=
  s.run (fun m => m.onPage (reqCode r) (engPg x) (fun m =>
    (m.wr (engPg x * 0x400 + 0x24) arg).startOp (engPg x) 1 (reqCode r) (fun m => m.engOpStart x)))

end Sys2Proof.Machine
end

