-- ==== Sys2Proof/Machine/Overlay.lean ====
section
/-! DEFINITION. What the configuration loader reads of the store: overlays and their preload (R427, R428), and the base
image (R425). -/

namespace Sys2Proof.Machine

/-- Bytes of the store from a window offset upward, read word by word as the loader; a word that is refused gives
zeros. -/
def Chip.cfgBytes (m : Chip) (off : Nat) : Nat → List Nat × Chip
  | 0 => ([], m)
  | n + 1 =>
    match m.nvRead 3 off with
    | (.value v, m) =>
      let t := Chip.cfgBytes m (off + 4) n
      (bytesOf 4 v ++ t.1, t.2)
    | (_, m) =>
      let t := Chip.cfgBytes m (off + 4) n
      ([0, 0, 0, 0] ++ t.1, t.2)

/-- Does a read of words from a window offset wait for the page that the compatibility interface writes (R424)? -/
def Chip.cfgWaits (m : Chip) (off n : Nat) : Bool :=
  m.has 0x23 NVM_CPSTAT_BUSY &&
    (m.nv.latch.any (fun s => decide (off / 256 ≤ s.page) && decide (s.page * 256 < off + 4 * n)))

/-- Entries of 8 bytes: control word and data (R425). -/
def cfgEntries : Nat → List Nat → List (Nat × Nat)
  | 0, _ => []
  | n + 1, bs => (le32 bs, le32 (bs.drop 4)) :: cfgEntries n (bs.drop 8)

/-- KIND of an entry. -/
def entryKind (c : Nat) : Nat := bitsOf c 28 4

/-- ADDR of an entry. -/
def entryAddr (c : Nat) : Nat := bitsOf c 0 22

/-- Window offset of overlay `k`: three pages each from page 0x7D8 (R402). -/
def ovlOff (k : Nat) : Nat := 0x7D800 + 0x300 * k

/-- What the check of an overlay finds: its entries, or the failure 1 CRC, 2 COUNT, 3 KIND (R428, R431). -/
inductive OvlCheck where
  | ok (entries : List (Nat × Nat))
  | bad (why : Nat)
deriving DecidableEq, Repr

/-- Read and check overlay `k` (R427, R428). DEDUCED, unsafe (log 80). -/
def Chip.ovlCheck (m : Chip) (k : Nat) : OvlCheck × Chip :=
  let h := m.cfgBytes (ovlOff k) 4
  let count := (h.1[0]?).getD 0
  if 64 < count then (.bad 2, h.2)
  else
    let b := h.2.cfgBytes (ovlOff k + 16) (2 * count)
    let es := cfgEntries count b.1
    if crc32 b.1 ≠ le32 (h.1.drop 4) then (.bad 1, b.2)
    else if es.any (fun e => entryKind e.1 != 0) then (.bad 3, b.2)
    else (.ok es, b.2)

/-- Does a read of overlay `k` wait for a page being written? -/
def Chip.ovlWaits (m : Chip) (k : Nat) : Bool :=
  m.cfgWaits (ovlOff k) 4 ||
    (let count := ((m.cfgBytes (ovlOff k) 4).1[0]?).getD 0
     decide (count ≤ 64) && m.cfgWaits (ovlOff k + 16) (2 * count))

/-- A preload fails (R428). -/
def Chip.ovlFail (m : Chip) (k why : Nat) : Chip := (m.irq 0x38 6).emit 0x8013 [k, why]

/-- A write of SWCTL: with ARM it preloads and replaces an armed switch, without it disarms (R428). -/
def Chip.swctlWrite (m : Chip) (r v : Nat) : Chip :=
  let m := m.plainWrite r (OVL_SWCTL_ARM.addr 0x38) v
  { m.put 0x38 OVL_SWCTL_PRELOADED 0 with ovl := { loading := bit v 31 } }

/-- The preload of the armed overlay ends; while the store is closed it has not started, and it waits for a page being
written (R424, R428). -/
def Chip.ovlPreloadEnd (m : Chip) : Chip :=
  if !m.ovl.loading || m.nvClosed || m.ovlWaits (m.get 0x38 OVL_SWCTL_OVL) then m
  else
    let k := m.get 0x38 OVL_SWCTL_OVL
    match m.ovlCheck k with
    | (.ok es, m) => { m.put 0x38 OVL_SWCTL_PRELOADED 1 with ovl := { entries := es } }
    | (.bad w, m) => ({ m.put 0x38 OVL_SWCTL_ARM 0 with ovl := {} }).ovlFail k w

/-- OVL_SWCTL_ARM (R428): a write of SWCTL. -/
def execOvlSwctlArm (r : Requester) (v : Word) (s : State) : Host.Outcome State Fault Refusal :=
  s.run (fun m => m.onPage (reqCode r) 0x38 (fun m => m.swctlWrite (reqCode r) v.toNat))

/-- OVERLAY_PRELOAD_END (R428). DEDUCED, unsafe (log 82). -/
def execOverlayPreloadEnd (s : State) : Host.Outcome State Fault Refusal := s.run Chip.ovlPreloadEnd

end Sys2Proof.Machine
end

