-- ==== Sys2Proof/Machine/Reset.lean ====
section
/-! DEFINITION. The full chip resets and their release (R503–R505). -/

namespace Sys2Proof.Machine

/-- Is a byte of a memory kept through a reset: a byte of the store (R503)? -/
def keptByte (a : Nat) : Bool := decide (0x20 ≤ a / 2 ^ 20)

/-- The storage word whose write has started is completed under the reserve, whatever happens (R409, R414). -/
def Chip.wordReserve (m : Chip) : Chip :=
  match m.nv.inWord, m.nv.cur with
  | true, some j =>
    match j.todo with
    | (p, w :: _) :: _ => (m.nvWordDone j p w).2
    | _ => m
  | _, _ => m

/-- A full chip reset by a cause (R503–R505): every register, latch, queue, buffer and RAM but the store returns to
its reset value; RSTHIST, RSTCNT and LASTPH carry over; a further cause is added to those that hold. DEDUCED, safe
(log 11). -/
def Chip.fullReset (m : Chip) (cause : Nat) : Chip :=
  if m.held then { m with causes := setBit m.causes cause }
  else
    let store := m.wordReserve
    let fresh : Chip := {
      die := m.die, held := true, causes := 2 ^ cause, freeN := m.freeN,
      mem := store.mem.filter (fun e => keptByte e.1), upset := store.upset.filter (fun e => keptByte e.1) }
    let fresh := fresh.put 0x01 CLK_RSTHIST_CAUSE (m.get 0x01 CLK_RSTHIST_CAUSE)
    (fresh.put 0x01 CLK_RSTCNT_COUNT (m.get 0x01 CLK_RSTCNT_COUNT)).put 0x01 CLK_BOOT_LASTPH m.bootPhase

/-- Reset release (R417, R505, R506): the causes are recorded, the straps sampled, the tick counter starts at 0, and
the journal is read. The level of PPOS stays at its ball, from which run entry samples it (R521). DEDUCED, safe (log
11). -/
def Chip.release (m : Chip) (straps : BitVec 5) : Chip :=
  if !m.held then m
  else
    let por := bit m.causes 0
    let hist := if por then 0 else m.get 0x01 CLK_RSTHIST_CAUSE
    let cnt := if por then 0 else m.get 0x01 CLK_RSTCNT_COUNT
    let m := { m with held := false, die := { m.die with straps := straps, ppos := straps.getLsbD 2 } }
    let m := (m.put 0x01 CLK_RSTC_CAUSE m.causes).put 0x01 CLK_RSTHIST_CAUSE (hist ||| m.causes)
    let m := m.put 0x01 CLK_RSTCNT_COUNT (satInc 16 cnt)
    (if por then m.put 0x01 CLK_BOOT_LASTPH 5 else m).nvJournalRead.settle

/-- POWER_ON_RESET (R503). -/
def execPowerOnReset (s : State) : Host.Outcome State Fault Refusal := .next { s with chip := s.chip.fullReset 0 }

/-- PIN_RESET (R503). -/
def execPinReset (s : State) : Host.Outcome State Fault Refusal := .next { s with chip := s.chip.fullReset 1 }

/-- CLOCK_FAIL_RESET (R503). -/
def execClockFailReset (s : State) : Host.Outcome State Fault Refusal := .next { s with chip := s.chip.fullReset 3 }

/-- CORE_FAULT_RESET (R503). -/
def execCoreFaultReset (s : State) : Host.Outcome State Fault Refusal := .next { s with chip := s.chip.fullReset 4 }

/-- THERMAL_SHUTDOWN (R503). -/
def execThermalShutdown (s : State) : Host.Outcome State Fault Refusal := .next { s with chip := s.chip.fullReset 5 }

/-- SWRST_WRITE (R47, R503): 0x0000_D1E5 written by an unlocked requester resets the chip; other values are ignored. -/
def Chip.swrstWrite (m : Chip) (r v : Nat) : Chip :=
  if !m.unlockedFor r 0 then (if v = 0 then m else m.lockErr) else if v = 0xD1E5 then m.fullReset 2 else m

/-- SWRST_WRITE. -/
def execSwrstWrite (r : Requester) (v : Word) (s : State) : Host.Outcome State Fault Refusal :=
  s.run (fun m => m.onPage (reqCode r) 0 (fun m => m.swrstWrite (reqCode r) v.toNat))

/-- RESET_RELEASE (R505, R506). DESIGN CHOICE, safe (log 8). -/
def execResetRelease (straps : BitVec 5) (s : State) : Host.Outcome State Fault Refusal :=
  .next { s with chip := s.chip.release straps }

end Sys2Proof.Machine
end

