-- ==== Sys2Proof/Machine/Access.lean ====
section
/-! DEFINITION. One access to the address space (R28–R30): presence, the common header, long operations with their
aborts, soft reset, and for every page what a write or a read of each of its registers does. -/

namespace Sys2Proof.Machine

/-! ### Instances of a page (R4, R5) -/

/-- Instances below a count, of a register block that starts at an offset with a stride. -/
def instAt (o off stride cnt : Nat) : Option Nat :=
  if off ≤ o ∧ o < off + stride * cnt then some ((o - off) / stride) else none

/-- Does the register at an offset of a present page belong to an instance the member lacks (R5)? -/
def instAbsent (p : Part) (pg o : Nat) : Bool :=
  if pg = 0x0B then
    match instAt o 0x060 4 32 with
    | some k => decide (nPhases p ≤ 8 + k % 8)
    | none => false
  else if pg = 0x0C then
    match instAt o 0x040 4 40 with
    | some k => decide (nLoops p ≤ k % 4)
    | none =>
      match instAt o 0x100 4 4 with
      | some x => decide (nLoops p ≤ x)
      | none => false
  else if pg = 0x03 then
    match instAt o 0x040 4 72 with
    | some k => !chainPresent p (k % 24)
    | none =>
      match instAt o 0x260 4 16 with
      | some k => decide (nPhases p ≤ k)
      | none => decide (0x2A0 ≤ o) && decide (o < 0x2E0) && !isFull p
  else if pg = 0x05 then
    match instAt o 0x070 4 72 with
    | some k => !chainPresent p (k % 24)
    | none => false
  else if pg = 0x30 then
    match instAt o 0x080 4 24 with
    | some k => !bit (depSources p) k
    | none => false
  else if pg = 0x31 then (instAt o 0x240 4 8).isSome && !isFull p
  else if pg = 0x1E then
    match instAt o 0x080 4 12 with
    | some n => decide (nDomains p ≤ n)
    | none => false
  else if pg = 0x1F then
    match instAt o 0x080 4 4 with
    | some x => decide (nLoops p ≤ x)
    | none => false
  else false

/-- CAPS of a page (R4 and the page chapters). -/
def capsOf (p : Part) (pg : Nat) : Nat :=
  let chains := if p = .sv6412 then 0xFFFF else if p = .sv6408 then 0xF0FF else 0xF00F
  if pg = 0x03 ∨ pg = 0x05 then chains + (if pg = 0x03 then 65536 * b2n (isFull p) else 0)
  else if pg = 0x04 then chains + (if isFull p then 0x1FF0000 else 0x1000000)
  else if pg = 0x0A then 0xFF
  else if pg = 0x0B then (if isFull p then 0xFF else 0x0F)
  else if pg = 0x0C then (2 ^ nPhases p - 1) + (if nLoops p = 4 then 0xF0000 else 0x30000)
  else if 0x0D ≤ pg ∧ pg ≤ 0x0F then 0x1000F
  else if 0x10 ≤ pg ∧ pg ≤ 0x17 then 0x30001
  else if pg = 0x18 then 0xFF
  else if pg = 0x23 then 0x10001
  else if 0x28 ≤ pg ∧ pg ≤ 0x2F then
    1 + (if isFull p then 0xF0000 else 0xB0000) + (if nLoops p = 4 then 0xF00000 else 0x300000)
  else if pg = 0x30 then depSources p
  else if pg = 0x31 then 1 + 65536 * b2n (isFull p)
  else 1

/-- First page of the family of a page (R32). -/
def familyPage (pg : Nat) : Nat :=
  if 0x06 ≤ pg ∧ pg ≤ 0x09 then 0x06 else if pg = 0x0B then 0x0A else if 0x0D ≤ pg ∧ pg ≤ 0x0F then 0x0D
  else if 0x10 ≤ pg ∧ pg ≤ 0x17 then 0x10 else if 0x19 ≤ pg ∧ pg ≤ 0x1C then 0x19
  else if 0x28 ≤ pg ∧ pg ≤ 0x2F then 0x28 else if pg = 0x33 then 0x32 else pg

/-- ID of a present page (R32). -/
def idOf (pg : Nat) : Nat := (0x5300 + familyPage pg) * 65536 + (pg - familyPage pg) * 256 + 0x10

/-- Bits that a page's IRQ_RAW carries; those above are reserved. -/
def irqBits (pg : Nat) : Nat :=
  if pg = 0x00 then 9 else if pg = 0x02 then 13 else if pg = 0x03 ∨ pg = 0x05 then 6 else if pg = 0x04 then 8
  else if 0x06 ≤ pg ∧ pg ≤ 0x09 then 13 else if pg = 0x0C then 11 else if 0x0D ≤ pg ∧ pg ≤ 0x0F then 12
  else if 0x10 ≤ pg ∧ pg ≤ 0x17 then 11 else if 0x19 ≤ pg ∧ pg ≤ 0x1C then 14 else if pg = 0x1D then 5
  else if pg = 0x1E then 8 else if pg = 0x1F then 9 else if pg = 0x20 then 8 else if pg = 0x21 then 7
  else if pg = 0x22 then 9 else if pg = 0x23 then 10 else if pg = 0x24 ∨ pg = 0x25 then 7 else if pg = 0x26 then 8
  else if pg = 0x27 then 5 else if 0x28 ≤ pg ∧ pg ≤ 0x2F then 8 else if pg = 0x30 then 7 else if pg = 0x31 then 5
  else if pg = 0x34 then 5 else if pg = 0x35 then 9 else if pg = 0x38 then 8 else 4

/-- The block bits STATUS[31:16] of a page. -/
def Chip.statusBlk (m : Chip) (pg : Nat) : Nat :=
  if pg = 0x01 then m.bootPhase
  else if pg = 0x02 then m.ttb
  else if pg = 0x05 then b2n m.cal.round
  else if 0x06 ≤ pg ∧ pg ≤ 0x09 then m.mode (pg - 0x06)
  else if 0x0D ≤ pg ∧ pg ≤ 0x0F then
    (List.range 4).foldl (fun n j =>
      let st := m.dst (4 * (pg - 0x0D) + j)
      if st = dmOn then setBit n j
      else if st = dmRetry ∨ st = dmLatched ∨ st = dmDamaged then setBit n (4 + j) else n) 0
  else if 0x10 ≤ pg ∧ pg ≤ 0x17 then m.tc (pg - 0x10)
  else if 0x19 ≤ pg ∧ pg ≤ 0x1C then m.get pg BAT_STAT_SVC
  else if pg = 0x1D then m.get pg SHR_STAT_STATE
  else if pg = 0x1E then m.get pg CAP_STAT_STEP
  else if pg = 0x1F then m.get pg HLD_STAT_STATE
  else if pg = 0x20 then m.get pg SEQ_STAT_STATE
  else if pg = 0x22 then m.get pg THM_STAT_LEVEL
  else if pg = 0x23 then m.nvState + 8 * b2n m.nvPermitted
  else if pg = 0x24 then b2n (m.has pg REC_STAT_FULL)
  else if pg = 0x25 then m.get pg BBX_STAT_STATE
  else if pg = 0x27 then b2n (m.ecc.started || (m.opOf pg).any (fun o => o.cmd == 1))
  else if 0x28 ≤ pg ∧ pg ≤ 0x2F then m.get pg ENG_STAT_STATE
  else if pg = 0x30 then m.dep.total
  else if pg = 0x35 then m.get pg PAIR_STAT_ROLE
  else 0

/-! ### Per-requester registers -/

/-- Registers of which each requester has its own copy. -/
def perRequester (pg o : Nat) : Bool :=
  (pg == 0x04 && (o == 0x048 || o == 0x090)) || (pg == 0x23 && o == 0x094) || (pg == 0x27 && o == 0x058) ||
  (pg == 0x24 && (o == 0x060 || (decide (0x094 ≤ o) && decide (o < 0x0A4)))) ||
  (pg == 0x30 && (o == 0x040 || o == 0x054 || o == 0x058)) || (pg == 0x34 && o == 0x040)

/-! ### Enables, aborts and soft reset -/

/-- CTRL.ENABLE of a page is written (R33). -/
def Chip.enableWrite (m : Chip) (pg : Nat) (en : Bool) : Chip :=
  if alwaysEnabled pg then m
  else if pg = 0x02 then m.ttbEnable en
  else if 0x06 ≤ pg ∧ pg ≤ 0x09 then m.marEnable (pg - 0x06) en
  else if 0x0D ≤ pg ∧ pg ≤ 0x0F then m.domPageEnable (pg - 0x0D) en
  else if 0x10 ≤ pg ∧ pg ≤ 0x17 then m.portEnable (pg - 0x10) en
  else if 0x19 ≤ pg ∧ pg ≤ 0x1C then m.batEnable (pg - 0x19) en
  else if pg = 0x1E then m.capEnable en
  else if pg = 0x1F then m.huEnable en
  else if pg = 0x20 then m.seqEnable en
  else if pg = 0x24 then m.recEnable en
  else if pg = 0x25 then m.bbxEnable en
  else if 0x28 ≤ pg ∧ pg ≤ 0x2F then m.engEnable (Fin.ofNat 8 (pg - 0x28)) en
  else m.putB pg HDR_CTRL_ENABLE en

/-- The running operation of a page is aborted (R37): the page's chapter says what it leaves. DEDUCED, unsafe (log
25). -/
def Chip.abortOp (m : Chip) (pg : Nat) : Chip :=
  match m.opOf pg with
  | none => m
  | some o =>
    let prog := m.get pg HDR_STATUS_PROGRESS
    if pg = 0x05 then m.calOpStop.endErr pg 0x05 prog
    else if 0x19 ≤ pg ∧ pg ≤ 0x1C then m.batAbort (pg - 0x19)
    else if pg = 0x1F then m.huAbort
    else if pg = 0x23 then m.nvAbort
    else if pg = 0x24 then m.recAbort
    else if 0x28 ≤ pg ∧ pg ≤ 0x2F then m.engAbort (Fin.ofNat 8 (pg - 0x28)) o
    else if pg = 0x32 ∨ pg = 0x33 then m.pmAbort (pg - 0x32)
    else m.endErr pg 0x05 prog

/-- Fields that keep their value through SOFTRST: the latches of R34, and fields that show what a unit keeps outside
its registers. DEDUCED, unsafe (log 22). -/
def softKeep (pg : Nat) : List Fld :=
  if pg = 0x02 then [TTB_FREQ_FREQ]
  else if pg = 0x04 then [MET_SNAPSTAT_FREEA, MET_SNAPSTAT_FREEB, MET_SNAPSTAT_LATEST]
  else if pg = 0x0A ∨ pg = 0x0B then [PWM_PHST_OPNCNT]
  else if pg = 0x0C then
    [PHM_REMOV_SENSE, PHM_REMOV_OPEN, PHM_OPNLAT_LATCHED, PHM_OVSTAT_PRESENT, PHM_OVSTAT_ANALOG, PHM_OVSTAT_LATCH,
     PHM_ACT_ASSIGNED, PHM_ACT_ACTIVE, PHM_VSEL_VALID, PHM_VSEL_N, PHM_SETA_VALID, PHM_SETA_X, PHM_SETP_VALID, PHM_SETP_X]
  else if 0x0D ≤ pg ∧ pg ≤ 0x0F then
    [DOM_PRS_PRES, DOM_ST_STATE, DOM_ST_CAUSE, DOM_ST_LATCHED, DOM_ST_DAMAGED, DOM_ST_DMGC]
  else if 0x10 ≤ pg ∧ pg ≤ 0x17 then
    [PD_TCSTAT_STATE, PD_GSTAT_GSTATE, PD_GSTAT_CAUSE, PD_GSTAT_LATCHED, PD_GSTAT_DAMAGED, PD_GSTAT_VCFLT]
  else if 0x19 ≤ pg ∧ pg ≤ 0x1C then [BAT_STAT_LPEND, BAT_QPEND_Q]
  else if pg = 0x21 then [SUP_FUV_MASK, SUP_FOV_MASK, SUP_ENOUT_MASK]
  else if pg = 0x22 then
    [THM_TEMP_T, THM_STAT_RATEARM, THM_STAT_RATEHI, THM_STAT_SNSFLT, THM_STAT_NVMOK, THM_STAT_WARN, THM_STAT_LEVEL]
  else if pg = 0x23 then
    [NVM_STAT_LOSTPG, NVM_STAT_CLEAN, NVM_STAT_INHTHM, NVM_STAT_INHVIN, NVM_VIN_V, NVM_RCSTAT_INTR, NVM_RCSTAT_PAGE,
     NVM_RCSTAT_DONE, NVM_RCSTAT_UNC, NVM_CPSTAT_BUSY]
  else if pg = 0x24 then
    [REC_STAT_FULL, REC_STAT_NOREG, REC_STAT_HDRNEW, REC_STAT_STARTED, REC_STAT_NREC, REC_CAPN_CAPN, REC_PCC_PCC]
  else if pg = 0x25 then [BBX_STAT_STATE, BBX_STAT_NOREG, BBX_STAT_NSLOT, BBX_STAT_VALID, BBX_LAST_SEQ, BBX_LAST_SLOT]
  else if pg = 0x27 then [SCB_SOFTST_SMBAD, SCB_SOFTST_COUNT]
  else if pg = 0x35 then
    [PAIR_STAT_ROLE, PAIR_STAT_LINK, PAIR_STAT_HBOK, PAIR_STAT_MVALID, PAIR_STAT_PMSI, PAIR_STAT_POS, PAIR_STAT_MCNT,
     PAIR_STAT_PMCNT, PAIR_HEALTH_PARTNER, PAIR_HEALTH_OWN, PAIR_PUIDLO_UID, PAIR_PUIDHI_UID]
  else if pg = 0x38 then [OVL_MODE_MODE]
  else []

/-- Every register of a page returns to its reset value, but for the fields that SOFTRST keeps. DEDUCED, unsafe (log
22). -/
def Chip.resetRegs (m : Chip) (pg : Nat) : Chip :=
  (softKeep pg).foldl (fun m' f => (List.range f.cnt).foldl (fun m' i => m'.put pg f (m.get pg f i) i) m') (m.resetPage pg)

/-- What a unit stops at once when its page is reset. DEDUCED, unsafe (log 23). -/
def Chip.softStop (m : Chip) (pg : Nat) : Chip :=
  if 0x06 ≤ pg ∧ pg ≤ 0x09 then
    let x := pg - 0x06
    let m := if m.mode x = mdOff then m else m.marOff x
    (m.maskClr 0x1F HLD_STAT_OWNED x).modLoop x (fun _ => {})
  else if pg = 0x1D then m.shStop
  else if pg = 0x20 then m.seqStop
  else if 0x28 ≤ pg ∧ pg ≤ 0x2F then m.engStop (Fin.ofNat 8 (pg - 0x28))
  else if pg = 0x1F then { m.huEnable false with hld := {} }
  else if pg = 0x32 ∨ pg = 0x33 then m.pmDetach (pg - 0x32)
  else if pg = 0x38 then { m with ovl := {} }
  else m.enableWrite pg false

/-- What follows the reset of a page's registers in the unit: phases whose assignment ended, the flags of LIVEST, the
gains, the levels of domains, the error counts of a port, the set-point inputs and the period of OFF loops, the slots
of the black box, the log, the walk of the scrubber. DEDUCED, unsafe (log 23). -/
def Chip.softAfter (m : Chip) (pg : Nat) : Chip :=
  if pg = 0x0A ∨ pg = 0x0B then
    let ks := (List.range 8).map (fun j => 8 * (pg - 0x0A) + j)
    (ks.foldl (fun m k =>
      (List.range 4).foldl (fun m x => m.maskClr 0x0C PHM_ACT_ACTIVE k x) (m.trimZero k)) m).actAssigned
  else if 0x06 ≤ pg ∧ pg ≤ 0x09 then m.unitWrite 0x13 (fun n => n / 96 == pg - 0x06)
  else if pg = 0x0C then m.phmForget
  else if pg = 0x04 then { m with met := { m.met with chans := m.met.chans.map (fun (x : MetCh) =>
      { x with wrapC := false, wrapE := false, bad := false }) } }
  else if pg = 0x05 then { m with cal := { out := m.cal.out } }
  else if 0x19 ≤ pg ∧ pg ≤ 0x1C then m.modBat (pg - 0x19) (fun b => { b with capSet := false })
  else if pg = 0x32 ∨ pg = 0x33 then m.pmClear (pg - 0x32)
  else if 0x0D ≤ pg ∧ pg ≤ 0x0F then
    (List.range 4).foldl (fun m j => m.modDm (4 * (pg - 0x0D) + j) (fun d =>
      { d with lev := m.domRegLevels (4 * (pg - 0x0D) + j), levWait := false })) m
  else if pg = 0x25 then m.bbxGeometry false
  else if pg = 0x26 then { m with ecc := { m.ecc with fullTold := false } }
  else if pg = 0x27 then
    { m with ecc := { m.ecc with started := false, ce := 0, ue := 0, opArray := 0, opWord := 0, opWords := 0, opCe := 0,
                                 opUe := 0, opSkip := 0 } }
  else if pg = 0x1E then { m with cap := { m.cap with grid := 0, recv := 0 } }
  else m

/-- SOFTRST of a page (R34). DEDUCED, unsafe (log 21); DEDUCED, unsafe (log 23). -/
def Chip.pageReset (m : Chip) (pg : Nat) : Chip :=
  if pg = 0x00 ∨ pg = 0x01 ∨ pg = 0x36 ∨ pg = 0x37 ∨ pg = 0x3F then m
  else if 0x06 ≤ pg ∧ pg ≤ 0x09 ∧ m.owner (pg - 0x06) ≠ 0 then m.marRefuse (pg - 0x06) 0x08
  else ((((m.softStop pg).abortOp pg).dropOp pg).resetRegs pg |>.dropParts pg).softAfter pg

/-- A write of CTRL (R33, R34, R43). DEDUCED, unsafe (log 21). -/
def Chip.ctrlWrite (m : Chip) (r pg v : Nat) : Chip :=
  if bit v 1 then
    if m.unlockedFor r pg then m.pageReset pg else (m.enableWrite pg (bit v 0)).lockErr
  else m.enableWrite pg (bit v 0)

/-! ### Long operations -/

/-- The unit of a page takes an accepted command. -/
def Chip.opStart (m : Chip) (pg : Nat) : Chip :=
  if pg = 0x04 then m.metStart
  else if pg = 0x05 then m.calStart
  else if 0x06 ≤ pg ∧ pg ≤ 0x09 then m.marStart (pg - 0x06)
  else if 0x19 ≤ pg ∧ pg ≤ 0x1C then m.batOpStart (pg - 0x19)
  else if pg = 0x1F then m.huOpStart
  else if pg = 0x23 then m.nvOpStart
  else if pg = 0x24 then m.recOpStart
  else if pg = 0x25 then m.bbxOpStart
  else if pg = 0x26 then m.eccOpStart
  else if pg = 0x27 then m.scbOpStart
  else if 0x28 ≤ pg ∧ pg ≤ 0x2F then m.engOpStart (Fin.ofNat 8 (pg - 0x28))
  else if pg = 0x30 then m.depFlush
  else if pg = 0x32 ∨ pg = 0x33 then m.pmRaw (pg - 0x32)
  else if pg = 0x35 then m.pairOpStart
  else m

/-- A write of OPCMD (R35–R37). DEDUCED, unsafe (log 25). -/
def Chip.opcmdWrite (m : Chip) (r pg v : Nat) : Chip :=
  if v = 0 then (if m.busy pg then m.abortOp pg else m) else m.startOp pg v r (fun m => m.opStart pg)

/-- A long operation that only needs time reaches its end (R38): a clear of the recorder, a word cleared by the
integrity page, a soft spare that waited, a program load. Every other operation ends with the event its unit waits
for. -/
def Chip.opEnd (m : Chip) (pg : Nat) : Chip :=
  match m.opOf pg with
  | none => m
  | some o =>
    if pg = 0x24 then m.recOpEnd o
    else if pg = 0x26 ∧ o.cmd = 2 then m.eccClear o
    else if pg = 0x27 ∧ o.cmd = 2 then m.softAdd o
    else if 0x28 ≤ pg ∧ pg ≤ 0x2F then m.engLoadEnd (Fin.ofNat 8 (pg - 0x28)) o
    else m

/-! ### The header (R33) -/

/-- A write of a header register. -/
def Chip.hdrWrite (m : Chip) (r pg o v : Nat) : Chip :=
  if o = 0x08 then m.ctrlWrite r pg v
  else if o = 0x10 then m.plainWrite r (pg * 0x400 + 0x10) v
  else if o = 0x14 then m.plainWrite r (pg * 0x400 + 0x14) (v % 2 ^ irqBits pg)
  else if o = 0x1C then m.keyWrite r pg v
  else if o = 0x20 ∧ hasOps pg then m.opcmdWrite r pg v
  else if o = 0x24 ∧ hasOps pg then m.plainWrite r (pg * 0x400 + 0x24) v
  else m

/-- A shadowed register: the requester's copy, or the live value while it holds none. -/
def Chip.shadowed (m : Chip) (r addr live : Nat) : Nat :=
  match m.shadowOf r addr with
  | some v => v.toNat
  | none => live

/-- What a look at STATUS finds of an operation that only needs time: how far it has come by now (R33, R376, R464). -/
def Chip.glance (m : Chip) (pg : Nat) : Chip :=
  if pg = 0x24 then m.recGlance else if 0x28 ≤ pg ∧ pg ≤ 0x2F then m.engGlance (Fin.ofNat 8 (pg - 0x28)) else m

/-- A read of a header register. -/
def Chip.hdrRead (m : Chip) (r pg o : Nat) : Nat × Chip :=
  let a := pg * 0x400 + o
  if o = 0x00 then (idOf pg, m)
  else if o = 0x04 then (capsOf m.die.part pg, m)
  else if o = 0x0C then
    let m := m.glance pg
    ((m.rd a).toNat % 65536 + m.statusBlk pg * 65536, m)
  else if o = 0x18 then (m.get pg HDR_IRQ_RAW_BITS &&& m.get pg HDR_IRQ_EN_BITS, m)
  else if o = 0x1C then (m.keyRead r pg, m)
  else if o < 0x20 then ((m.rd a).toNat, m)
  else if !hasOps pg then (0, m)
  else if o = 0x28 then ((m.rd a).toNat, m.partShadow r pg)
  else if 0x2C ≤ o then (m.shadowed r a (m.rd a).toNat, m)
  else ((m.rd a).toNat, m)

end Sys2Proof.Machine
end

