-- ==== Sys2Proof/Machine/Pages.lean ====
section
/-! DEFINITION. What a write and a read of each page's own registers do: registers with an effect or a view of their own
go to their unit; every other register is plain storage with the access types of its fields (R11, R43). -/

namespace Sys2Proof.Machine

/-! ### Writes -/

/-- A write of a register that each requester has its own copy of. -/
def Chip.ownWrite (m : Chip) (r pg o v : Nat) : Chip :=
  m.wr (reqKey r (pg * 0x400 + o)) (BitVec.ofNat 32 (v &&& accMask (fieldsAt pg o) .rw))

/-- The offset lies in a block of registers. -/
def inBlock (o off cnt : Nat) : Bool := decide (off ≤ o) && decide (o < off + 4 * cnt)

/-- A VSRC word with every code above 7 as 0 (R134). DEDUCED, unsafe (log 96). -/
def vsrcNorm (v : Nat) : Nat :=
  (List.range 8).foldl (fun a k => if 7 < bitsOf v (4 * k) 4 then a else a + bitsOf v (4 * k) 4 * 16 ^ k) 0

/-- MET: LIVEST acts on the selected channel; SNAPCTL and SNAPREL. -/
def Chip.metWrite (m : Chip) (r o v : Nat) : Chip :=
  if o = 0x070 then
    let c := m.metSel r
    if c < 25 then
      let x := m.metCh c
      m.setMet c { x with wrapC := x.wrapC && !bit v 0, wrapE := x.wrapE && !bit v 1, bad := x.bad && !bit v 3 }
    else m
  else if o = 0x080 then m.snapctlWrite v
  else if o = 0x08C then m.snaprelWrite v
  else if o = 0x040 ∨ o = 0x044 then m.plainWrite r (4 * 0x400 + o) (vsrcNorm v)
  else m.plainWrite r (4 * 0x400 + o) v

/-- Is the code that of a precision chain the member lacks (R8)? -/
def chainAbsent (p : Part) (c : Nat) : Bool := decide (c < 24) && !chainPresent p c

/-- MARx. Bits 4m + 3 of RMAPn are reserved (R167); a TRIM write that names an absent chain is refused (R8). DEDUCED,
unsafe (log 123). -/
def Chip.marWrite (m : Chip) (r x o v : Nat) : Chip :=
  if o = 0x040 then m.marCfgWrite r x v
  else if o = 0x0C0 ∧ m.unlockedFor r (marPg x) ∧ chainAbsent m.die.part (bitsOf v 24 5) then m.marRefuse x 0x0C0
  else if o = 0x044 then m.modecmdWrite x v
  else if o = 0x04C then m.spregWrite x v
  else if o = 0x088 then m.mdutyWrite x v
  else if o = 0x0C4 then m.trimtgtWrite x v
  else if o = 0x0CC then m.schctlWrite x v
  else if 0x200 ≤ o then m.rfWrite x ((o - 0x200) / 4) v
  else if 0x100 ≤ o then
    m.unitPut 0x13 (fun n => n == 96 * x + (o - 0x100) / 8) (fun m => m.plainWrite r (marPg x * 0x400 + o) v)
  else if inBlock o 0x0A8 4 then m.plainWrite r (marPg x * 0x400 + o) (v &&& 0x77777777)
  else m.plainWrite r (marPg x * 0x400 + o) v

/-- PHM. A LIM write that names an absent chain is refused (R8). DEDUCED, unsafe (log 123). -/
def Chip.phmWrite (m : Chip) (r o v : Nat) : Chip :=
  if inBlock o 0x040 4 then m.lperWrite r ((o - 0x040) / 4) v
  else if o = 0x0E8 then m.phclrWrite r v
  else if o = 0x0F0 then m.ovclrWrite r v
  else if inBlock o 0x0B0 4 ∧ m.unlockedFor r 0x0C ∧ chainAbsent m.die.part (v % 32) then m.phRefuse 0x0C o r
  else
    let un := m.unlockedFor r 0x0C
    let m := m.plainWrite r (0x0C * 0x400 + o) v
    let m := if inBlock o 0x050 8 then m.adshCheck (o / 4 % 4) else m
    if un && (inBlock o 0x050 12 || inBlock o 0x090 8) then m.phRestart (o / 4 % 4)
    else if un && inBlock o 0x100 4 then m.ovConfig
    else m

/-- A domain page. -/
def Chip.domWrite (m : Chip) (r p o v : Nat) : Chip :=
  let pg := 0x0D + p
  if o = 0x040 then m.dclrWrite r p v
  else if 0x100 ≤ o then
    let n := 4 * p + (o - 0x100) / 64
    let k := o % 64
    if k = 0x00 then m.gctlWrite r n v
    else if k = 0x08 then m.domLevelWrite r n 0 v
    else if k = 0x0C then m.domLevelWrite r n 1 v
    else if k = 0x10 then m.domLevelWrite r n 2 v
    else m.plainWrite r (pg * 0x400 + o) v
  else m.plainWrite r (pg * 0x400 + o) v

/-- A port page. -/
def Chip.pdWrite (m : Chip) (r n o v : Nat) : Chip :=
  if o = 0x06C then m.pdClrWrite r n v
  else if o = 0x07C then m.pevtWrite r n v
  else if o = 0x080 then m.pevtenWrite r n v
  else if o = 0x098 then m.txctlWrite n v
  else if o = 0x0A0 then
    let m := m.plainWrite r (pdPg n * 0x400 + o) v
    if bit v 31 then m.rxPop n else m
  else m.plainWrite r (pdPg n * 0x400 + o) v

/-- A battery page. The controller alone writes PACKT and PACKV of a pack context on BUS 1 or 2 (R300). -/
def Chip.batWrite (m : Chip) (r s o v : Nat) : Chip :=
  let bus := (m.ctx (m.bg BAT_CFG_PMSCTX s)).bus
  if o = 0x04C then m.batSvcReq s (v % 4)
  else if (o = 0x0AC ∨ o = 0x0B0) ∧ m.bg BAT_CFG_PMSCTX s ≠ 0 ∧ (bus = 1 ∨ bus = 2) then m
  else if o < 0x0AC ∨ o = 0x0F4 then m.batCfgWrite r (batPg s * 0x400 + o) v
  else m.plainWrite r (batPg s * 0x400 + o) v

/-- SUP. DEDUCED, unsafe (log 54). -/
def Chip.supWrite (m : Chip) (r o v : Nat) : Chip :=
  if o = 0x1DC then
    if !isHost r then m.irq 0x21 6
    else if m.unlockedFor r 0x21 then m.railClear r v m.railCodes else m.plainWrite r (0x21 * 0x400 + o) v
  else if o < 0x160 then m.supCfgWrite r (0x21 * 0x400 + o) v
  else m.plainWrite r (0x21 * 0x400 + o) v

/-- NVM; RECBUF writes are dropped while BUSY = 1 (R422). -/
def Chip.nvmWrite (m : Chip) (r o v : Nat) : Chip :=
  if o = 0x040 then (if m.unlockedFor r 0x23 then m.nvCfgWrite v else m.plainWrite r (0x23 * 0x400 + o) v)
  else if o = 0x098 then m.pwdWrite r v
  else if o = 0x0A0 then { m with nv := { m.nv with pwNew := v } }
  else if o = 0x0B0 then (if bit v 31 then m.cpGo (v % 2048) else m)
  else if inBlock o 0x200 60 && m.busy 0x23 then m
  else m.plainWrite r (0x23 * 0x400 + o) v

/-- BBX. -/
def Chip.bbxWrite (m : Chip) (r o v : Nat) : Chip :=
  let plain := m.plainWrite r (0x25 * 0x400 + o) v
  if o = 0x040 then (if m.unlockedFor r 0x25 then m.bbxCfgWrite v else plain)
  else if o = 0x044 then (if bit v 0 then m.bbxTrigger 0xFF m.stamp m.tim.tick else m)
  else if o = 0x050 then m.bbxRelease r (v % 256)
  else if inBlock o 0x060 16 then (if m.unlockedFor r 0x25 then m.bbxChcfg ((o - 0x060) / 4) v else plain)
  else plain

/-- The bits of a route word that belong to lines: those of reserved lines read 0 (R399). -/
def routeMask (k : Nat) : Nat :=
  (List.range 32).foldl (fun n b => if lineReserved (32 * k + b) then n else setBit n b) 0

/-- ENGx. -/
def Chip.engWrite (m : Chip) (r : Nat) (x : Fin 8) (o v : Nat) : Chip :=
  let a := engPg x * 0x400 + o
  if o = 0x048 ∨ o = 0x140 ∨ inBlock o 0x100 16 then m.engRegWrite r x a v
  else if o = 0x05C then m.pdataWrite r x v
  else if o = 0x064 then m.ddataWrite r x v
  else m.plainWrite r a v

/-- CAP. A BATMAP write that names an absent loop is refused, which CFGERR reports (R8). DEDUCED, unsafe (log 123). -/
def Chip.capWrite (m : Chip) (r o v : Nat) : Chip :=
  if o = 0x04C ∧ m.unlockedFor r 0x1E ∧ (v % 16 ≥ 2 ^ nLoops m.die.part ∨ (bit v 14 ∧ nLoops m.die.part ≤ bitsOf v 12 2)) then
    m.put 0x1E CAP_STAT_CFGERR 1
  else m.plainWrite r (0x1E * 0x400 + o) v

/-- CTX. -/
def Chip.ctxWrite (m : Chip) (r o v : Nat) : Chip :=
  if o = 0x044 then m.entry0Write r v else m.plainWrite r (0x34 * 0x400 + o) v

/-- The unit of a page takes a write of one of its registers; one at an offset without a register is dropped (R30). The
bits of HLD.CFG.HLOOPS of absent loops stay 0 (R231). -/
def Chip.blockWrite (m : Chip) (r pg o v : Nat) : Chip :=
  let plain := m.plainWrite r (pg * 0x400 + o) v
  if (fieldsAt pg o).isEmpty then m
  else if perRequester pg o then m.ownWrite r pg o v
  else if pg = 0x00 then
    (if o = 0x078 then m.swrstWrite r v else plain)
  else if pg = 0x02 then
    (if o = 0x048 then (if m.unlockedFor r 2 then m.nomfWrite v else plain)
    else if o = 0x070 then (if m.unlockedFor r 2 then m.cycadjWrite v else plain) else plain)
  else if pg = 0x04 then m.metWrite r o v
  else if 0x06 ≤ pg ∧ pg ≤ 0x09 then m.marWrite r (pg - 0x06) o v
  else if pg = 0x0A ∨ pg = 0x0B then
    (if inBlock o 0x060 8 then m.phcfgWrite r (8 * (pg - 0x0A) + (o - 0x060) / 4) v else plain)
  else if pg = 0x0C then m.phmWrite r o v
  else if 0x0D ≤ pg ∧ pg ≤ 0x0F then m.domWrite r (pg - 0x0D) o v
  else if 0x10 ≤ pg ∧ pg ≤ 0x17 then m.pdWrite r (pg - 0x10) o v
  else if 0x19 ≤ pg ∧ pg ≤ 0x1C then m.batWrite r (pg - 0x19) o v
  else if pg = 0x1E then m.capWrite r o v
  else if pg = 0x1F then
    (if o = 0x040 then m.plainWrite r (0x1F * 0x400 + o) (v - v % 16 + v % 2 ^ nLoops m.die.part) else plain)
  else if pg = 0x20 then
    (if o = 0x048 then m.seqCmd v
    else if 0x080 ≤ o ∧ m.unlockedFor r 0x20 then m.seqStepWrite (0x20 * 0x400 + o) v else plain)
  else if pg = 0x21 then m.supWrite r o v
  else if pg = 0x22 then (if o = 0x040 then m.thmLvlWrite r v else plain)
  else if pg = 0x23 then m.nvmWrite r o v
  else if pg = 0x24 then (if o = 0x0A4 then m.putCode r v else plain)
  else if pg = 0x25 then m.bbxWrite r o v
  else if 0x28 ≤ pg ∧ pg ≤ 0x2F then m.engWrite r (Fin.ofNat 8 (pg - 0x28)) o v
  else if pg = 0x30 then (if o = 0x05C then m.depPut r (v % 256) else plain)
  else if pg = 0x31 then
    (if o = 0x040 then m.hsevWrite v
    else if inBlock o 0x100 96 then m.plainWrite r (0x31 * 0x400 + o) (v &&& routeMask (o / 4 % 8)) else plain)
  else if pg = 0x34 then m.ctxWrite r o v
  else if pg = 0x35 then (if o = 0x040 then m.plainWrite r (0x35 * 0x400 + o) (pairCfg v) else plain)
  else if pg = 0x36 ∧ r ≠ 0 ∧ m.has 0x36 HIF_CFG_SPIEN ∧ !plain.has 0x36 HIF_CFG_SPIEN then
    { plain with host := { plain.host with spiHas := false } }
  else if pg = 0x38 then (if o = 0x044 then m.swctlWrite r v else plain)
  else plain

/-! ### Reads -/

/-- A word of fields. -/
def wordOf (fs : List (Fld × Nat)) : Nat := fs.foldl (fun n f => n + (f.2 % 2 ^ f.1.wd) * 2 ^ f.1.lo) 0

/-- The part number of a member (R2). -/
def partNum : Part → Nat
  | .sv6412 => 0x6412
  | .sv6408 => 0x6408
  | .sv6404 => 0x6404

/-- GLB. -/
def Chip.glbRead (m : Chip) (o plain : Nat) : Nat :=
  if o = 0x040 then partNum m.die.part * 65536 + 0x1000
  else if o = 0x044 then m.die.uid.toNat % 2 ^ 32
  else if o = 0x048 then m.die.uid.toNat / 2 ^ 32
  else if o = 0x060 then m.irqSum 0
  else if o = 0x064 then m.irqSum 1
  else plain

/-- TTB (R78). To a requester that has not read STMPC or TICKLO, STMPA and TICKHI return the live value. DESIGN
CHOICE, unsafe (log 109). -/
def Chip.ttbRead (m : Chip) (r o plain : Nat) : Nat × Chip :=
  let a := 2 * 0x400
  if o = 0x060 then (m.tim.cycle, m.setShadow r (a + 0x064) (BitVec.ofNat 32 m.stmpa))
  else if o = 0x064 then (m.shadowed r (a + 0x064) m.stmpa, m)
  else if o = 0x068 then
    (m.tim.tick % 2 ^ 32, m.setShadow r (a + 0x06C) (BitVec.ofNat 32 (m.tim.tick / 2 ^ 32)))
  else if o = 0x06C then (m.shadowed r (a + 0x06C) (m.tim.tick / 2 ^ 32), m)
  else (plain, m)

/-- MET (R126, R134). DEDUCED, safe (log 24). -/
def Chip.metRead (m : Chip) (r o plain : Nat) : Nat × Chip :=
  let c := m.metSel r
  let b := m.bank (m.metBank r)
  if o = 0x050 then
    let m := m.liveRead c
    (m.liveWord c 0, m.liveShadow r)
  else if inBlock o 0x054 7 then (m.shadowed r (4 * 0x400 + o) (m.liveWord c ((o - 0x050) / 4)), m)
  else if o = 0x070 then
    let x := m.metCh c
    (if c < 25 then b2n x.wrapC + 2 * b2n x.wrapE + 4 * b2n x.noScale + 8 * b2n x.bad else 4, m)
  else if inBlock o 0x094 8 then
    let m := m.snapRead (m.metBank r) c ((o - 0x094) / 4)
    (m.snapWord (m.metBank r) c ((o - 0x094) / 4), m)
  else if o = 0x0B4 then (b.stamp.cycle, m)
  else if o = 0x0B8 then
    (b.stamp.angle + b.stamp.flags * 65536 + b2n b.late * 2 ^ 19 + b2n b.defer * 2 ^ 20, m)
  else if o = 0x0BC then (b.tick % 2 ^ 32, m)
  else if o = 0x0C0 then (b.tick / 2 ^ 32 % 2 ^ 32, m)
  else (plain, m)

/-- A port page: the head of the receive queue (R296). -/
def Chip.pdRead (m : Chip) (n o plain : Nat) : Nat :=
  let q := (m.port n).rx
  if o = 0x048 then setBits plain 16 1 (b2n (m.frsArmed n))
  else
  match q.head? with
  | none => plain
  | some h =>
    if o = 0x0A0 then plain + b2n h.sopp * 16 + q.length
    else if o = 0x0A4 then h.stamp.cycle
    else if o = 0x0A8 then h.stamp.angle + h.stamp.flags * 65536
    else if o = 0x2C0 then h.ext * 65536 + h.hdr
    else if inBlock o 0x2C4 65 then (h.words[(o - 0x2C4) / 4]?).getD 0
    else plain

/-- PDC.SUM (R297). DEDUCED, unsafe (log 27). -/
def Chip.pdcSum (m : Chip) : Nat :=
  let mask := fun (f : Nat → Bool) => (List.range 8).foldl (fun n k => if f k then setBit n k else n) 0
  let att := mask (fun k => m.tc k == tcAttSnk || m.tc k == tcAttSrc)
  let contr := mask (fun k => decide (2 ≤ m.pf PD_TCSTAT_CONTR k))
  let src := mask (fun k => (m.tc k == tcAttSnk || m.tc k == tcAttSrc) && m.pf PD_TCSTAT_PROLE k == 1)
  let recov := mask (fun k => bit (m.ctx (m.port k).ctx).health 6 && (m.port k).ctx != 0)
  att + contr * 2 ^ 8 + src * 2 ^ 16 + recov * 2 ^ 24

/-- NVM (R406, R410, R432). -/
def Chip.nvmRead (m : Chip) (r o plain : Nat) : Nat :=
  let nv := m.nv
  if o = 0x044 then plain + (nv.slots.filter Option.isSome).length
  else if inBlock o 0x050 16 then
    match (nv.slots[(o - 0x050) / 4]?).getD none with
    | some s => 2 ^ 31 + s.page
    | none => 0
  else if o = 0x09C then m.pwst r
  else if inBlock o 0x0C0 9 then
    let k := (o - 0x0C0) / 4
    let g := if k = 8 then ⟨120, 7, 0⟩ else (nv.regions[k]?).getD {}
    wordOf [(NVM_REGION_BASE, g.base), (NVM_REGION_SIZE, g.size), (NVM_REGION_RPW, b2n (nv.pwdOf k false != 0)),
      (NVM_REGION_WPW, b2n (nv.pwdOf k true != 0)), (NVM_REGION_OWNER, g.owner)]
  else plain

/-- REC (R460, R463, R477). -/
def Chip.recRd (m : Chip) (r o plain : Nat) : Nat × Chip :=
  if o = 0x044 then (plain + m.rcd.queue.length * 65536, m)
  else if o = 0x04C then (m.opHours, m)
  else if o = 0x064 then m.rd0 r
  else if inBlock o 0x068 7 then (m.shadowed r (0x24 * 0x400 + o) 0, m)
  else (plain, m)

/-- ENGx (R375). -/
def Chip.engRead (m : Chip) (r : Nat) (x : Fin 8) (o plain : Nat) : Nat × Chip :=
  if o = 0x05C then m.pdataRead r x else if o = 0x064 then m.ddataRead r x else (plain, m)

/-- DEP (R394, R400). -/
def Chip.depRead (m : Chip) (r o plain : Nat) : Nat × Chip :=
  if o = 0x044 then (if r = 0 then m.spiCommit else m).depTake r
  else if inBlock o 0x048 3 then (m.shadowed r (0x30 * 0x400 + o) 0, m)
  else if o = 0x064 then (m.depNempty, m)
  else if inBlock o 0x110 3 then (m.depQcnt ((o - 0x110) / 4), m)
  else (plain, m)

/-- CTX: the selected context; SEL 0 shows zeros (R69). -/
def Chip.ctxRead (m : Chip) (r o plain : Nat) : Nat :=
  let c := m.ctxSel r
  let x := m.ctx c
  if inBlock o 0x044 4 ∧ c = 0 then 0
  else if o = 0x044 then x.miss % 16 * 2 ^ 28 + x.state * 2 ^ 24 + x.addr * 2 ^ 16 + x.bus * 2 ^ 8 + x.cls
  else if o = 0x048 then x.capshare * 2 ^ 16 + x.health
  else if o = 0x04C then x.stamp.cycle
  else if o = 0x050 then x.stamp.angle + x.stamp.flags * 2 ^ 16 + b2n x.radv * 2 ^ 19
  else if inBlock o 0x060 4 then
    let k := (o - 0x060) / 4
    (List.range 32).foldl (fun n b => if (m.ctx (32 * k + b)).state = 0 then n else setBit n b) 0
  else plain

/-- GPIO balls owned by rail enables (R516). -/
def Chip.pinOwn (m : Chip) : Nat :=
  (List.range 24).foldl (fun n k => if m.has 0x21 SUP_RCFG_ENEN k then setBit n (m.rg SUP_RCFG_GPIO k) else n) 0

/-- CAP: the words of R210 are read through the requester's shadow. -/
def Chip.capRead (m : Chip) (r o plain : Nat) : Nat × Chip :=
  let copy := fun (n off : Nat) => (List.range n).foldl (fun m' k =>
    let a := 0x1E * 0x400 + off + 4 * k
    m'.setShadow r a (m.rd a)) m
  if o = 0x0C0 then (plain, copy 13 0x0C0)
  else if inBlock o 0x0C4 12 then (m.shadowed r (0x1E * 0x400 + o) plain, m)
  else if o = 0x100 then (plain, copy 4 0x100)
  else if inBlock o 0x104 3 then (m.shadowed r (0x1E * 0x400 + o) plain, m)
  else (plain, m)

/-- The unit of a page answers a read of one of its registers. DESIGN CHOICE, safe (log 26). -/
def Chip.blockRead (m : Chip) (r pg o : Nat) : Nat × Chip :=
  let a := pg * 0x400 + o
  let plain := (m.rd a).toNat
  if (fieldsAt pg o).isEmpty ∧ !(pg = 0x30 ∧ inBlock o 0x048 3) then (0, m)
  else if perRequester pg o then ((m.rd (reqKey r a)).toNat, m)
  else if pg = 0x00 then (m.glbRead o plain, m)
  else if pg = 0x01 then (if o = 0x040 then plain + 8 * (m.die.straps.toNat / 16) else plain, m)
  else if pg = 0x02 then m.ttbRead r o plain
  else if pg = 0x04 then (if o = 0x088 then (plain, m.rsRead r a) else m.metRead r o plain)
  else if pg = 0x05 ∧ o = CAL_STAT_STALE.off then (m.staleMask, m)
  else if (pg = 0x0A ∨ pg = 0x0B) ∧ inBlock o 0x0A0 8 then
    (plain + m.phState (8 * (pg - 0x0A) + (o - 0x0A0) / 4), m)
  else if 0x06 ≤ pg ∧ pg ≤ 0x09 ∧ 0x100 ≤ o then
    let m := m.unitRead 0x13 (fun n => n == 96 * (pg - 0x06) + (o - 0x100) / 8)
    ((m.rd a).toNat, m)
  else if 0x10 ≤ pg ∧ pg ≤ 0x17 ∧ !(o = 0x094) then
    let m := if 0x2C0 ≤ o then m.unitRead 0x15 (fun n => n / 64 == pg - 0x10) else m
    (m.pdRead (pg - 0x10) o plain, m)
  else if pg = 0x18 ∧ o = 0x04C then (m.pdcSum, m)
  else if pg = 0x1E then m.capRead r o plain
  else if pg = 0x23 ∧ o ≠ 0x0A4 then (m.nvmRead r o plain, m)
  else if pg = 0x24 ∧ o ≠ 0x054 ∧ o ≠ 0x058 then m.recRd r o plain
  else if pg = 0x27 ∧ o = 0x05C then (m.spstat r, m)
  else if 0x28 ≤ pg ∧ pg ≤ 0x2F ∧ o ≠ 0x06C then m.engRead r (Fin.ofNat 8 (pg - 0x28)) o plain
  else if pg = 0x30 ∧ accMask (fieldsAt pg o) .rs = 0 then m.depRead r o plain
  else if pg = 0x31 ∧ inBlock o 0x0A0 8 then (m.levelWord ((o - 0x0A0) / 4), m)
  else if (pg = 0x32 ∨ pg = 0x33) ∧ o = 0x044 then
    let x := m.pm (pg - 0x32)
    ((Config.busStat x.cur.isSome x.stuck x.alertLow).toNat, m)
  else if (pg = 0x32 ∨ pg = 0x33) ∧ o = 0x048 then
    let x := m.pm (pg - 0x32)
    (if x.naks = 0 ∧ x.pecs = 0 ∧ x.tmos = 0 then 0 else (Config.errCnt x.naks x.pecs x.tmos).toNat, m.rsRead r a)
  else if pg = 0x34 then
    let m := m.ctxFetch (m.ctxSel r)
    (m.ctxRead r o plain, m)
  else if pg = 0x35 ∧ o = 0x060 then (m.mirAge, m)
  else if pg = 0x36 ∧ o = 0x044 then (0x58 + m.die.straps.toNat % 4, m)
  else if pg = 0x37 ∧ o = 0x040 then (m.die.straps.toNat, m)
  else if pg = 0x37 ∧ o = 0x054 then (m.pinOwn, m)
  else if accMask (fieldsAt pg o) .rs ≠ 0 then (plain, m.rsRead r a)
  else (plain, m)

end Sys2Proof.Machine
end

