-- ==== Sys2Proof/Machine/Bus.lean ====
section
/-! DEFINITION. An access by address (R28–R30), and the interfaces that carry accesses from outside: SPI (R49–R55), I²C
(R56–R60) and the debug UART (R61); with the register rows of the command table that have no unit of their own. -/

namespace Sys2Proof.Machine

/-! ### Access by address -/

/-- What a read gives: its value, whether the access was refused, whether the data is not ready. -/
structure BusRead where
  value : Nat
  refused : Bool
  notReady : Bool
  chip : Chip

/-- Does the address lie in the NVM window (R28)? -/
def inNvm (addr : Nat) : Bool := decide (0x100000 ≤ addr) && decide (addr < 0x180000)

/-- Does the address lie in the window of the shared engine RAM (R28)? -/
def inShared (addr : Nat) : Bool := decide (0x200000 ≤ addr) && decide (addr < 0x210000)

/-- Array number of the shared engine RAM (R434). -/
def sharedArr : Nat := 0x10

/-- A read of a present page. -/
def Chip.pageRead (m : Chip) (r pg o : Nat) : Nat × Chip :=
  if pg = 0x3F then (if o = 0 then idOf 0x3F else if o = 4 then 1 else 0, m)
  else if o < 0x40 then m.hdrRead r pg o else m.blockRead r pg o

/-- A write of a present page. -/
def Chip.pageWrite (m : Chip) (r pg o v : Nat) : Chip :=
  if pg = 0x3F then m else if o < 0x40 then m.hdrWrite r pg o v else m.blockWrite r pg o v

/-- Is the register's page or instance absent (R3, R5)? -/
def Chip.regAbsent (m : Chip) (addr : Nat) : Bool :=
  pageAbsent m.die.part (addr / 0x400) || instAbsent m.die.part (addr / 0x400) (addr % 0x400)

/-- A read by a requester of the word at an aligned address (R28–R30). -/
def Chip.busRead (m : Chip) (r addr : Nat) : BusRead :=
  if addr < 0x10000 then
    if m.regAbsent addr then ⟨0, true, false, m.absentHit r (addr / 0x400)⟩
    else
      let x := m.pageRead r (addr / 0x400) (addr % 0x400)
      ⟨x.1 % 2 ^ 32, false, false, x.2⟩
  else if inNvm addr then
    match m.nvRead r (addr - 0x100000) with
    | (.value v, m) => ⟨v, false, false, m⟩
    | (.refused, m) => ⟨0, true, false, m⟩
    | (.notReady, m) => ⟨0, false, true, m⟩
  else if inShared addr then
    let x := m.ramRead r sharedArr ((addr - 0x200000) / 4)
    ⟨x.1, false, false, x.2⟩
  else ⟨0, true, false, m.decodeErr⟩

/-- Is a write of a word an RWL write: the register has such bits, or CTRL.SOFTRST is written 1 (R11, R33)? -/
def rwlWrite (pg o v : Nat) : Bool :=
  let fs := fieldsAt pg o
  accMask fs .rwl != 0 || accMask fs .wol != 0 || (o == 0x008 && bit v 1)

/-- A write of a register, and whether it met a locked page (R43). -/
def Chip.regWrite (m : Chip) (r addr v : Nat) : Bool × Chip :=
  let pg := addr / 0x400
  let o := addr % 0x400
  let m := if rwlWrite pg o v then m.rwlSeen r pg else m
  if addr = GLB_ERRS_LOCKWR.addr 0 then (false, m.pageWrite r pg o v)
  else
    let was := m.has 0 GLB_ERRS_LOCKWR
    let m := (m.put 0 GLB_ERRS_LOCKWR 0).pageWrite r pg o v
    if m.held then (false, m)
    else
      let met := m.has 0 GLB_ERRS_LOCKWR
      (met, m.putB 0 GLB_ERRS_LOCKWR (was || met))

/-- A write by a requester of the word at an aligned address (R28–R30): whether it was refused, and the machine after.
DEDUCED, unsafe (log 20). -/
def Chip.busWrite (m : Chip) (r addr v : Nat) : Bool × Chip :=
  if addr < 0x10000 then
    if m.regAbsent addr then (true, m.absentHit r (addr / 0x400)) else m.regWrite r addr v
  else if inNvm addr then
    let x := m.nvWrite r (addr - 0x100000) v
    (!x.1, x.2)
  else if inShared addr then
    let x := m.write32 r sharedArr (addr - 0x200000) v
    (!x.1, x.2)
  else (true, m.decodeErr)

/-! ### Register rows -/

/-- REGISTER_WRITE (R43): a write of the word at an aligned address; addresses that are not aligned reach nothing.
DEDUCED, safe (log 7); DEDUCED, safe (log 18). -/
def execRegisterWrite (r : Requester) (addr : BitVec 22) (v : Word) (s : State) : Host.Outcome State Fault Refusal :=
  s.run (fun m => if addr.toNat % 4 = 0 then (m.busWrite (reqCode r) addr.toNat v.toNat).2 else m)

/-- CTRL_SOFTRST (R34): 1 is written to CTRL.SOFTRST, with ENABLE as it stands. DEDUCED, unsafe (log 21). -/
def execCtrlSoftrst (r : Requester) (page : Fin 64) (s : State) : Host.Outcome State Fault Refusal :=
  s.run (fun m => m.onRwl (reqCode r) page.val (fun m =>
    if page.val = 0x3F then m
    else if m.unlockedFor (reqCode r) page.val then m.pageReset page.val else m.lockErr))

/-- OPCMD_ABORT (R37): 0 is written to OPCMD. -/
def execOpcmdAbort (r : Requester) (page : Fin 64) (s : State) : Host.Outcome State Fault Refusal :=
  s.run (fun m => m.onPage (reqCode r) page.val (fun m => if m.busy page.val then m.abortOp page.val else m))

/-- LONG_OPERATION_END (R38). -/
def execLongOperationEnd (page : Fin 64) (s : State) : Host.Outcome State Fault Refusal :=
  s.run (fun m => m.opEnd page.val)

/-! ### SPI -/

/-- CRC-8 over bytes: polynomial 0x07, not reflected (R51, R57). -/
def crc8 (init : Nat) (bs : List Nat) : Nat :=
  bs.foldl (fun c b => (List.range 8).foldl (fun c _ => if 128 ≤ c then (c * 2 % 256) ^^^ 7 else c * 2) (c ^^^ b)) init

/-- The high `n` bytes below bit `8 * n` of a number, highest first. -/
def bytesHigh : Nat → Nat → List Nat
  | 0, _ => []
  | n + 1, v => v / 256 ^ n % 256 :: bytesHigh n v

/-- A frame with its CRC over [63:8] (R50, R51). -/
def spiFrameOf (hi : Nat) : BitVec 64 := BitVec.ofNat 64 (hi * 256 + crc8 0xFF (bytesHigh 7 hi))

/-- A response frame: RESP, INT# state, WADDR and data (R50). DEDUCED, safe (log 16). -/
def Chip.spiResponse (m : Chip) (resp waddr data : Nat) : BitVec 64 :=
  spiFrameOf (resp * 2 ^ 54 + b2n m.intAsserted * 2 ^ 53 + waddr % 2 ^ 20 * 2 ^ 32 + data % 2 ^ 32)

/-- Keep the response to the frame just received. DEDUCED, safe (log 16). -/
def Chip.spiAnswer (m : Chip) (resp waddr data : Nat) : Chip :=
  { m with host := { m.host with spiResp := m.spiResponse resp waddr data, spiHas := true } }

/-- A response whose WADDR and data the spec does not state. DESIGN CHOICE, safe (log 3); DESIGN CHOICE, safe (log
15). -/
def Chip.spiFree (m : Chip) (resp : Nat) : Chip :=
  let a := m.freeWord
  let b := a.2.freeWord
  b.2.spiAnswer resp a.1.toNat b.1.toNat

/-- The response waiting is shifted out; with none, RESP 11 (R52). DEDUCED, unsafe (log 17). -/
def Chip.spiShift (m : Chip) : Chip :=
  let m := if m.host.spiHas then m else m.spiFree 3
  { m with host := { m.host with spiOut := m.host.spiResp } }

/-- Is OP reserved, or a bit that the request layout writes 0 not 0 (R50, R52)? DEDUCED, safe (log 14). -/
def spiReserved (w : Nat) : Bool :=
  let op := w / 2 ^ 62
  op == 2 || bit w 60 || (bit w 61 && op != 3) || (op != 1 && bitsOf w 8 32 != 0)

/-- A request frame with a good CRC is performed (R52–R54); a write that resets the chip leaves no response (R503).
DESIGN CHOICE, safe (log 3); DEDUCED, safe (log 14); DESIGN CHOICE, safe (log 15). -/
def Chip.spiPerform (m : Chip) (w : Nat) : Chip :=
  let op := w / 2 ^ 62
  let waddr := bitsOf w 40 20
  let m := m.spiCommit
  if spiReserved w then m.spiAnswer 2 waddr 0
  else if op = 3 then m.spiFree 3
  else if op = 1 then
    let x := m.busWrite 0 (4 * waddr) (bitsOf w 8 32)
    if x.2.held then x.2
    else if x.1 then
      let f := x.2.freeWord
      f.2.spiAnswer 2 waddr f.1.toNat
    else x.2.spiAnswer 0 waddr (bitsOf w 8 32)
  else
    let x := m.busRead 0 (4 * waddr)
    if x.refused then x.chip.spiAnswer 2 waddr 0
    else if x.notReady then x.chip.spiFree 3
    else x.chip.spiAnswer 0 waddr x.value

/-- A 64-bit request frame (R50–R55). A disabled interface only shifts out the response to the frame that disabled it
(R62). DEDUCED, unsafe (log 17). -/
def Chip.spiFrame (m : Chip) (w : Nat) : Chip :=
  if !m.has 0x36 HIF_CFG_SPIEN then
    if m.host.spiHas then { m with host := { m.host with spiOut := m.host.spiResp, spiHas := false } } else m
  else
    let m := m.spiShift
    if crc8 0xFF (bytesHigh 7 (w / 256)) ≠ w % 256 then (m.count 0x36 HIF_SPISTAT_CRCERR).spiFree 1
    else if w / 2 ^ 61 = 7 ∧ !spiReserved w then m
    else m.spiPerform w

/-- SPI_FRAME (R52). A reset or a disabled interface that the frame brings takes effect after it. DEDUCED, unsafe (log
17). -/
def execSpiFrame (w : BitVec 64) (s : State) : Host.Outcome State Fault Refusal :=
  s.run (fun m => m.spiFrame w.toNat)

/-- SPI_PARTIAL_FRAME (R55): CS# rises after `nbits` bits of a frame. -/
def execSpiPartialFrame (nbits : BitVec 6) (s : State) : Host.Outcome State Fault Refusal :=
  s.run (fun m =>
    if nbits.toNat = 0 || !m.has 0x36 HIF_CFG_SPIEN then m
    else { (m.count 0x36 HIF_SPISTAT_FRMERR) with host := { m.host with spiHas := false } })

/-! ### I²C -/

/-- The 7-bit address (R56). -/
def Chip.i2cAddr (m : Chip) : Nat := 0x58 + m.die.straps.toNat % 4

/-- A byte at a place. -/
def byteAt (bs : List Nat) (i : Nat) : Nat := (bs[i]?).getD 0

/-- The register address that three bytes give (R57). Bits [7:6] of the byte that carries A[21:16], on which the rule
is silent, count as address bits: not zero, they give an address from 0x40_0000 on, which is unmapped (R30). DESIGN
CHOICE, unsafe (log 104). -/
def i2cReg (bs : List Nat) : Nat := byteAt bs 1 * 65536 + byteAt bs 2 * 256 + byteAt bs 3

/-- A write transaction, from its address byte to STOP (R57, R58): a wrong PEC byte is not acknowledged. DEDUCED, safe
(log 7); DEDUCED, unsafe (log 19). -/
def Chip.i2cWrite (m : Chip) (bs : List Nat) : Chip :=
  if !m.has 0x36 HIF_CFG_I2CEN || byteAt bs 0 != 2 * m.i2cAddr || bs.isEmpty then m
  else
    let pec := bs.length == 9 && crc8 0 (bs.take 8) == byteAt bs 8
    let m := { m with host := { m.host with i2cNack := bs.length == 9 && !pec } }
    let plain := bs.length == 8 && !m.has 0x36 HIF_CFG_PECREQ
    if (pec || plain) && i2cReg bs % 4 == 0 then
      (m.busWrite 1 (i2cReg bs)
        (byteAt bs 4 * 2 ^ 24 + byteAt bs 5 * 2 ^ 16 + byteAt bs 6 * 2 ^ 8 + byteAt bs 7)).2
    else m.count 0x36 HIF_I2CSTAT_PECERR

/-- I2C_WRITE (R58): the bytes on the bus from the address byte on. -/
def execI2cWrite (bytes : List Byte) (s : State) : Host.Outcome State Fault Refusal :=
  s.run (fun m => m.i2cWrite (bytes.map BitVec.toNat))

/-- Answer a read: data, PEC, and LASTRD (R57, R59). -/
def Chip.i2cAnswer (m : Chip) (bs : List Nat) (v : Nat) (good : Bool) : Chip :=
  let data := bytesHigh 4 v
  let pec := crc8 0 (bs ++ data)
  let out := data ++ [if good then pec else 255 - pec]
  let m := m.put 0x36 HIF_LASTRD_DATA v
  let m := if good then m else m.count 0x36 HIF_I2CSTAT_NOTRDY
  { m with host := { m.host with i2cReply := out.map (fun b => BitVec.ofNat 8 b) } }

/-- A read transaction with its STOP: `ready` says that the data came within 50 µs (R59). DEDUCED, safe (log 7);
DEDUCED, unsafe (log 19). -/
def Chip.i2cRead (m : Chip) (bs : List Nat) (ready : Bool) : Chip :=
  if !m.has 0x36 HIF_CFG_I2CEN || byteAt bs 0 != 2 * m.i2cAddr || bs.length != 5 || byteAt bs 4 != 2 * m.i2cAddr + 1 then m
  else if !ready || i2cReg bs % 4 != 0 then m.i2cAnswer bs 0 false
  else
    let x := m.busRead 1 (i2cReg bs)
    if x.refused || x.notReady then x.chip.i2cAnswer bs 0 false else x.chip.i2cAnswer bs x.value true

/-- I2C_READ (R59): the bytes from the address byte to the second address byte. -/
def execI2cRead (bytes : List Byte) (ready : Bool) (s : State) : Host.Outcome State Fault Refusal :=
  s.run (fun m => m.i2cRead (bytes.map BitVec.toNat) ready)

/-- I2C_SCL_TIMEOUT (R60): SCL stayed low for more than 25 ms after `received` bytes. -/
def execI2cSclTimeout (received : BitVec 8) (s : State) : Host.Outcome State Fault Refusal :=
  s.run (fun m =>
    if m.has 0x36 HIF_CFG_I2CEN then (m.count 0x36 HIF_I2CSTAT_TIMEOUT).emit 0xA003 [received.toNat] else m)

/-! ### Debug UART -/

/-- The value of a hex digit. DEDUCED, unsafe (log 19). -/
def hexVal (c : Nat) : Option Nat :=
  if 48 ≤ c ∧ c ≤ 57 then some (c - 48)
  else if 65 ≤ c ∧ c ≤ 70 then some (c - 55)
  else if 97 ≤ c ∧ c ≤ 102 then some (c - 87)
  else none

/-- The value of hex digits. -/
def hexNum : Nat → List Nat → Option Nat
  | acc, [] => some acc
  | acc, c :: t =>
    match hexVal c with
    | some d => hexNum (16 * acc + d) t
    | none => none

/-- `n` upper-case hex digits of a number. DEDUCED, unsafe (log 19). -/
def hexText : Nat → Nat → List Nat
  | 0, _ => []
  | n + 1, v =>
    let d := v / 16 ^ n % 16
    (if d < 10 then 48 + d else 55 + d) :: hexText n v

/-- A line as parsed (R61). -/
inductive UartLine where
  | read (addr : Nat)
  | write (addr v : Nat)
  | bad
deriving DecidableEq, Repr

/-- Parse a line without its CR. DEDUCED, unsafe (log 19). -/
def uartParse (l : List Nat) : UartLine :=
  match l with
  | 114 :: 32 :: t =>
    match hexNum 0 t with
    | some a => if t.length = 6 ∧ a % 4 = 0 then .read a else .bad
    | none => .bad
  | 119 :: 32 :: t =>
    match hexNum 0 (t.take 6), hexNum 0 (t.drop 7) with
    | some a, some v => if t.length = 15 ∧ byteAt t 6 = 32 ∧ a % 4 = 0 then .write a v else .bad
    | _, _ => .bad
  | _ => .bad

/-- Answer a line, CR LF added. -/
def Chip.uartAnswer (m : Chip) (l : List Nat) : Chip :=
  { m with host := { m.host with uartReply := (l ++ [13, 10]).map (fun c => BitVec.ofNat 8 c) } }

/-- `er n`. -/
def Chip.uartError (m : Chip) (n : Nat) : Chip := m.uartAnswer [101, 114, 32, 48 + n]

/-- A line is received (R61); a write that resets the chip is not answered (R503). A six-digit address from 0x40_0000
on, which the address space does not lay out, is unmapped: it sets DECODE and is answered `er 2`. DEDUCED, safe (log
7); DEDUCED, unsafe (log 19); DESIGN CHOICE, unsafe (log 104). -/
def Chip.uartLine (m : Chip) (l : List Nat) : Chip :=
  if 24 < l.length then m.uartError 2
  else
    match uartParse l with
    | .bad => m.uartError 2
    | .read a =>
      let x := m.busRead 2 a
      if x.refused then x.chip.uartError 2
      else if x.notReady then x.chip.uartError 3
      else x.chip.uartAnswer (hexText 6 a ++ [61] ++ hexText 8 x.value)
    | .write a v =>
      if !m.has 0x36 HIF_CFG_UARTWEN then m.uartError 2
      else
        let x := m.busWrite 2 a v
        if x.2.held then x.2 else if x.1 then x.2.uartError 2 else x.2.uartAnswer [111, 107]

/-- UART_READ_LINE (R61): the characters of the line without its CR. -/
def execUartReadLine (line : List Byte) (s : State) : Host.Outcome State Fault Refusal :=
  s.run (fun m => m.uartLine (line.map BitVec.toNat))

/-- UART_WRITE_LINE (R61): the characters of the line without its CR. -/
def execUartWriteLine (line : List Byte) (s : State) : Host.Outcome State Fault Refusal :=
  s.run (fun m => m.uartLine (line.map BitVec.toNat))

end Sys2Proof.Machine
end

