-- ==== Sys2Proof/Machine/EngAlu.lean ====
section
/-! DEFINITION. The engines' arithmetic, predicate, special-register and control instructions (R361–R363, R369, R370,
R374). The word of an instruction is its row's opcode with the 26 bits the row carries. -/

namespace Sys2Proof.Machine

/-- An engine issues the word of an opcode and its lower bits. DESIGN CHOICE, safe (log 6); DEDUCED, safe (log 13). -/
def State.instr (s : State) (x : Fin 8) (op : Nat) (f : BitVec 26) (body : Chip → Nat → Chip) :
    Host.Outcome State Fault Refusal :=
  s.run (fun m => m.issue x (instrWord op f) (fun m => body m (instrWord op f)))

/-- A format R instruction with a result of ra and rb; `mask` names the bits written 0. -/
def Chip.opR (m : Chip) (x : Fin 8) (w mask : Nat) (res : Nat → Nat → Nat) : Chip :=
  m.checked x w mask (fun m => (m.setG x (wRd w) (res (m.g x (wRa w)) (m.g x (wRb w)))).engNext x)

/-- A format I instruction with a result of ra and an immediate. -/
def Chip.opI (m : Chip) (x : Fin 8) (w mask imm : Nat) (res : Nat → Nat → Nat) : Chip :=
  m.checked x w mask (fun m => (m.setG x (wRd w) (res (m.g x (wRa w)) imm)).engNext x)

/-- A format M instruction with a result of rd and imm16. -/
def Chip.opM (m : Chip) (x : Fin 8) (w : Nat) (res : Nat → Nat → Nat) : Chip :=
  m.checked x w maskM (fun m => (m.setG x (wRd w) (res (m.g x (wRd w)) (wImm16 w))).engNext x)

/-- A format C instruction: pd takes a condition; cond values 8–15 trap with cause 3 (R362). -/
def Chip.opC (m : Chip) (x : Fin 8) (w mask b : Nat) : Chip :=
  m.checked x w mask (fun m =>
    match condOf (wCond w) (m.g x (wRa w)) b with
    | some c => (m.setPred x (wPd w) c).engNext x
    | none => m.trapW x 3 w)

/-! ### Arithmetic -/

/-- ADD (R361): rd ← ra + rb. -/
def execAdd (x : Fin 8) (f : BitVec 26) (s : State) : Host.Outcome State Fault Refusal :=
  s.instr x 0x00 f (fun m w => m.opR x w maskR aluAdd)

/-- SUB (R361): rd ← ra − rb. -/
def execSub (x : Fin 8) (f : BitVec 26) (s : State) : Host.Outcome State Fault Refusal :=
  s.instr x 0x01 f (fun m w => m.opR x w maskR aluSub)

/-- AND (R361): rd ← ra AND rb. -/
def execAnd (x : Fin 8) (f : BitVec 26) (s : State) : Host.Outcome State Fault Refusal :=
  s.instr x 0x02 f (fun m w => m.opR x w maskR (fun a b => a &&& b))

/-- OR (R361): rd ← ra OR rb. -/
def execOr (x : Fin 8) (f : BitVec 26) (s : State) : Host.Outcome State Fault Refusal :=
  s.instr x 0x03 f (fun m w => m.opR x w maskR (fun a b => a ||| b))

/-- XOR (R361): rd ← ra XOR rb. -/
def execXor (x : Fin 8) (f : BitVec 26) (s : State) : Host.Outcome State Fault Refusal :=
  s.instr x 0x04 f (fun m w => m.opR x w maskR (fun a b => a ^^^ b))

/-- SHL (R361): rd ← ra shifted left by rb[4:0]. -/
def execShl (x : Fin 8) (f : BitVec 26) (s : State) : Host.Outcome State Fault Refusal :=
  s.instr x 0x05 f (fun m w => m.opR x w maskR aluShl)

/-- SHR (R361): rd ← ra shifted right by rb[4:0], zeros in. -/
def execShr (x : Fin 8) (f : BitVec 26) (s : State) : Host.Outcome State Fault Refusal :=
  s.instr x 0x06 f (fun m w => m.opR x w maskR aluShr)

/-- ASR (R361): rd ← ra shifted right by rb[4:0], sign in. -/
def execAsr (x : Fin 8) (f : BitVec 26) (s : State) : Host.Outcome State Fault Refusal :=
  s.instr x 0x07 f (fun m w => m.opR x w maskR aluAsr)

/-- MUL (R361): rd ← low word of the product. -/
def execMul (x : Fin 8) (f : BitVec 26) (s : State) : Host.Outcome State Fault Refusal :=
  s.instr x 0x08 f (fun m w => m.opR x w maskR aluMul)

/-- MULH (R361): rd ← high word of the signed product. -/
def execMulh (x : Fin 8) (f : BitVec 26) (s : State) : Host.Outcome State Fault Refusal :=
  s.instr x 0x09 f (fun m w => m.opR x w maskR aluMulh)

/-- MULHU (R361): rd ← high word of the unsigned product. -/
def execMulhu (x : Fin 8) (f : BitVec 26) (s : State) : Host.Outcome State Fault Refusal :=
  s.instr x 0x0A f (fun m w => m.opR x w maskR aluMulhu)

/-- MIN (R361): rd ← signed minimum. -/
def execMin (x : Fin 8) (f : BitVec 26) (s : State) : Host.Outcome State Fault Refusal :=
  s.instr x 0x0B f (fun m w => m.opR x w maskR aluMin)

/-- MAX (R361): rd ← signed maximum. -/
def execMax (x : Fin 8) (f : BitVec 26) (s : State) : Host.Outcome State Fault Refusal :=
  s.instr x 0x0C f (fun m w => m.opR x w maskR aluMax)

/-- ADDS (R361): rd ← saturated sum. -/
def execAdds (x : Fin 8) (f : BitVec 26) (s : State) : Host.Outcome State Fault Refusal :=
  s.instr x 0x0D f (fun m w => m.opR x w maskR aluAdds)

/-- SUBS (R361): rd ← saturated difference. -/
def execSubs (x : Fin 8) (f : BitVec 26) (s : State) : Host.Outcome State Fault Refusal :=
  s.instr x 0x0E f (fun m w => m.opR x w maskR aluSubs)

/-- DIV (R361): rd ← ra / rb; [0] selects unsigned. -/
def execDiv (x : Fin 8) (f : BitVec 26) (s : State) : Host.Outcome State Fault Refusal :=
  s.instr x 0x0F f (fun m w => m.opR x w 0x3FE (aluDiv (bit w 0)))

/-- ADDI (R361): rd ← ra + imm14, sign-extended. -/
def execAddi (x : Fin 8) (f : BitVec 26) (s : State) : Host.Outcome State Fault Refusal :=
  s.instr x 0x10 f (fun m w => m.opI x w 0 (simm14 w) aluAdd)

/-- ANDI (R361): rd ← ra AND imm14. -/
def execAndi (x : Fin 8) (f : BitVec 26) (s : State) : Host.Outcome State Fault Refusal :=
  s.instr x 0x11 f (fun m w => m.opI x w 0 (wImm14 w) (fun a b => a &&& b))

/-- ORI (R361): rd ← ra OR imm14. -/
def execOri (x : Fin 8) (f : BitVec 26) (s : State) : Host.Outcome State Fault Refusal :=
  s.instr x 0x12 f (fun m w => m.opI x w 0 (wImm14 w) (fun a b => a ||| b))

/-- XORI (R361): rd ← ra XOR imm14. -/
def execXori (x : Fin 8) (f : BitVec 26) (s : State) : Host.Outcome State Fault Refusal :=
  s.instr x 0x13 f (fun m w => m.opI x w 0 (wImm14 w) (fun a b => a ^^^ b))

/-- SHLI (R361): rd ← ra shifted left by imm14[4:0]. -/
def execShli (x : Fin 8) (f : BitVec 26) (s : State) : Host.Outcome State Fault Refusal :=
  s.instr x 0x14 f (fun m w => m.opI x w maskShift (wImm14 w) aluShl)

/-- SHRI (R361): rd ← ra shifted right by imm14[4:0], zeros in. -/
def execShri (x : Fin 8) (f : BitVec 26) (s : State) : Host.Outcome State Fault Refusal :=
  s.instr x 0x15 f (fun m w => m.opI x w maskShift (wImm14 w) aluShr)

/-- ASRI (R361): rd ← ra shifted right by imm14[4:0], sign in. -/
def execAsri (x : Fin 8) (f : BitVec 26) (s : State) : Host.Outcome State Fault Refusal :=
  s.instr x 0x16 f (fun m w => m.opI x w maskShift (wImm14 w) aluAsr)

/-- MOVL (R361): rd ← imm16. -/
def execMovl (x : Fin 8) (f : BitVec 26) (s : State) : Host.Outcome State Fault Refusal :=
  s.instr x 0x17 f (fun m w => m.opM x w (fun _ i => i))

/-- MOVH (R361): rd[31:16] ← imm16, the low half kept. -/
def execMovh (x : Fin 8) (f : BitVec 26) (s : State) : Host.Outcome State Fault Refusal :=
  s.instr x 0x18 f (fun m w => m.opM x w (fun a i => i * 65536 + a % 65536))

/-! ### Predicates -/

/-- CMP (R362). -/
def execCmp (x : Fin 8) (f : BitVec 26) (s : State) : Host.Outcome State Fault Refusal :=
  s.instr x 0x19 f (fun m w => m.opC x w (maskC + 0x3F) (m.g x (wCmpRb w)))

/-- CMPI (R362). -/
def execCmpi (x : Fin 8) (f : BitVec 26) (s : State) : Host.Outcome State Fault Refusal :=
  s.instr x 0x1A f (fun m w => m.opC x w maskC (simm10 w))

/-- PSET (R361): pd takes the logic of pa and pb that op [1:0] names. -/
def execPset (x : Fin 8) (f : BitVec 26) (s : State) : Host.Outcome State Fault Refusal :=
  s.instr x 0x1B f (fun m w => m.checked x w maskP (fun m =>
    (m.setPred x (wPd w) (psetOf (w % 4) (m.pred x (wPa w)) (m.pred x (wPb w)))).engNext x))

/-- PRD (R361): rd ← p7…p0; ra and rb are 0. -/
def execPrd (x : Fin 8) (f : BitVec 26) (s : State) : Host.Outcome State Fault Refusal :=
  s.instr x 0x1C f (fun m w => m.checked x w (maskRa + maskRb + maskR) (fun m =>
    (m.setG x (wRd w) (m.preds x)).engNext x))

/-- PWR (R361): p7…p1 ← ra[7:1]; rd and rb are 0. -/
def execPwr (x : Fin 8) (f : BitVec 26) (s : State) : Host.Outcome State Fault Refusal :=
  s.instr x 0x1D f (fun m w => m.checked x w (maskRd + maskRb + maskR) (fun m =>
    (m.setPreds x (m.g x (wRa w))).engNext x))

/-! ### Special registers -/

/-- The value of a special register (R370). -/
def Chip.special (m : Chip) (x : Fin 8) (k : Nat) : Nat :=
  let pg := engPg x
  if k = 0 then m.get pg ENG_TEPC_EPC
  else if k = 1 then m.get pg ENG_TCAUSE_CAUSE
  else if k = 2 then m.get pg ENG_TINST_INST
  else if k = 3 then x.val
  else if k = 4 then m.get pg ENG_CYC_COUNT
  else if k = 5 then m.get pg ENG_STAT_HANDLER
  else 0

/-- MFS (R370): rd ← special register [3:0]. -/
def execMfs (x : Fin 8) (f : BitVec 26) (s : State) : Host.Outcome State Fault Refusal :=
  s.instr x 0x1E f (fun m w => m.checked x w 0x3F0 (fun m =>
    (m.setG x (wRd w) (m.special x (w % 16))).engNext x))

/-- MTS (R370): TEPC ← ra; writes to the other special registers are ignored. -/
def execMts (x : Fin 8) (f : BitVec 26) (s : State) : Host.Outcome State Fault Refusal :=
  s.instr x 0x1F f (fun m w => m.checked x w 0x3F0 (fun m =>
    (if w % 16 = 0 then m.put (engPg x) ENG_TEPC_EPC (m.g x (wRa w)) else m).engNext x))

/-- RGET (R361): rd ← the register that ra[3:0] names. -/
def execRget (x : Fin 8) (f : BitVec 26) (s : State) : Host.Outcome State Fault Refusal :=
  s.instr x 0x2A f (fun m w => m.checked x w maskR (fun m =>
    (m.setG x (wRd w) (m.g x (m.g x (wRa w) % 16))).engNext x))

/-- RPUT (R361): the register that ra[3:0] names ← rb; rd is 0. -/
def execRput (x : Fin 8) (f : BitVec 26) (s : State) : Host.Outcome State Fault Refusal :=
  s.instr x 0x2B f (fun m w => m.checked x w (maskRd + maskR) (fun m =>
    (m.setG x (m.g x (wRa w) % 16) (m.g x (wRb w))).engNext x))

/-! ### Control -/

/-- BR (R361): PC moves by simm22 words. -/
def execBr (x : Fin 8) (f : BitVec 26) (s : State) : Host.Outcome State Fault Refusal :=
  s.instr x 0x2C f (fun m w => m.setPc x (branchTo (m.pc x) w))

/-- CALL (R361): g15 ← PC + 1, and PC moves by simm22 words. -/
def execCall (x : Fin 8) (f : BitVec 26) (s : State) : Host.Outcome State Fault Refusal :=
  s.instr x 0x2D f (fun m w => (m.setG x 15 ((m.pc x + 1) % 4096)).setPc x (branchTo (m.pc x) w))

/-- JR (R361): PC ← ra[11:0]. DEDUCED, safe (log 79). -/
def execJr (x : Fin 8) (f : BitVec 26) (s : State) : Host.Outcome State Fault Refusal :=
  s.instr x 0x2E f (fun m w => m.checked x w maskR (fun m => m.setPc x (m.g x (wRa w))))

/-- Opcode 0x2F (R361): trap cause 3. -/
def execUndefinedOpcode (x : Fin 8) (f : BitVec 26) (s : State) : Host.Outcome State Fault Refusal :=
  s.instr x 0x2F f (fun m w => m.trapW x 3 w)

/-- Opcodes 0x38–0x3B (R361, R369): trap cause 1. -/
def execReservedOpcode (x : Fin 8) (op : Fin 4) (f : BitVec 26) (s : State) : Host.Outcome State Fault Refusal :=
  s.instr x (0x38 + op.val) f (fun m w => m.trapW x 1 w)

/-- HALT (R361, R374): all fields are 0. -/
def execHalt (x : Fin 8) (f : BitVec 26) (s : State) : Host.Outcome State Fault Refusal :=
  s.instr x 0x35 f (fun m w => m.checked x w maskAll (fun m => m.engHalt x))

/-- TRAP (R361, R369): trap cause 5; its code is [7:0]. -/
def execTrap (x : Fin 8) (f : BitVec 26) (s : State) : Host.Outcome State Fault Refusal :=
  s.instr x 0x36 f (fun m w => m.checked x w 0x300 (fun m => m.trapW x 5 w))

/-- ERET (R370): PC ← TEPC + 1, and HANDLER clears. DEDUCED, safe (log 79). -/
def execEret (x : Fin 8) (f : BitVec 26) (s : State) : Host.Outcome State Fault Refusal :=
  s.instr x 0x37 f (fun m w => m.checked x w maskR (fun m =>
    (m.setPc x (m.get (engPg x) ENG_TEPC_EPC + 1)).put (engPg x) ENG_STAT_HANDLER 0))

end Sys2Proof.Machine
end

