-- ==== Sys2Proof/Machine/EngMem.lean ====
section
/-! DEFINITION. The engines' data accesses (R354–R358): the data map with its traps, loads, stores and atomics, the Depot
put that waits, and the end of a stall. -/

namespace Sys2Proof.Machine

/-! ### The data map (R354, R355) -/

/-- The RAM an address of an engine lies in: array and byte offset. -/
def ramAt (x : Fin 8) (addr : Nat) : Option (Nat × Nat) :=
  if inShared addr then some (sharedArr, addr - 0x200000)
  else if 0x300000 ≤ addr ∧ addr < 0x302000 then some (dataArr x, addr - 0x300000)
  else none

/-- Does an address lie in register space or in the NVM window? -/
def inRegsOrNvm (addr : Nat) : Bool := decide (addr < 0x10000) || inNvm addr

/-- The cause with which an access of `n` bytes traps instead of reaching a target, if it does. DEDUCED, unsafe (log
71). -/
def accessTrap (x : Fin 8) (addr n : Nat) : Option Nat :=
  if (ramAt x addr).isSome then (if addr % n = 0 then none else some 4)
  else if inRegsOrNvm addr && n == 4 then (if addr % 4 = 0 then none else some 4)
  else some 7

/-- The same for SWAP and CAS, which reach the two RAMs only. DEDUCED, unsafe (log 71). -/
def atomicTrap (x : Fin 8) (addr : Nat) : Option Nat :=
  if (ramAt x addr).isSome then (if addr % 4 = 0 then none else some 4) else some 7

/-- The data address of format I: ra + imm14, modulo 2³². -/
def Chip.dataAddr (m : Chip) (x : Fin 8) (w : Nat) : Nat := aluAdd (m.g x (wRa w)) (simm14 w)

/-! ### Loads -/

/-- What a load meets: its value, a trap, or data that is not ready. -/
inductive EngLoad where
  | value (v : Nat)
  | trap (cause : Nat)
  | notReady
deriving DecidableEq, Repr

/-- A read of `n` bytes at an address that passes `accessTrap`. -/
def Chip.engRead32 (m : Chip) (x : Fin 8) (addr n : Nat) : EngLoad × Chip :=
  match ramAt x addr with
  | some (arr, off) =>
    match m.read32 (engReq x) arr (off / 4 * 4) with
    | (some v, m) => (.value (bitsOf v (8 * (off % 4)) (8 * n)), m)
    | (none, m) => (.trap 6, m)
  | none =>
    let b := m.busRead (engReq x) addr
    if b.notReady then (.notReady, b.chip) else if b.refused then (.value 0, b.chip) else (.value b.value, b.chip)

/-- A load of `n` bytes into rd, `ext` extending them to a word; while the store is not ready the engine stalls.
DEDUCED, unsafe (log 74). -/
def Chip.load (m : Chip) (x : Fin 8) (w n : Nat) (ext : Nat → Nat) : Chip :=
  let addr := m.dataAddr x w
  match accessTrap x addr n with
  | some c => m.trapW x c w
  | none =>
    match m.engRead32 x addr n with
    | (.value v, m) => (m.setG x (wRd w) (ext v)).engNext x
    | (.trap c, m) => m.trapW x c w
    | (.notReady, m) => m.engStall x 2 w

/-! ### Stores -/

/-- A register write by an engine's instruction. The instruction's boundary is passed first, so that a write which
stops or resets the engine finds it there. DEDUCED, unsafe (log 75). -/
def Chip.engBusWrite (m : Chip) (x : Fin 8) (addr v : Nat) : Chip := ((m.engNext x).busWrite (engReq x) addr v).2

/-- A store of `n` bytes of rd. DEDUCED, unsafe (log 75). -/
def Chip.store (m : Chip) (x : Fin 8) (w n : Nat) : Chip :=
  let addr := m.dataAddr x w
  let v := m.g x (wRd w)
  match accessTrap x addr n with
  | some c => m.trapW x c w
  | none =>
    match ramAt x addr with
    | some (arr, off) =>
      match m.narrowWrite (engReq x) arr off (bytesOf n v) with
      | (some m, _) => m.engNext x
      | (none, m) => m.trapW x 6 w
    | none => m.engBusWrite x addr v

/-! ### Atomics -/

/-- SWAP and CAS: the word at ra is read, written where `when_` holds of it, and returned in rd: one access, decoded
once (R441). -/
def Chip.atomic (m : Chip) (x : Fin 8) (w : Nat) (when_ : Nat → Bool) : Chip :=
  let addr := m.g x (wRa w)
  let v := m.g x (wRd w)
  match atomicTrap x addr, ramAt x addr with
  | none, some (arr, off) =>
    let r := m.wordRead (engReq x) arr (off / 8)
    match r.data with
    | some d =>
      let k := off % 8
      let t := le32 (d.drop k)
      let m := if when_ t then r.chip.wordWrite arr (off / 8) (d.take k ++ bytesOf 4 v ++ d.drop (k + 4)) else r.chip
      (m.setG x (wRd w) t).engNext x
    | none => r.chip.trapW x 6 w
  | c, _ => m.trapW x (c.getD 7) w

/-! ### Instructions -/

/-- LDW (R355, R357, R361): rd ← word, at ra + imm14. -/
def execLdw (x : Fin 8) (f : BitVec 26) (s : State) : Host.Outcome State Fault Refusal :=
  s.instr x 0x20 f (fun m w => m.load x w 4 id)

/-- LDH (R355, R357, R361): rd ← half, zero-extended, at ra + imm14. -/
def execLdh (x : Fin 8) (f : BitVec 26) (s : State) : Host.Outcome State Fault Refusal :=
  s.instr x 0x21 f (fun m w => m.load x w 2 id)

/-- LDHS (R355, R357, R361): rd ← half, sign-extended, at ra + imm14. -/
def execLdhs (x : Fin 8) (f : BitVec 26) (s : State) : Host.Outcome State Fault Refusal :=
  s.instr x 0x22 f (fun m w => m.load x w 2 (fun v => ux 32 (sx 16 v)))

/-- LDB (R355, R357, R361): rd ← byte, zero-extended, at ra + imm14. -/
def execLdb (x : Fin 8) (f : BitVec 26) (s : State) : Host.Outcome State Fault Refusal :=
  s.instr x 0x23 f (fun m w => m.load x w 1 id)

/-- LDBS (R355, R357, R361): rd ← byte, sign-extended, at ra + imm14. -/
def execLdbs (x : Fin 8) (f : BitVec 26) (s : State) : Host.Outcome State Fault Refusal :=
  s.instr x 0x24 f (fun m w => m.load x w 1 (fun v => ux 32 (sx 8 v)))

/-- STW (R355, R357, R361): word ← rd, at ra + imm14. -/
def execStw (x : Fin 8) (f : BitVec 26) (s : State) : Host.Outcome State Fault Refusal :=
  s.instr x 0x25 f (fun m w => m.store x w 4)

/-- STH (R355, R357, R361): half ← rd, at ra + imm14. -/
def execSth (x : Fin 8) (f : BitVec 26) (s : State) : Host.Outcome State Fault Refusal :=
  s.instr x 0x26 f (fun m w => m.store x w 2)

/-- STB (R355, R357, R361): byte ← rd, at ra + imm14. -/
def execStb (x : Fin 8) (f : BitVec 26) (s : State) : Host.Outcome State Fault Refusal :=
  s.instr x 0x27 f (fun m w => m.store x w 1)

/-- SWAP (R361): the RAM word at ra and rd are exchanged; rb is 0. -/
def execSwap (x : Fin 8) (f : BitVec 26) (s : State) : Host.Outcome State Fault Refusal :=
  s.instr x 0x28 f (fun m w => m.checked x w (maskRb + maskR) (fun m => m.atomic x w (fun _ => true)))

/-- CAS (R361): the RAM word at ra takes rd if it equals rb, and rd takes the old word. -/
def execCas (x : Fin 8) (f : BitVec 26) (s : State) : Host.Outcome State Fault Refusal :=
  s.instr x 0x29 f (fun m w => m.checked x w maskR (fun m => m.atomic x w (fun t => t == m.g x (wRb w))))

/-! ### The end of a stall -/

/-- A stalled access completes (R374): a load whose data came is made again from its stored word; a put that waited
for a Depot slot has its entry. The idle cycles of the throttle level follow (R346). DEDUCED, unsafe (log 74). -/
def Chip.stallEnd (m : Chip) (x : Fin 8) : Chip :=
  if m.engState x ≠ 3 then m
  else
    let w := (m.engSt x).stall
    if m.get (engPg x) ENG_STAT_STALLSRC = 4 then
      if m.dep.waiting.any (fun e => e.src == x.val) then m else (m.engTo x 1 0).engIdle x
    else (((m.engTo x 1 0).engIdle x).load x w 4 id).engStopDue x

/-- STALL_END (R374). DEDUCED, unsafe (log 74). -/
def execStallEnd (x : Fin 8) (s : State) : Host.Outcome State Fault Refusal := s.run (fun m => m.stallEnd x)

end Sys2Proof.Machine
end

