-- ==== Sys2Proof/Machine/EngTime.lean ====
section
/-! DEFINITION. The engines' events and time (R364–R368): WFE, SEV, WAITA, WAITT and RDT, and the ends of their waits. -/

namespace Sys2Proof.Machine

/-! ### Events (R364, R365) -/

/-- Is a line pending for an engine? -/
def Chip.evPend (m : Chip) (x : Fin 8) (line : Nat) : Bool := bit (m.get (engPg x) ENG_EVPEND_PEND (line / 32)) (line % 32)

/-- Is a line in an engine's EVMASK? -/
def Chip.evMask (m : Chip) (x : Fin 8) (line : Nat) : Bool := bit (m.get (engPg x) ENG_EVMASK_MASK (line / 32)) (line % 32)

/-- The pending line that a WFE takes, if there is one. -/
def Chip.evTaken (m : Chip) (x : Fin 8) (line : Nat) (any : Bool) : Option Nat :=
  if any then (List.range 256).find? (fun n => m.evPend x n && m.evMask x n)
  else if m.evPend x line then some line else none

/-- A line's pending bit is cleared. -/
def Chip.evClear (m : Chip) (x : Fin 8) (line : Nat) : Chip :=
  m.maskClr (engPg x) ENG_EVPEND_PEND (line % 32) (line / 32)

/-- WFE (R364): LINE [7:0], ANY [8], TMO [9]. DEDUCED, unsafe (log 70). -/
def Chip.wfe (m : Chip) (x : Fin 8) (w : Nat) : Chip :=
  let line := w % 256
  let any := bit w 8
  let tmo := bit w 9
  let rd := wRd w
  let n := m.g x (wRb w)
  match m.evTaken x line any with
  | some k => ((m.evClear x k).setG x rd k).engNext x
  | none =>
    if tmo && n == 0 then (m.setG x rd 0x100).engNext x
    else m.engWait x (.event rd line any (if tmo then some (m.tim.tick + n) else none))

/-- WFE (R364). -/
def execWfe (x : Fin 8) (f : BitVec 26) (s : State) : Host.Outcome State Fault Refusal :=
  s.instr x 0x30 f (fun m w => m.wfe x w)

/-- A waiting WFE finds an awaited bit set (R364). -/
def Chip.wfeWake (m : Chip) (x : Fin 8) : Chip :=
  match (m.engSt x).wait with
  | .event rd line any _ =>
    match m.evTaken x line any with
    | some k => (m.evClear x k).engResume x (some rd) k
    | none => m
  | _ => m

/-- WFE_WAKE (R364). -/
def execWfeWake (x : Fin 8) (s : State) : Host.Outcome State Fault Refusal := s.run (fun m => m.wfeWake x)

/-- Has the tick counter reached a target (R367)? -/
def Chip.tickReached (m : Chip) (target : Nat) : Bool := decide (0 ≤ sx 64 (m.tim.tick + 2 ^ 64 - target % 2 ^ 64))

/-- A waiting WFE reaches the end of its time (R364); an awaited bit that is set by then has ended it. DEDUCED, unsafe
(log 70). -/
def Chip.wfeTimeout (m : Chip) (x : Fin 8) : Chip :=
  match (m.engSt x).wait with
  | .event rd line any (some t) =>
    if !m.tickReached t then m
    else match m.evTaken x line any with
      | some _ => m.wfeWake x
      | none => m.engResume x (some rd) 0x100
  | _ => m

/-- WFE_TIMEOUT (R364). -/
def execWfeTimeout (x : Fin 8) (s : State) : Host.Outcome State Fault Refusal := s.run (fun m => m.wfeTimeout x)

/-- SEV (R365): software line k of the engine is ev(128 + 8x + k) (R380). DEDUCED, unsafe (log 78). -/
def execSev (x : Fin 8) (f : BitVec 26) (s : State) : Host.Outcome State Fault Refusal :=
  s.instr x 0x31 f (fun m w => m.checked x w 0x3F8 (fun m => (m.engNext x).raise (128 + 8 * x.val + w % 8)))

/-! ### Angle waits (R366) -/

/-- What rd receives when an angle wait ends. -/
def Chip.angleResult (m : Chip) (late defer : Bool) : Nat := m.flags + 8 * b2n late + 16 * b2n defer

/-- Does the present stamp end an angle wait that is reached and not deferred? -/
def Chip.anglePermits (m : Chip) (lreq : Bool) : Bool := !lreq || m.lockPermitted

/-- WAITA (R366): LREQ is [0]. -/
def Chip.waita (m : Chip) (x : Fin 8) (w : Nat) : Chip :=
  let target := m.g x (wRa w) * 65536 + m.g x (wRb w) % 65536
  let lreq := bit w 0
  let reached := stampReached m.stamp.num target
  if reached && m.anglePermits lreq then (m.setG x (wRd w) (m.angleResult true false)).engNext x
  else m.engWait x (.angle (wRd w) target lreq reached reached)

/-- WAITA (R366). -/
def execWaita (x : Fin 8) (f : BitVec 26) (s : State) : Host.Outcome State Fault Refusal :=
  s.instr x 0x32 f (fun m w => m.checked x w 0x3FE (fun m => m.waita x w))

/-- An angle wait is tested at the present stamp: a target reached on a stamp that is not permitted defers it, and a
deferred wait ends at a waypoint boundary with a permitted stamp. DEDUCED, safe (log 35). -/
def Chip.waitaTest (m : Chip) (x : Fin 8) : Chip :=
  match (m.engSt x).wait with
  | .angle rd target lreq late defer =>
    if defer then
      if m.lockPermitted && m.tim.angle % 256 == 0 then m.engResume x (some rd) (m.angleResult late true) else m
    else if !stampReached m.stamp.num target then m
    else if m.anglePermits lreq then m.engResume x (some rd) (m.angleResult late false)
    else m.setEng x { m.engSt x with wait := .angle rd target lreq late true }
  | _ => m

/-- WAITA_END (R366). DEDUCED, safe (log 35). -/
def execWaitaEnd (x : Fin 8) (s : State) : Host.Outcome State Fault Refusal := s.run (fun m => m.waitaTest x)

/-- A forward cycle adjustment marks the angle waits whose targets it skips LATE (R97, R366): from the first stamp of
the cycle that would have followed, up to the first stamp of the new one. -/
def Chip.waitaSkip (m : Chip) (old new : Nat) (x : Fin 8) : Chip :=
  match (m.engSt x).wait with
  | .angle rd target lreq late defer =>
    let first := (old + 1) % 2 ^ 32 * 65536
    let skipped := stampReached target first && stampBefore target (new * 65536)
    if skipped then m.setEng x { m.engSt x with wait := .angle rd target lreq (late || skipped) defer } else m
  | _ => m

/-! ### Tick waits (R367) -/

/-- WAITT (R367): REL is [0]; with REL rb is 0. -/
def Chip.waitt (m : Chip) (x : Fin 8) (w : Nat) : Chip :=
  let target := if bit w 0 then (m.tim.tick + m.g x (wRa w)) % 2 ^ 64
    else m.g x (wRb w) * 2 ^ 32 + m.g x (wRa w)
  if m.tickReached target then m.engNext x else m.engWait x (.tick target)

/-- WAITT (R367). -/
def execWaitt (x : Fin 8) (f : BitVec 26) (s : State) : Host.Outcome State Fault Refusal :=
  s.instr x 0x33 f (fun m w =>
    m.checked x w (maskRd + 0x3FE + if bit w 0 then maskRb else 0) (fun m => m.waitt x w))

/-- A tick wait ends at its target. -/
def Chip.waittEnd (m : Chip) (x : Fin 8) : Chip :=
  match (m.engSt x).wait with
  | .tick target => if m.tickReached target then m.engResume x none 0 else m
  | _ => m

/-- WAITT_END (R367). -/
def execWaittEnd (x : Fin 8) (s : State) : Host.Outcome State Fault Refusal := s.run (fun m => m.waittEnd x)

/-! ### RDT (R368) -/

/-- RDT (R368). -/
def execRdt (x : Fin 8) (f : BitVec 26) (s : State) : Host.Outcome State Fault Refusal :=
  s.instr x 0x34 f (fun m w => m.checked x w 0x3FC (fun m =>
    let v := m.ttbRead (engReq x) (0x60 + 4 * (w % 4)) 0
    (v.2.setG x (wRd w) v.1).engNext x))

end Sys2Proof.Machine
end

