-- ==== Sys2Proof/Machine/Coproc.lean ====
section
/-! DEFINITION. The coprocessor instructions (R371–R373). -/

namespace Sys2Proof.Machine

/-- Coprocessor block k as its words name it: does the member lack it, or the loop a CP0 instruction names (R7)? -/
def cpAbsent (p : Part) (k u : Nat) : Bool :=
  if k = 2 then !isFull p else k == 0 && decide (u < 4) && decide (nLoops p ≤ u)

/-- Units of a coprocessor block. -/
def cpUnits (k : Nat) : Nat := if k = 0 then 4 else if k = 2 then 8 else 1

/-- Functions of a coprocessor block. -/
def cpFns (k : Nat) : Nat := if k = 3 then 5 else 4

/-- Page of a unit of a coprocessor block. -/
def cpPage (k u : Nat) : Nat := if k = 0 then 6 + u else if k = 1 then 4 else if k = 2 then 0x10 + u else 0x1E

/-- A row of a coprocessor function issues its instruction; a word whose FN names another function of the block is
that function's row's, and changes nothing here (R371, R372). DEDUCED, safe (log 72). -/
def State.cpInstr (s : State) (x : Fin 8) (k fn : Nat) (f : BitVec 26) (body : Chip → Nat → Chip) :
    Host.Outcome State Fault Refusal :=
  let w := instrWord (0x3C + k) f
  if wFn w ≠ fn ∧ wFn w < cpFns k then .next s else s.instr x (0x3C + k) f body

/-- The tests before every coprocessor function: absence first, then FN and UNIT, then the group of rd, with `words`
registers written (R371). DEDUCED, safe (log 72). -/
def Chip.cpCheck (m : Chip) (x : Fin 8) (k w words : Nat) (body : Chip → Chip) : Chip :=
  if cpAbsent m.die.part k (wUnit w) then m.trapW x 2 w
  else if cpFns k ≤ wFn w ∨ cpUnits k ≤ wUnit w ∨ wRd w % words ≠ 0 then m.trapW x 3 w
  else body m

/-- Is a page offset one that R371 permits? -/
def cpOffset (v : Nat) : Bool := v % 4 == 0 && decide (v < 0x400)

/-- RD of a coprocessor: rd ← register at offset ra of the unit's page. -/
def Chip.cpRead (m : Chip) (x : Fin 8) (k w : Nat) : Chip :=
  m.cpCheck x k w 1 (fun m =>
    let o := m.g x (wRa w)
    if cpOffset o then
      let b := m.busRead (engReq x) (cpPage k (wUnit w) * 0x400 + o)
      (b.chip.setG x (wRd w) b.value).engNext x
    else m.trapW x 4 w)

/-- WR of a coprocessor: register at offset ra of the unit's page ← rb. -/
def Chip.cpWrite (m : Chip) (x : Fin 8) (k w : Nat) : Chip :=
  m.cpCheck x k w 1 (fun m =>
    let o := m.g x (wRa w)
    if cpOffset o then m.engBusWrite x (cpPage k (wUnit w) * 0x400 + o) (m.g x (wRb w)) else m.trapW x 4 w)

/-- A coprocessor function that returns several words (R371). -/
def Chip.cpWords (m : Chip) (x : Fin 8) (k w : Nat) (vs : Chip → List Nat) : Chip :=
  m.cpCheck x k w (vs m).length (fun m => (m.setGs x (wRd w) (vs m)).engNext x)

/-- CP0 RD (R372): rd ← a register of the MARx page. -/
def execCp0Rd (x : Fin 8) (f : BitVec 26) (s : State) : Host.Outcome State Fault Refusal :=
  s.cpInstr x 0 0 f (fun m w => m.cpRead x 0 w)

/-- CP0 WR (R372): a register of the MARx page ← rb. -/
def execCp0Wr (x : Fin 8) (f : BitVec 26) (s : State) : Host.Outcome State Fault Refusal :=
  s.cpInstr x 0 1 f (fun m w => m.cpWrite x 0 w)

/-- INTEG, DUTY, ERR and ILOOP of a loop (R165). -/
def Chip.snapWords (m : Chip) (l : Nat) : List Nat :=
  [MAR_INTEG_I, MAR_DUTY_D, MAR_ERR_X, MAR_ILOOP_I].map (fun f => (m.rd (f.addr (marPg l))).toNat)

/-- CP0 SNAP (R165, R372): rd…rd + 3 ← INTEG, DUTY, ERR, ILOOP. -/
def execCp0Snap (x : Fin 8) (f : BitVec 26) (s : State) : Host.Outcome State Fault Refusal :=
  s.cpInstr x 0 2 f (fun m w => m.cpWords x 0 w (fun m => m.snapWords (wUnit w)))

/-- CP0 ACCUM (R151, R372): ripple entry ra[7:0] += rb[15:0], signed. -/
def execCp0Accum (x : Fin 8) (f : BitVec 26) (s : State) : Host.Outcome State Fault Refusal :=
  s.cpInstr x 0 3 f (fun m w => m.cpCheck x 0 w 1 (fun m =>
    (m.rfAccum (wUnit w) (m.g x (wRa w) % 256) (sx 16 (m.g x (wRb w)))).engNext x))

/-- CP1 RD (R372): rd ← a register of the MET page. -/
def execCp1Rd (x : Fin 8) (f : BitVec 26) (s : State) : Host.Outcome State Fault Refusal :=
  s.cpInstr x 1 0 f (fun m w => m.cpRead x 1 w)

/-- CP1 WR (R372): a register of the MET page ← rb. -/
def execCp1Wr (x : Fin 8) (f : BitVec 26) (s : State) : Host.Outcome State Fault Refusal :=
  s.cpInstr x 1 1 f (fun m w => m.cpWrite x 1 w)

/-- The two words of an accumulator that a value of rb names, from the live words or a bank (R372). -/
def Chip.accPair (m : Chip) (x : Fin 8) (w : Nat) (snap : Bool) : List Nat :=
  let c := m.g x (wRa w) % 32
  let b := m.g x (wRb w)
  let word := fun (i : Nat) => if snap then m.snapWord (bitsOf b 2 1) c i else m.liveWord c i
  [word (2 * (b % 4)), word (2 * (b % 4) + 1)]

/-- CP1 LIVE (R372): rd, rd + 1 ← a live accumulator. -/
def execCp1Live (x : Fin 8) (f : BitVec 26) (s : State) : Host.Outcome State Fault Refusal :=
  s.cpInstr x 1 2 f (fun m w => m.cpCheck x 1 w 2 (fun m =>
    let m := m.liveRead (m.g x (wRa w) % 32)
    (m.setGs x (wRd w) (m.accPair x w false)).engNext x))

/-- CP1 SNAPRD (R372): rd, rd + 1 ← an accumulator of a snapshot bank. -/
def execCp1Snaprd (x : Fin 8) (f : BitVec 26) (s : State) : Host.Outcome State Fault Refusal :=
  s.cpInstr x 1 3 f (fun m w => m.cpCheck x 1 w 2 (fun m =>
    let b := m.g x (wRb w)
    let m := m.snapRead (bitsOf b 2 1) (m.g x (wRa w) % 32) (2 * (b % 4))
    (m.setGs x (wRd w) (m.accPair x w true)).engNext x))

/-- CP2 RD (R372): rd ← a register of the PDn page. -/
def execCp2Rd (x : Fin 8) (f : BitVec 26) (s : State) : Host.Outcome State Fault Refusal :=
  s.cpInstr x 2 0 f (fun m w => m.cpRead x 2 w)

/-- CP2 WR (R372): a register of the PDn page ← rb. -/
def execCp2Wr (x : Fin 8) (f : BitVec 26) (s : State) : Host.Outcome State Fault Refusal :=
  s.cpInstr x 2 1 f (fun m w => m.cpWrite x 2 w)

/-- The TXCTL write that GO stands for (R372). -/
def goWord (b : Nat) : Nat :=
  if b % 4 = 0 then 2 ^ 31 else if b % 4 = 1 then 2 ^ 31 + 2 ^ 28 else if b % 4 = 2 then 2 ^ 27 else 2 ^ 26

/-- CP2 GO (R372): as the TXCTL write. -/
def execCp2Go (x : Fin 8) (f : BitVec 26) (s : State) : Host.Outcome State Fault Refusal :=
  s.cpInstr x 2 2 f (fun m w => m.cpCheck x 2 w 1 (fun m =>
    (m.txctlWrite (wUnit w) (goWord (m.g x (wRb w)))).engNext x))

/-- CP2 POP (R372): the head of the receive queue is dropped. -/
def execCp2Pop (x : Fin 8) (f : BitVec 26) (s : State) : Host.Outcome State Fault Refusal :=
  s.cpInstr x 2 3 f (fun m w => m.cpCheck x 2 w 1 (fun m => (m.rxPop (wUnit w)).engNext x))

/-- CP3 RD (R372): rd ← a register of the CAP page. -/
def execCp3Rd (x : Fin 8) (f : BitVec 26) (s : State) : Host.Outcome State Fault Refusal :=
  s.cpInstr x 3 0 f (fun m w => m.cpRead x 3 w)

/-- CP3 WR (R372): a register of the CAP page ← rb. -/
def execCp3Wr (x : Fin 8) (f : BitVec 26) (s : State) : Host.Outcome State Fault Refusal :=
  s.cpInstr x 3 1 f (fun m w => m.cpWrite x 3 w)

/-- A group of the latest Ledger evaluation, none for groups 6 and 7 (R372). OVER is the power above the cap that the
ladder works on. -/
def Chip.ldgGroup (m : Chip) (g : Nat) : Option (List Nat) :=
  let word := fun (f : Fld) => (m.rd (f.addr 0x1E)).toNat
  let group := fun (fs : List Fld) => fs.map word
  if g = 0 then some (group [CAP_LGRID_P, CAP_LBATC_P, CAP_LBATD_P, CAP_LANG_ANGLE])
  else if g = 1 then some (group [CAP_LDOMF_P, CAP_LDOMR_P, CAP_LPORTF_P, CAP_LANG_ANGLE])
  else if g = 2 then some (group [CAP_LPORTR_P, CAP_LAUX_P, CAP_LRECOV_P, CAP_LANG_ANGLE])
  else if g = 3 then some (group [CAP_LSURP_P, CAP_LRESID_P, CAP_OVER_OVER, CAP_LANG_ANGLE])
  else if g = 4 then some (group [CAP_LCYC_CYCLE, CAP_GRIDE_LO_DATA, CAP_GRIDE_HI_DATA, CAP_LANG_ANGLE])
  else if g = 5 then some (group [CAP_RECE_LO_DATA, CAP_RECE_HI_DATA, CAP_LCYC_CYCLE, CAP_LANG_ANGLE])
  else none

/-- CP3 LDG (R372): rd…rd + 3 ← group rb[2:0] of the latest Ledger evaluation; groups 6 and 7 trap with cause 3. -/
def execCp3Ldg (x : Fin 8) (f : BitVec 26) (s : State) : Host.Outcome State Fault Refusal :=
  s.cpInstr x 3 2 f (fun m w => m.cpCheck x 3 w 4 (fun m =>
    match m.ldgGroup (m.g x (wRb w) % 8) with
    | some vs => (m.setGs x (wRd w) vs).engNext x
    | none => m.trapW x 3 w))

/-- Engine-fed telemetry of a context (R373): HEALTH takes its value and the telemetry counts as good; a context that
is not on BUS 4 or is FREE sets REFUSE. `more` is what else the write carries. DEDUCED, unsafe (log 73). -/
def Chip.telem (m : Chip) (x : Fin 8) (c health : Nat) (more : Chip → Chip) : Chip :=
  if (m.ctx c).bus = 4 ∧ (m.ctx c).state ≠ 0 then
    (more (m.setCtx c { m.ctx c with health := health % 65536 })).ctxGood c
  else m.irq (engPg x) 7

/-- PACKT and PACKV of every string page that names a context (R372, R373). -/
def Chip.packWrite (m : Chip) (c t v : Nat) : Chip :=
  (m.batPages c).foldl (fun m b =>
    ((m.put (0x19 + b) BAT_PACKT_T t).put (0x19 + b) BAT_PACKV_VMIN v).put (0x19 + b) BAT_PACKV_VMAX (v / 65536)) m

/-- The word after rd; for rd 15 no register stands there, and the word is free. DESIGN CHOICE, safe (log 3); DEDUCED,
unsafe (log 73). -/
def Chip.gAfter (m : Chip) (x : Fin 8) (i : Nat) : Nat × Chip :=
  if i < 15 then (m.g x (i + 1), m) else (m.freeWord.1.toNat, m.freeWord.2)

/-- CP3 TELEM (R372, R373): HEALTH of ctx ra[6:0] ← rb[15:0]. -/
def execCp3Telem (x : Fin 8) (f : BitVec 26) (s : State) : Host.Outcome State Fault Refusal :=
  s.cpInstr x 3 3 f (fun m w => m.cpCheck x 3 w 1 (fun m =>
    (m.telem x (m.g x (wRa w) % 128) (m.g x (wRb w)) id).engNext x))

/-- CP3 TELEMB (R372, R373): as TELEM, with PACKT ← g[rd][15:0] and PACKV ← g[rd + 1]. DEDUCED, unsafe (log 73). -/
def execCp3Telemb (x : Fin 8) (f : BitVec 26) (s : State) : Host.Outcome State Fault Refusal :=
  s.cpInstr x 3 4 f (fun m w => m.cpCheck x 3 w 1 (fun m =>
    let v := m.gAfter x (wRd w)
    let c := m.g x (wRa w) % 128
    (v.2.telem x c (m.g x (wRb w)) (fun n => n.packWrite c (m.g x (wRd w)) v.1)).engNext x))

end Sys2Proof.Machine
end

