-- ==== Sys2Proof/Machine/Startup.lean ====
section
/-! DEFINITION. The configuration loader (R425–R429) and the boot phases it serves (R506–R508): the base configuration,
the overlay of STARTMODE, run entry, and an armed mode switch at its boundary. -/

namespace Sys2Proof.Machine

/-! ### Entries -/

/-- How an entry fares: written, skipped because it names something absent, refused (R426). -/
inductive EntryEnd where
  | applied | skipped | refused
deriving DecidableEq, Repr

/-- The counts of an application of entries, with the machine. -/
structure LoadRun where
  chip : Chip
  applied : Nat := 0
  skipped : Nat := 0
  refused : Nat := 0

/-- Count an entry's end. -/
def LoadRun.next (l : LoadRun) (e : EntryEnd × Chip) : LoadRun :=
  match e.1 with
  | .applied => { l with chip := e.2, applied := l.applied + 1 }
  | .skipped => { l with chip := e.2, skipped := l.skipped + 1 }
  | .refused => { l with chip := e.2, refused := l.refused + 1 }

/-- IRQ bits of a page by which its unit reports a refused command: REJ and ERR of an operation, and the unit's own.
DEDUCED, unsafe (log 81). -/
def refuseBits (pg : Nat) : Nat :=
  0x6 +
  (if 0x06 ≤ pg ∧ pg ≤ 0x09 then 2 ^ 9 else if pg = 0x0C then 2 ^ 9 else if 0x0D ≤ pg ∧ pg ≤ 0x0F then 2 ^ 10 + 2 ^ 11
  else if 0x10 ≤ pg ∧ pg ≤ 0x17 then 2 ^ 9 else if 0x19 ≤ pg ∧ pg ≤ 0x1C then 2 ^ 13 else if pg = 0x20 then 2 ^ 7
  else if pg = 0x21 ∨ pg = 0x24 ∨ pg = 0x25 then 2 ^ 6 else if 0x28 ≤ pg ∧ pg ≤ 0x2F then 2 ^ 7
  else if pg = 0x34 then 2 ^ 4 else 0)

/-- The page whose IRQ_RAW reports refusals of writes to a page: the Phase Manager's for the PWM pages. -/
def refusePage (pg : Nat) : Nat := if pg = 0x0A ∨ pg = 0x0B then 0x0C else pg

/-- Is a write that sets no refusal bit dropped whole: LVL of Thermal, MODE of the store, PUTTAG by the loader?
DEDUCED, unsafe (log 81). -/
def Chip.droppedWrite (m : Chip) (pg o v : Nat) : Bool :=
  if pg = 0x22 ∧ o = 0x040 then
    let n := m.plainWrite 3 (pg * 0x400 + o) v
    !(decide (n.getS 0x22 THM_LVL_TH1 < n.getS 0x22 THM_LVL_TH2) && decide (n.getS 0x22 THM_LVL_TH2 < n.getS 0x22 THM_LVL_TH3))
  else if pg = 0x23 ∧ o = 0x040 then (m.nvCfgWrite v).get 0x23 NVM_CFG_MODE != v % 2
  else pg == 0x30 && o == 0x05C

/-- Is a write an accepted SOFTRST of the page that reports it, whose IRQ_RAW it resets (R34)? -/
def resetsPage (addr v : Nat) : Bool :=
  let pg := addr / 0x400
  addr % 0x400 == 8 && bit v 1 && refusePage pg == pg && !(pg == 0 || pg == 1 || pg == 0x36 || pg == 0x37 || pg == 0x3F)

/-- The loader writes a register: whether its target refused it. The page's refusal bits are taken off for the write,
so that one set already does not hide a refusal, and put back. DEDUCED, unsafe (log 81). -/
def Chip.cfgReg (m : Chip) (addr v : Nat) : EntryEnd × Chip :=
  let pg := refusePage (addr / 0x400)
  if m.regAbsent addr then (.skipped, m)
  else if addr % 0x400 = 0x10 ∨ addr % 0x400 = 0x14 ∨ addr = GLB_ERRS_LOCKWR.addr 0 then (.applied, (m.regWrite 3 addr v).2)
  else
    let dropped := m.droppedWrite (addr / 0x400) (addr % 0x400) v
    let mask := refuseBits pg
    let was := m.get pg HDR_IRQ_RAW_BITS &&& mask
    let m := m.put pg HDR_IRQ_RAW_BITS (m.get pg HDR_IRQ_RAW_BITS ^^^ was)
    let x := m.regWrite 3 addr v
    if x.2.held then (.applied, x.2)
    else
      let now := x.2.get pg HDR_IRQ_RAW_BITS &&& mask
      let m := if resetsPage addr v && now == 0 then x.2
        else x.2.put pg HDR_IRQ_RAW_BITS (x.2.get pg HDR_IRQ_RAW_BITS ||| was)
      (if x.1 || dropped || now != 0 then .refused else .applied, m)

/-- An entry of KIND 0 (R425). -/
def Chip.cfgWrite (m : Chip) (ctl v : Nat) : EntryEnd × Chip :=
  let a := entryAddr ctl
  if 0x10000 ≤ a ∨ a % 4 ≠ 0 then (.refused, m) else m.cfgReg a v

/-- An entry of KIND 1: an engine is loaded, and the loader waits for the end of the load (R425). -/
def Chip.cfgLoad (m : Chip) (ctl v : Nat) : EntryEnd × Chip :=
  let x : Fin 8 := Fin.ofNat 8 (entryAddr ctl)
  let pg := engPg x
  if m.busy pg then (.refused, m.irq pg 2)
  else
    let m := (m.wr (pg * 0x400 + 0x24) (BitVec.ofNat 32 v)).startOp pg 1 3 (fun m => m.engOpStart x)
    let m := match m.opOf pg with
      | some o => m.engLoadEnd x o
      | none => m
    (if m.has pg HDR_STATUS_ERR then .refused else .applied, m)

/-- One entry of the base configuration. DEDUCED, unsafe (log 81). -/
def Chip.cfgEntry (m : Chip) (ctl v : Nat) : EntryEnd × Chip :=
  if entryKind ctl = 0 then m.cfgWrite ctl v
  else if entryKind ctl = 1 then m.cfgLoad ctl v
  else if entryKind ctl = 2 then (.applied, m.advanceTicks (200 * (v % 65536)))
  else (.refused, m)

/-- Apply entries in order up to one of KIND 0xF, or to a reset that an entry brings (R425, R426). -/
def applyEntries (l : LoadRun) : List (Nat × Nat) → LoadRun
  | [] => l
  | e :: t => if entryKind e.1 = 0xF ∨ l.chip.held then l else applyEntries (l.next (l.chip.cfgEntry e.1 e.2)) t

/-! ### Base configuration (R426) -/

/-- The base configuration is not applied, for a cause. -/
def Chip.baseBad (m : Chip) (f : Fld) (cause : Nat) : Chip := ((m.put 0x38 f 1).irq 0x38 7).emit 0x8010 [cause]

/-- The base configuration's entries are applied. -/
def Chip.baseRun (m : Chip) (es : List (Nat × Nat)) : Chip :=
  let l := applyEntries { chip := m } es
  if l.chip.held then l.chip
  else
    let m := l.chip.put 0x38 OVL_BOOTA_APPLIED l.applied
    let m := (m.put 0x38 OVL_BOOTB_SKIPPED l.skipped).put 0x38 OVL_BOOTB_REFUSED l.refused
    let m := if l.refused = 0 then m else m.irq 0x38 5
    if l.skipped = 0 ∧ l.refused = 0 then m else m.emit 0x8011 [l.skipped, l.refused]

/-- The loader applies the base configuration (R425, R426). A COUNT above its range is as a wrong CRC. DEDUCED, unsafe
(log 80). -/
def Chip.baseApply (m : Chip) : Chip :=
  let h := m.cfgBytes 0x78000 4
  let count := byteAt h.1 2 + 256 * byteAt h.1 3
  if m.boot.phase ≠ 2 ∨ m.nvClosed ∨ m.cfgWaits 0x78000 4 ∨ (count ≤ 2814 ∧ m.cfgWaits 0x78010 (2 * count)) then m
  else
    let m := { h.2 with boot := { h.2.boot with phase := 3 } }
    if byteAt h.1 0 ≠ 1 ∨ byteAt h.1 1 ≠ 0 then m.baseBad OVL_BOOTST_NOIMG 1
    else if 2814 < count then m.baseBad OVL_BOOTST_CFGBAD 2
    else
      let b := m.cfgBytes 0x78010 (2 * count)
      if crc32 b.1 ≠ le32 (h.1.drop 8) then b.2.baseBad OVL_BOOTST_CFGBAD 2
      else ({ b.2 with boot := { b.2.boot with startMode := byteAt h.1 12 } }).baseRun (cfgEntries count b.1)

/-- BASE_CONFIG_APPLY (R426). -/
def execBaseConfigApply (s : State) : Host.Outcome State Fault Refusal := s.run Chip.baseApply

/-! ### Overlays (R427–R429, R507) -/

/-- The entries of an overlay are written, and the apply is reported (R429). -/
def Chip.ovlApply (m : Chip) (k : Nat) (es : List (Nat × Nat)) (late : Bool) : Chip :=
  let l := applyEntries { chip := m } es
  if l.chip.held then l.chip
  else
    let m := ((l.chip.put 0x38 OVL_STAT_APPLIED l.applied).put 0x38 OVL_STAT_SKIPPED l.skipped).put 0x38
      OVL_STAT_REFUSED l.refused
    let m := (m.put 0x38 OVL_MODE_MODE k).irq 0x38 4
    let m := if l.refused = 0 then m else m.irq 0x38 5
    m.emit 0x8012 [k, l.applied, l.refused, b2n late]

/-- Does the boot apply no overlay (R507)? -/
def Chip.noOverlay (m : Chip) : Bool :=
  decide (8 ≤ m.boot.startMode) || m.has 0x38 OVL_BOOTST_NOIMG || m.has 0x38 OVL_BOOTST_CFGBAD

/-- The overlay of STARTMODE in phase 4 (R507), once no page of it is being written (R424). -/
def Chip.startOverlay (m : Chip) : Chip :=
  let k := m.boot.startMode
  if m.boot.phase ≠ 3 || m.nvClosed || (!m.noOverlay && m.ovlWaits k) then m
  else
    let m := { m with boot := { m.boot with phase := 4 } }
    if m.noOverlay then m
    else
      match m.ovlCheck k with
      | (.ok es, m) => m.ovlApply k es false
      | (.bad why, m) => m.ovlFail k why

/-- STARTMODE_OVERLAY_APPLY (R507). -/
def execStartmodeOverlayApply (s : State) : Host.Outcome State Fault Refusal := s.run Chip.startOverlay

/-- The stamp of the waypoint boundary to come, which the wrap's cycle count precedes (R96). DEDUCED, unsafe (log 82).
-/
def Chip.nextBoundary (m : Chip) : Nat :=
  let t := m.tim
  if t.wrapDone then t.cycle * 65536
  else if t.angle / 256 = 255 then
    (if m.has 2 TTB_STAT_ADJP then m.get 2 TTB_CYCADJ_CYC else (t.cycle + 1) % 2 ^ 32) * 65536
  else t.cycle * 65536 + (t.angle / 256 + 1) * 256

/-- An armed switch at a waypoint boundary, before stage 1 (R428, R429). DEDUCED, unsafe (log 82). -/
def Chip.ovlStage (m : Chip) : Chip :=
  let tgt := m.get 0x38 OVL_SWCYC_CYC * 65536 + m.get 0x38 OVL_SWCTL_TGTWP * 256
  let next := m.has 0x38 OVL_SWCTL_NEXT || m.ovl.defer
  let late := !next && stampBefore tgt m.nextBoundary
  if !m.has 0x38 OVL_SWCTL_ARM || !m.has 0x38 OVL_SWCTL_PRELOADED then m
  else if !(next || stampReached m.nextBoundary tgt) then m
  else
    let m := if late then m.put 0x38 OVL_SWCTL_LATE 1 else m
    if m.has 0x38 OVL_SWCTL_LOCKREQ && !m.lockPermitted then { m with ovl := { m.ovl with defer := true, late := m.ovl.late || late } }
    else
      let es := m.ovl.entries
      let k := m.get 0x38 OVL_SWCTL_OVL
      let isLate := m.ovl.late || late
      let m := m.ovlApply k es isLate
      if m.held then m
      else { (m.put 0x38 OVL_SWCTL_ARM 0).put 0x38 OVL_SWCTL_PRELOADED 0 with ovl := {} }

/-! ### Run entry (R508) -/

/-- Run is entered: the output hold is released, Pairing is released with PPOS and PAIRED as they stand, and a solo
controller takes its role (R484, R507, R508). DEDUCED, unsafe (log 83). -/
def Chip.runEntry (m : Chip) : Chip :=
  if m.boot.phase = 4 ∨ (m.boot.phase = 3 ∧ m.noOverlay = true) then
    let m := { m with boot := { m.boot with phase := 5 } }
    let m := (m.put 0x37 PIN_STAT_OHOLD 0).put 0x01 CLK_BOOT_TIME (satU 16 (m.tim.tick / 2000))
    let m := m.putB 0x35 PAIR_STAT_POS m.die.ppos
    let m := { m with pair := { m.pair with released := true, since := m.tim.tick,
                                            paired := m.has 0x35 PAIR_CFG_PAIRED } }
    let m := m.emit 0xA041 [m.get 0x01 CLK_BOOT_TIME,
      m.get 0x38 OVL_BOOTST_NOIMG + 2 * m.get 0x38 OVL_BOOTST_CFGBAD, m.boot.startMode]
    if m.pair.paired then m else m.roleChange 2 0
  else m

/-- RUN_ENTRY (R508). DEDUCED, unsafe (log 83). -/
def execRunEntry (s : State) : Host.Outcome State Fault Refusal := s.run Chip.runEntry

end Sys2Proof.Machine
end

