-- ==== Sys2Proof/Machine/Outputs.lean ====
section
/-! DEFINITION. The output balls whose level no unit's own file gives (R510): domain gates, PMSO, INT#, the Uttia lanes, the
PMBus ports, DBGTX, MISO and the SDA of the I²C target, the last two by the bit of a frame. PH balls are `Chip.phLevel`,
ISHARE `Chip.ishareLow`, a port's balls `Chip.grdLevel`, `Chip.psenLevel`, `Chip.psdirLevel`, `Chip.vsetLevel` and
`Chip.ccLevel`, GPIO balls `Chip.gpioBall`. -/

namespace Sys2Proof.Machine

/-- Has run been entered, with the output hold released (R508)? -/
def Chip.inRun (m : Chip) : Bool := !m.held && !m.has 0x37 PIN_STAT_OHOLD

/-- GATEn: as the domain drives it, while the controller drives shared outputs and the member carries the domain (R9,
R26, R236). -/
def Chip.gateLevel (m : Chip) (n : Nat) : Gate :=
  if m.inRun && m.leads && decide (n < nDomains m.die.part) then (m.dm n).gate else .highZ

/-- PMSO: high while master, low while standby or solo and in boot, high-impedance in reset (R479, R484). -/
def Chip.pmsoLevel (m : Chip) : BallLevel := if m.held then .highZ else if m.role = 1 then .high else .low

/-- INT#, an open-drain output that works from reset release (R46, R509). -/
def Chip.intLevel (m : Chip) : BallLevel := if !m.held && m.intAsserted then .low else .highZ

/-- Are the Uttia lanes driven: from run entry (R481)? -/
def Chip.lanesDriven (m : Chip) : Bool := m.inRun

/-- May a PMBus port be driven: by a master or solo controller in run (R63, R68)? -/
def Chip.pmbDriven (m : Chip) : Bool := m.inRun && m.leads

/-- MISO: high-impedance in reset and while CS# is high; during a frame, bit by bit from the highest, the 64-bit word
that the frame shifts out (R49, R51, R510). Between two commands CS# is high. -/
def Chip.misoLevel (m : Chip) (csLow : Bool) (k : Nat) : BallLevel :=
  if m.held || !csLow then .highZ else if m.host.spiOut.getLsbD (63 - k) then .high else .low

/-- SDA as the I²C target drives it, open-drain: high-impedance in reset and while it sends nothing, low for a bit 0
that it sends, be it data or an acknowledge (R57, R510). Between two commands it sends nothing. -/
def Chip.sdaLevel (m : Chip) (sends : Option Bool) : BallLevel :=
  if !m.held && m.has 0x36 HIF_CFG_I2CEN && sends == some false then .low else .highZ

/-- DBGTX between characters: idle high from reset release (R510). -/
def Chip.dbgtxIdle (m : Chip) : BallLevel := if m.held then .highZ else .high

end Sys2Proof.Machine
end

