-- ==== Sys2Proof/Machine/Boundary.lean ====
section
/-! DEFINITION. The steps in which several units act in order: the waypoint boundary with stages 1–8 of R15, the cycle
boundary (R93, R96, R97), the tracking update with its forward step (R84, R87, R88), fast samples (R102) and SAR
conversions (R111). -/

namespace Sys2Proof.Machine

/-! ### Cycle boundary -/

/-- The angle wraps (R93, R96, R97): the cycle count advances or takes CYCADJ. An adjustment closes long windows
(R108), and a forward one marks what it skips. What a loop counts by cycles (R150) follows in the waypoint boundary of
the same instant, once waypoint 255 is adapted. DESIGN CHOICE, safe (log 32). -/
def Chip.cycleBoundary (m : Chip) : Chip :=
  if m.tim.stopped || m.tim.wrapDone || m.tim.angle / 256 != 255 then m
  else
    let old := m.tim.cycle
    let adj := m.has 2 TTB_STAT_ADJP
    let m := m.ttbWrap.calCycle
    if !adj then m
    else
      let new := m.tim.cycle
      let m := { m with mea := { m.mea with shorten := true } }
      if stampBefore (old * 65536) (new * 65536) then
        (List.range 8).foldl (fun m x => m.waitaSkip old new (Fin.ofNat 8 x)) ((m.snapSkip old new).schSkip old new)
      else m

/-- CYCLE_BOUNDARY (R93). DESIGN CHOICE, safe (log 32). -/
def execCycleBoundary (s : State) : Host.Outcome State Fault Refusal := s.run Chip.cycleBoundary

/-! ### Waypoint boundary -/

/-- A cycle boundary sent before its waypoint boundary is of the same clock: a trigger it brought, or had refused, moves
with it to the boundary's tick (R470, R471). -/
def Chip.bbxSameClock (m : Chip) (old : Nat) : Chip :=
  { m with bbx := { m.bbx with
      lastTrig := if m.bbx.lastTrig = old then m.tim.tick else m.bbx.lastTrig
      lastRefuse := if m.bbx.lastRefuse = some old then some m.tim.tick else m.bbx.lastRefuse } }

/-- The tick counter stands at the boundary: the waypoint closed took `ticks` since the boundary before it. DESIGN
CHOICE, safe (log 32). -/
def Chip.waypointTicks (m : Chip) (ticks : Nat) : Chip :=
  let at_ := m.tim.wpTick + ticks
  let old := m.tim.tick
  let m := if old < at_ then m.advanceTicks (at_ - old) else m
  let m := if m.tim.wrapDone then m.bbxSameClock old else m
  { m with tim := { m.tim with wpTick := m.tim.tick } }

/-- The Ledger's entry in the Depot, every LDIV waypoints (R388, R400). -/
def Chip.ledDepot (m : Chip) : Chip :=
  let n := m.dep.ledgerCnt + 1
  if Nat.max 1 (m.get 0x30 DEP_SRCCFG_LDIV 10) ≤ n then
    ({ m with dep := { m.dep with ledgerCnt := 0 } }).depot 10 1
      (m.get 0x1E CAP_LGRID_P + m.get 0x1E CAP_LRECOV_P * 2 ^ 32)
  else { m with dep := { m.dep with ledgerCnt := n } }

/-- Lock-required angle waits at a boundary (R366). DEDUCED, safe (log 35). -/
def Chip.waitaBoundary (m : Chip) (x : Fin 8) : Chip :=
  match (m.engSt x).wait with
  | .angle _ _ true _ _ => m.waitaTest x
  | _ => m

/-- The stamp that results of the boundary's stages carry (R387). -/
def Chip.stampWp (m : Chip) : Chip := { m with tim := { m.tim with wpStamp := m.stamp } }

/-- Stage 1 of R15 with the pairing's part of the boundary. DEDUCED, unsafe (log 33). -/
def Chip.stageTime (m : Chip) : Chip := (((m.cycleBoundary.ttbWaypoint).stampWp).pairStage).pmWaypoint

/-- Stages 2 and 3: the results of the waypoint closed, the Meter, the Ledger and the battery estimators. DEDUCED,
unsafe (log 33). -/
def Chip.stageMeter (m : Chip) (x : WpInputs) : Chip :=
  let held := m.cal.out
  let m := ((m.meaWaypoint x).meterStage x held).calWaypoint x
  ((m.ledStage x.ticks.toNat).ledDepot).batStage

/-- Stages 4–7: Hold-up, Cap with the port targets that follow it, Share, Sequencing. DEDUCED, unsafe (log 33). -/
def Chip.stageBus (m : Chip) (x : WpInputs) : Chip :=
  ((((m.huStage).capStage).portStage x.ticks.toNat).shStage).seqStage.domHeldStage

/-- Stage 8, adaptation and fading, and at angle 0 what the loops count by cycles (R148–R150, R158, R159). DEDUCED,
unsafe (log 33); DEDUCED, unsafe (log 34). -/
def Chip.stageLoops (m : Chip) : Chip :=
  let m := m.marStage.rippleAll
  if m.tim.angle = 0 then m.rippleCycles else m

/-- The whole of a waypoint boundary (R15, R429). While the angle is stopped nothing is issued (R88). DESIGN CHOICE,
safe (log 32); DEDUCED, unsafe (log 33). -/
def Chip.boundary (m : Chip) (x : WpInputs) : Chip :=
  if m.tim.stopped then m
  else
    let m := (m.waypointTicks x.ticks.toNat).ovlStage
    if m.held then m
    else
      let m := (((m.stageTime).stageMeter x).stageBus x).stageLoops.bbxPoint
      (List.range 8).foldl (fun m k => m.waitaBoundary (Fin.ofNat 8 k)) m

/-- WAYPOINT_BOUNDARY (R15). DESIGN CHOICE, safe (log 12). -/
def execWaypointBoundary (x : WpInputs) (s : State) : Host.Outcome State Fault Refusal := s.run (fun m => m.boundary x)

/-! ### Tracking update -/

/-- Slots from the present angle up to another angle of the same waypoint fire in ascending order (R88). DEDUCED,
unsafe (log 31). -/
def Chip.slotsUpTo (m : Chip) (last : Nat) : Chip :=
  (sortBy (fun n => m.get 2 TTB_SLOTCFG_ANGLE n) (List.range 16)).foldl (fun m n => if m.get 2 TTB_SLOTCFG_ANGLE n ≤ last then (m.slotMatch n).settle else m) m

/-- Every window in progress contains a forward step (R107). DEDUCED, unsafe (log 31). -/
def Chip.windowsStepped (m : Chip) : Chip :=
  { m with mea := { m.mea with wins := m.mea.wins.map (fun w => { w with bad := true }) } }

/-- Inputs of a waypoint of zero duration. DEDUCED, unsafe (log 31). -/
def zeroInputs : WpInputs := { ticks := 0, raw := [], prod := [], portI := [], portV := [], portP := [], cal := [] }

/-- A forward step by `d` (R87, R88): slots and boundaries crossed are issued in ascending order. `cut` is what the
converters integrated over the waypoint that the step cuts short; the waypoints after it have zero duration. DEDUCED,
unsafe (log 31). -/
def Chip.angleStep : Nat → Nat → WpInputs → Chip → Chip
  | 0, _, _, m => m
  | k + 1, d, cut, m =>
    let a := m.tim.angle
    let room := (a / 256 + 1) * 256 - a
    if d = 0 then m.slotsUpTo a
    else if d < room then
      let m := (m.slotsUpTo (a + d)).windowsStepped
      { m with tim := { m.tim with angle := a + d, frac := 0 } }
    else
      let m := (m.slotsUpTo (a + room - 1)).windowsStepped
      Chip.angleStep k (d - room) zeroInputs (m.boundary cut).settle

/-- A tracking update (R84–R92) with what follows from it at once: Hold-up's trigger at a mains-loss declaration
(R221), and the forward step of the alignment. DEDUCED, unsafe (log 31). -/
def Chip.trackStep (m : Chip) (x : Sense) (cut : WpInputs) : Chip :=
  let t := m.track x
  let m := if t.lost then t.chip.huTrigger 1 else t.chip
  if t.step = 0 then m else Chip.angleStep 129 t.step cut m

/-- TRACKING_UPDATE (R84). DESIGN CHOICE, safe (log 12). -/
def execTrackingUpdate (x : Sense) (cut : WpInputs) (s : State) : Host.Outcome State Fault Refusal :=
  s.run (fun m => m.trackStep x cut)

/-! ### Samples -/

/-- FAST_SAMPLE (R102): the samples, then the over-voltage test (R191), the loops' feedback (R161) and the sag test
(R220). DESIGN CHOICE, safe (log 12). -/
def execFastSample (raw : List (BitVec 32)) (s : State) : Host.Outcome State Fault Refusal :=
  s.run (fun m => (((m.meaFast raw).ovDigital).marFast).huFast)

/-- A SAR conversion (R111) goes to its result register and to the unit that uses it; phase currents are taken at the
loop's frame. -/
def Chip.sarStep (m : Chip) (input code gap : Nat) : Chip :=
  if !m.sarServes input then m
  else
    let m := m.sarStore input code gap
    if input < 24 then m.supSar input code
    else if input < 40 then m.phServed (input - 24)
    else if input < 48 then m.portSar (input - 40) false code
    else m.portSar (input - 48) true code

/-- SAR_CONVERSION (R111). DESIGN CHOICE, safe (log 12). -/
def execSarConversion (input : Fin 56) (code : BitVec 12) (gap : BitVec 16) (s : State) :
    Host.Outcome State Fault Refusal :=
  s.run (fun m => m.sarStep input.val code.toNat gap.toNat)

end Sys2Proof.Machine
end

