-- ==== Sys2Proof/Machine/Dispatch.lean ====
section
/-! DEFINITION. One arm per command: the command's meaning, or its rejection by name. -/

namespace Sys2Proof.Machine

/-- The effect of a command on the machine. -/
def exec (i : Instr) (s : State) : Host.Outcome State Fault Refusal :=
  match i with
  | .registerWrite r addr v => Sys2Proof.Machine.execRegisterWrite r addr v s
  | .rsRegisterRead r addr => Sys2Proof.Machine.execRsRegisterRead r addr s
  | .ctrlSoftrst r page => Sys2Proof.Machine.execCtrlSoftrst r page s
  | .opcmdAbort r page => Sys2Proof.Machine.execOpcmdAbort r page s
  | .longOperationEnd page => Sys2Proof.Machine.execLongOperationEnd page s
  | .part0Read r page => Sys2Proof.Machine.execPart0Read r page s
  | .keyWrite r page v => Sys2Proof.Machine.execKeyWrite r page v s
  | .unlockLapse r page => Sys2Proof.Machine.execUnlockLapse r page s
  | .keyBarExpiry r => Sys2Proof.Machine.execKeyBarExpiry r s
  | .intRearmPulseEnd => Sys2Proof.Machine.execIntRearmPulseEnd s
  | .swrstWrite r v => Sys2Proof.Machine.execSwrstWrite r v s
  | .spiFrame w => Sys2Proof.Machine.execSpiFrame w s
  | .spiPartialFrame nbits => Sys2Proof.Machine.execSpiPartialFrame nbits s
  | .i2cWrite bytes => Sys2Proof.Machine.execI2cWrite bytes s
  | .i2cRead bytes ready => Sys2Proof.Machine.execI2cRead bytes ready s
  | .i2cSclTimeout received => Sys2Proof.Machine.execI2cSclTimeout received s
  | .uartReadLine line => Sys2Proof.Machine.execUartReadLine line s
  | .uartWriteLine line => Sys2Proof.Machine.execUartWriteLine line s
  | .pmbusPollRound port => Sys2Proof.Machine.execPmbusPollRound port s
  | .pmbusTransactionEnd e port => Sys2Proof.Machine.execPmbusTransactionEnd e port s
  | .pmbusSdaStuck port => Sys2Proof.Machine.execPmbusSdaStuck port s
  | .smbalertService port target acked => Sys2Proof.Machine.execSmbalertService port target acked s
  | .pmbRawTransaction r port arg => Sys2Proof.Machine.execPmbRawTransaction r port arg s
  | .pmbusSnoopResponse port ctx cmd data => Sys2Proof.Machine.execPmbusSnoopResponse port ctx cmd data s
  | .ctxEntry0Write r v => Sys2Proof.Machine.execCtxEntry0Write r v s
  | .trackingUpdate x cut => Sys2Proof.Machine.execTrackingUpdate x cut s
  | .holdoverExpiry => Sys2Proof.Machine.execHoldoverExpiry s
  | .ttbEnableWrite r en => Sys2Proof.Machine.execTtbEnableWrite r en s
  | .nomfWrite r v => Sys2Proof.Machine.execNomfWrite r v s
  | .stmpcRead r => Sys2Proof.Machine.execStmpcRead r s
  | .tickloRead r => Sys2Proof.Machine.execTickloRead r s
  | .waypointBoundary x => Sys2Proof.Machine.execWaypointBoundary x s
  | .cycleBoundary => Sys2Proof.Machine.execCycleBoundary s
  | .cycadjWrite r v => Sys2Proof.Machine.execCycadjWrite r v s
  | .slotFire n => Sys2Proof.Machine.execSlotFire n s
  | .fastSample raw => Sys2Proof.Machine.execFastSample raw s
  | .sarConversion input code gap => Sys2Proof.Machine.execSarConversion input code gap s
  | .calRoundStart => Sys2Proof.Machine.execCalRoundStart s
  | .calStale chain => Sys2Proof.Machine.execCalStale chain s
  | .calRoundAll r => Sys2Proof.Machine.execCalRoundAll r s
  | .calOneChain r arg => Sys2Proof.Machine.execCalOneChain r arg s
  | .chgfLoRead r => Sys2Proof.Machine.execChgfLoRead r s
  | .metClearAccumulators r mask => Sys2Proof.Machine.execMetClearAccumulators r mask s
  | .snapctlWrite r v => Sys2Proof.Machine.execSnapctlWrite r v s
  | .snaprelWrite r v => Sys2Proof.Machine.execSnaprelWrite r v s
  | .loopFrame x net => Sys2Proof.Machine.execLoopFrame x net s
  | .feedbackLost x => Sys2Proof.Machine.execFeedbackLost x s
  | .rippleTableClear r x => Sys2Proof.Machine.execRippleTableClear r x s
  | .modecmdAuto r x => Sys2Proof.Machine.execModecmdAuto r x s
  | .modecmdManual r x => Sys2Proof.Machine.execModecmdManual r x s
  | .modecmdReload r x => Sys2Proof.Machine.execModecmdReload r x s
  | .loopEnableWrite r x en => Sys2Proof.Machine.execLoopEnableWrite r x en s
  | .lperWrite r x v => Sys2Proof.Machine.execLperWrite r x v s
  | .phcfgLoopWrite r k v => Sys2Proof.Machine.execPhcfgLoopWrite r k v s
  | .holdoffExpiry x => Sys2Proof.Machine.execHoldoffExpiry x s
  | .derateRequestRelease x => Sys2Proof.Machine.execDerateRequestRelease x s
  | .phaseReadmitTimeout k => Sys2Proof.Machine.execPhaseReadmitTimeout k s
  | .phclrWrite r v => Sys2Proof.Machine.execPhclrWrite r v s
  | .ovLatchSet x above => Sys2Proof.Machine.execOvLatchSet x above s
  | .ovclrWrite r v => Sys2Proof.Machine.execOvclrWrite r v s
  | .vselInvalid => Sys2Proof.Machine.execVselInvalid s
  | .setaBlock sum isOver => Sys2Proof.Machine.execSetaBlock sum isOver s
  | .setpPeriod thigh period => Sys2Proof.Machine.execSetpPeriod thigh period s
  | .setpTimeout => Sys2Proof.Machine.execSetpTimeout s
  | .shareEnableWrite r en => Sys2Proof.Machine.execShareEnableWrite r en s
  | .shareCadence => Sys2Proof.Machine.execShareCadence s
  | .lgridRead r => Sys2Proof.Machine.execLgridRead r s
  | .grideLoRead r => Sys2Proof.Machine.execGrideLoRead r s
  | .capStepAdvance => Sys2Proof.Machine.execCapStepAdvance s
  | .capStepRelease => Sys2Proof.Machine.execCapStepRelease s
  | .capSurplus => Sys2Proof.Machine.execCapSurplus s
  | .capDerateNoresp ctx => Sys2Proof.Machine.execCapDerateNoresp ctx s
  | .capEnableWrite r en => Sys2Proof.Machine.execCapEnableWrite r en s
  | .holdupEnableWrite r en => Sys2Proof.Machine.execHoldupEnableWrite r en s
  | .holdupReturnStart => Sys2Proof.Machine.execHoldupReturnStart s
  | .holdupRampStep => Sys2Proof.Machine.execHoldupRampStep s
  | .holdupRamploRepeat => Sys2Proof.Machine.execHoldupRamploRepeat s
  | .holdupReturnTimeout => Sys2Proof.Machine.execHoldupReturnTimeout s
  | .holdupTest r arg => Sys2Proof.Machine.execHoldupTest r arg s
  | .monitorStep n x => Sys2Proof.Machine.execMonitorStep n x s
  | .presenceGained n => Sys2Proof.Machine.execPresenceGained n s
  | .presenceLost n => Sys2Proof.Machine.execPresenceLost n s
  | .insertionDelayEnd n => Sys2Proof.Machine.execInsertionDelayEnd n s
  | .gateOffWaitEnd n => Sys2Proof.Machine.execGateOffWaitEnd n s
  | .domainShortCircuit n since => Sys2Proof.Machine.execDomainShortCircuit n since s
  | .domainReverseShort n since => Sys2Proof.Machine.execDomainReverseShort n since s
  | .domainBreakerTrip n => Sys2Proof.Machine.execDomainBreakerTrip n s
  | .domainLimitTimeout n => Sys2Proof.Machine.execDomainLimitTimeout n s
  | .domainRampTimeout n => Sys2Proof.Machine.execDomainRampTimeout n s
  | .domainRetryStart n => Sys2Proof.Machine.execDomainRetryStart n s
  | .domainRcntReset n => Sys2Proof.Machine.execDomainRcntReset n s
  | .domainReverseBlock n cur => Sys2Proof.Machine.execDomainReverseBlock n cur s
  | .domainReverseReenable n => Sys2Proof.Machine.execDomainReverseReenable n s
  | .domainDamagedFet n => Sys2Proof.Machine.execDomainDamagedFet n s
  | .domainClearLatch r n => Sys2Proof.Machine.execDomainClearLatch r n s
  | .domainClearDamage r n => Sys2Proof.Machine.execDomainClearDamage r n s
  | .domainEnWrite r n en => Sys2Proof.Machine.execDomainEnWrite r n en s
  | .domainLevelWrite r n which v => Sys2Proof.Machine.execDomainLevelWrite r n which v s
  | .domPageEnableWrite r p en => Sys2Proof.Machine.execDomPageEnableWrite r p en s
  | .portEnableWrite r n en => Sys2Proof.Machine.execPortEnableWrite r n en s
  | .ccTerminationChange n cc1 cc2 => Sys2Proof.Machine.execCcTerminationChange n cc1 cc2 s
  | .tccDebounceExpiry n => Sys2Proof.Machine.execTccDebounceExpiry n s
  | .tpdDebounceExpiry n => Sys2Proof.Machine.execTpdDebounceExpiry n s
  | .ttryccDebounceExpiry n => Sys2Proof.Machine.execTtryccDebounceExpiry n s
  | .tdrpToggle n => Sys2Proof.Machine.execTdrpToggle n s
  | .tdrptryExpiry n => Sys2Proof.Machine.execTdrptryExpiry n s
  | .errorRecoveryEnd n => Sys2Proof.Machine.execErrorRecoveryEnd n s
  | .srcDisconnectExpiry n => Sys2Proof.Machine.execSrcDisconnectExpiry n s
  | .sinkDetach n => Sys2Proof.Machine.execSinkDetach n s
  | .vconnFault n cur => Sys2Proof.Machine.execVconnFault n cur s
  | .portInsertionDelayEnd n => Sys2Proof.Machine.execPortInsertionDelayEnd n s
  | .primeEnd n => Sys2Proof.Machine.execPrimeEnd n s
  | .guardDamageDetect n => Sys2Proof.Machine.execGuardDamageDetect n s
  | .pdMessageReceived n x => Sys2Proof.Machine.execPdMessageReceived n x s
  | .hardResetReceived n => Sys2Proof.Machine.execHardResetReceived n s
  | .hardResetStep n => Sys2Proof.Machine.execHardResetStep n s
  | .policyTimeout n => Sys2Proof.Machine.execPolicyTimeout n s
  | .txctlGo r n sopp => Sys2Proof.Machine.execTxctlGo r n sopp s
  | .txctlHardReset r n => Sys2Proof.Machine.execTxctlHardReset r n s
  | .txctlFrs r n => Sys2Proof.Machine.execTxctlFrs r n s
  | .pdTransmitEnd n e => Sys2Proof.Machine.execPdTransmitEnd n e s
  | .rxctlPop r n => Sys2Proof.Machine.execRxctlPop r n s
  | .cableDiscoverAttempt n ack => Sys2Proof.Machine.execCableDiscoverAttempt n ack s
  | .eprKeepaliveSend n => Sys2Proof.Machine.execEprKeepaliveSend n s
  | .eprKeepaliveTimeout n => Sys2Proof.Machine.execEprKeepaliveTimeout n s
  | .srcTransitionStart n => Sys2Proof.Machine.execSrcTransitionStart n s
  | .srcTransitionSettled n => Sys2Proof.Machine.execSrcTransitionSettled n s
  | .srcTransitionTimeout n => Sys2Proof.Machine.execSrcTransitionTimeout n s
  | .swapSequenceStep n => Sys2Proof.Machine.execSwapSequenceStep n s
  | .swapTimeout n => Sys2Proof.Machine.execSwapTimeout n s
  | .sourceCapsDelayEnd n => Sys2Proof.Machine.execSourceCapsDelayEnd n s
  | .frsSignalDetected n => Sys2Proof.Machine.execFrsSignalDetected n s
  | .frsVbusDrop n => Sys2Proof.Machine.execFrsVbusDrop n s
  | .frsAcceptTimeout n => Sys2Proof.Machine.execFrsAcceptTimeout n s
  | .frsSwapTimeout n => Sys2Proof.Machine.execFrsSwapTimeout n s
  | .guardTrip n x => Sys2Proof.Machine.execGuardTrip n x s
  | .portPresenceLost n => Sys2Proof.Machine.execPortPresenceLost n s
  | .guardRetryEnd n => Sys2Proof.Machine.execGuardRetryEnd n s
  | .guardRcntReset n => Sys2Proof.Machine.execGuardRcntReset n s
  | .portClearLatch r n => Sys2Proof.Machine.execPortClearLatch r n s
  | .portClearDamage r n => Sys2Proof.Machine.execPortClearDamage r n s
  | .portClearVconn r n => Sys2Proof.Machine.execPortClearVconn r n s
  | .statusPoll n => Sys2Proof.Machine.execStatusPoll n s
  | .statusPollMiss n => Sys2Proof.Machine.execStatusPollMiss n s
  | .restQualified n => Sys2Proof.Machine.execRestQualified n s
  | .estimatorStart n => Sys2Proof.Machine.execEstimatorStart n s
  | .batteryEnableWrite r n en => Sys2Proof.Machine.execBatteryEnableWrite r n en s
  | .svcReqTest r n => Sys2Proof.Machine.execSvcReqTest r n s
  | .svcReqNormal r n => Sys2Proof.Machine.execSvcReqNormal r n s
  | .capacityTest r n => Sys2Proof.Machine.execCapacityTest r n s
  | .setLearnedCapacity r n arg => Sys2Proof.Machine.execSetLearnedCapacity r n arg s
  | .pendingRecordCommit n => Sys2Proof.Machine.execPendingRecordCommit n s
  | .railFault n x => Sys2Proof.Machine.execRailFault n x s
  | .railFaultClear r v codes => Sys2Proof.Machine.execRailFaultClear r v codes s
  | .seqStepTimeout => Sys2Proof.Machine.execSeqStepTimeout s
  | .inputLossQualified => Sys2Proof.Machine.execInputLossQualified s
  | .inputReturnQualified => Sys2Proof.Machine.execInputReturnQualified s
  | .seqCmdUp r => Sys2Proof.Machine.execSeqCmdUp r s
  | .seqCmdDown r => Sys2Proof.Machine.execSeqCmdDown r s
  | .seqEnableWrite r en => Sys2Proof.Machine.execSeqEnableWrite r en s
  | .seqRetryDelayEnd => Sys2Proof.Machine.execSeqRetryDelayEnd s
  | .tempConversion t fault => Sys2Proof.Machine.execTempConversion t fault s
  | .tempSample => Sys2Proof.Machine.execTempSample s
  | .add x f => Sys2Proof.Machine.execAdd x f s
  | .sub x f => Sys2Proof.Machine.execSub x f s
  | .and x f => Sys2Proof.Machine.execAnd x f s
  | .or x f => Sys2Proof.Machine.execOr x f s
  | .xor x f => Sys2Proof.Machine.execXor x f s
  | .shl x f => Sys2Proof.Machine.execShl x f s
  | .shr x f => Sys2Proof.Machine.execShr x f s
  | .asr x f => Sys2Proof.Machine.execAsr x f s
  | .mul x f => Sys2Proof.Machine.execMul x f s
  | .mulh x f => Sys2Proof.Machine.execMulh x f s
  | .mulhu x f => Sys2Proof.Machine.execMulhu x f s
  | .min x f => Sys2Proof.Machine.execMin x f s
  | .max x f => Sys2Proof.Machine.execMax x f s
  | .adds x f => Sys2Proof.Machine.execAdds x f s
  | .subs x f => Sys2Proof.Machine.execSubs x f s
  | .div x f => Sys2Proof.Machine.execDiv x f s
  | .addi x f => Sys2Proof.Machine.execAddi x f s
  | .andi x f => Sys2Proof.Machine.execAndi x f s
  | .ori x f => Sys2Proof.Machine.execOri x f s
  | .xori x f => Sys2Proof.Machine.execXori x f s
  | .shli x f => Sys2Proof.Machine.execShli x f s
  | .shri x f => Sys2Proof.Machine.execShri x f s
  | .asri x f => Sys2Proof.Machine.execAsri x f s
  | .movl x f => Sys2Proof.Machine.execMovl x f s
  | .movh x f => Sys2Proof.Machine.execMovh x f s
  | .cmp x f => Sys2Proof.Machine.execCmp x f s
  | .cmpi x f => Sys2Proof.Machine.execCmpi x f s
  | .pset x f => Sys2Proof.Machine.execPset x f s
  | .prd x f => Sys2Proof.Machine.execPrd x f s
  | .pwr x f => Sys2Proof.Machine.execPwr x f s
  | .mfs x f => Sys2Proof.Machine.execMfs x f s
  | .mts x f => Sys2Proof.Machine.execMts x f s
  | .ldw x f => Sys2Proof.Machine.execLdw x f s
  | .ldh x f => Sys2Proof.Machine.execLdh x f s
  | .ldhs x f => Sys2Proof.Machine.execLdhs x f s
  | .ldb x f => Sys2Proof.Machine.execLdb x f s
  | .ldbs x f => Sys2Proof.Machine.execLdbs x f s
  | .stw x f => Sys2Proof.Machine.execStw x f s
  | .sth x f => Sys2Proof.Machine.execSth x f s
  | .stb x f => Sys2Proof.Machine.execStb x f s
  | .swap x f => Sys2Proof.Machine.execSwap x f s
  | .cas x f => Sys2Proof.Machine.execCas x f s
  | .rget x f => Sys2Proof.Machine.execRget x f s
  | .rput x f => Sys2Proof.Machine.execRput x f s
  | .br x f => Sys2Proof.Machine.execBr x f s
  | .call x f => Sys2Proof.Machine.execCall x f s
  | .jr x f => Sys2Proof.Machine.execJr x f s
  | .undefinedOpcode x f => Sys2Proof.Machine.execUndefinedOpcode x f s
  | .reservedOpcode x op f => Sys2Proof.Machine.execReservedOpcode x op f s
  | .wfe x f => Sys2Proof.Machine.execWfe x f s
  | .wfeWake x => Sys2Proof.Machine.execWfeWake x s
  | .wfeTimeout x => Sys2Proof.Machine.execWfeTimeout x s
  | .sev x f => Sys2Proof.Machine.execSev x f s
  | .waita x f => Sys2Proof.Machine.execWaita x f s
  | .waitaEnd x => Sys2Proof.Machine.execWaitaEnd x s
  | .waitt x f => Sys2Proof.Machine.execWaitt x f s
  | .waittEnd x => Sys2Proof.Machine.execWaittEnd x s
  | .rdt x f => Sys2Proof.Machine.execRdt x f s
  | .halt x f => Sys2Proof.Machine.execHalt x f s
  | .trap x f => Sys2Proof.Machine.execTrap x f s
  | .eret x f => Sys2Proof.Machine.execEret x f s
  | .cp0Rd x f => Sys2Proof.Machine.execCp0Rd x f s
  | .cp0Wr x f => Sys2Proof.Machine.execCp0Wr x f s
  | .cp0Snap x f => Sys2Proof.Machine.execCp0Snap x f s
  | .cp0Accum x f => Sys2Proof.Machine.execCp0Accum x f s
  | .cp1Rd x f => Sys2Proof.Machine.execCp1Rd x f s
  | .cp1Wr x f => Sys2Proof.Machine.execCp1Wr x f s
  | .cp1Live x f => Sys2Proof.Machine.execCp1Live x f s
  | .cp1Snaprd x f => Sys2Proof.Machine.execCp1Snaprd x f s
  | .cp2Rd x f => Sys2Proof.Machine.execCp2Rd x f s
  | .cp2Wr x f => Sys2Proof.Machine.execCp2Wr x f s
  | .cp2Go x f => Sys2Proof.Machine.execCp2Go x f s
  | .cp2Pop x f => Sys2Proof.Machine.execCp2Pop x f s
  | .cp3Rd x f => Sys2Proof.Machine.execCp3Rd x f s
  | .cp3Wr x f => Sys2Proof.Machine.execCp3Wr x f s
  | .cp3Ldg x f => Sys2Proof.Machine.execCp3Ldg x f s
  | .cp3Telem x f => Sys2Proof.Machine.execCp3Telem x f s
  | .cp3Telemb x f => Sys2Proof.Machine.execCp3Telemb x f s
  | .stallEnd x => Sys2Proof.Machine.execStallEnd x s
  | .engineEnableWrite r x en => Sys2Proof.Machine.execEngineEnableWrite r x en s
  | .pdataAccess r x wr => Sys2Proof.Machine.execPdataAccess r x wr s
  | .ddataAccess r x wr => Sys2Proof.Machine.execDdataAccess r x wr s
  | .engineProgramLoad r x arg => Sys2Proof.Machine.execEngineProgramLoad r x arg s
  | .eventLineEdge n => Sys2Proof.Machine.execEventLineEdge n s
  | .gpioLevelChange k lvl => Sys2Proof.Machine.execGpioLevelChange k lvl s
  | .hsevWrite r v => Sys2Proof.Machine.execHsevWrite r v s
  | .puttagWrite r tag => Sys2Proof.Machine.execPuttagWrite r tag s
  | .take0Read r => Sys2Proof.Machine.execTake0Read r s
  | .takeReservationLapse r => Sys2Proof.Machine.execTakeReservationLapse r s
  | .depotFlush r arg => Sys2Proof.Machine.execDepotFlush r arg s
  | .nvmWindowWrite r off v => Sys2Proof.Machine.execNvmWindowWrite r off v s
  | .nvmCommit r => Sys2Proof.Machine.execNvmCommit r s
  | .nvmDiscard r => Sys2Proof.Machine.execNvmDiscard r s
  | .nvmSeal r => Sys2Proof.Machine.execNvmSeal r s
  | .nvmRecordWrite r arg => Sys2Proof.Machine.execNvmRecordWrite r arg s
  | .nvmRecordRead r arg => Sys2Proof.Machine.execNvmRecordRead r arg s
  | .nvmRecallScan r => Sys2Proof.Machine.execNvmRecallScan r s
  | .nvmSetRegion r arg => Sys2Proof.Machine.execNvmSetRegion r arg s
  | .nvmSetPassword r arg => Sys2Proof.Machine.execNvmSetPassword r arg s
  | .nvmWordWriteEnd => Sys2Proof.Machine.execNvmWordWriteEnd s
  | .brownoutFall vin => Sys2Proof.Machine.execBrownoutFall vin s
  | .brownoutRecover vin => Sys2Proof.Machine.execBrownoutRecover vin s
  | .recallScanEnd => Sys2Proof.Machine.execRecallScanEnd s
  | .pwdWrite r v => Sys2Proof.Machine.execPwdWrite r v s
  | .passwordBarExpiry r => Sys2Proof.Machine.execPasswordBarExpiry r s
  | .nvmModeWrite r v => Sys2Proof.Machine.execNvmModeWrite r v s
  | .cpcmdGo r page => Sys2Proof.Machine.execCpcmdGo r page s
  | .ovlSwctlArm r v => Sys2Proof.Machine.execOvlSwctlArm r v s
  | .overlayPreloadEnd => Sys2Proof.Machine.execOverlayPreloadEnd s
  | .scrubWord upset stuck => Sys2Proof.Machine.execScrubWord upset stuck s
  | .eccLogEmpty r => Sys2Proof.Machine.execEccLogEmpty r s
  | .eccClearWord r arg => Sys2Proof.Machine.execEccClearWord r arg s
  | .scrubPass r arg => Sys2Proof.Machine.execScrubPass r arg s
  | .addSoftSpare r arg => Sys2Proof.Machine.execAddSoftSpare r arg s
  | .recordWrite => Sys2Proof.Machine.execRecordWrite s
  | .rateLimitRefill code => Sys2Proof.Machine.execRateLimitRefill code s
  | .recorderStart => Sys2Proof.Machine.execRecorderStart s
  | .recorderHeaderWrite => Sys2Proof.Machine.execRecorderHeaderWrite s
  | .recorderEnableWrite r en => Sys2Proof.Machine.execRecorderEnableWrite r en s
  | .recorderClear r => Sys2Proof.Machine.execRecorderClear r s
  | .recorderSearch r arg => Sys2Proof.Machine.execRecorderSearch r arg s
  | .rd0Read r => Sys2Proof.Machine.execRd0Read r s
  | .putcodeWrite r v => Sys2Proof.Machine.execPutcodeWrite r v s
  | .bbxTrigGo r => Sys2Proof.Machine.execBbxTrigGo r s
  | .bbxSlotWriteEnd => Sys2Proof.Machine.execBbxSlotWriteEnd s
  | .bbxEnableWrite r en => Sys2Proof.Machine.execBbxEnableWrite r en s
  | .bbxSlotrelWrite r v => Sys2Proof.Machine.execBbxSlotrelWrite r v s
  | .bbxChcfgWrite r c v => Sys2Proof.Machine.execBbxChcfgWrite r c v s
  | .bbxSlotInfo r arg => Sys2Proof.Machine.execBbxSlotInfo r arg s
  | .bbxSlotChannelMap r arg => Sys2Proof.Machine.execBbxSlotChannelMap r arg s
  | .heartbeatReceived payload skew pmsi => Sys2Proof.Machine.execHeartbeatReceived payload skew pmsi s
  | .uttiaBadFrame type => Sys2Proof.Machine.execUttiaBadFrame type s
  | .heartbeatLost pmsi => Sys2Proof.Machine.execHeartbeatLost pmsi s
  | .mirrorSend => Sys2Proof.Machine.execMirrorSend s
  | .mirrorReceived payload => Sys2Proof.Machine.execMirrorReceived payload s
  | .autoHandoverStart => Sys2Proof.Machine.execAutoHandoverStart s
  | .claimDelayExpiry => Sys2Proof.Machine.execClaimDelayExpiry s
  | .dualMastership => Sys2Proof.Machine.execDualMastership s
  | .pmsiFallTakeover => Sys2Proof.Machine.execPmsiFallTakeover s
  | .activityWindowEnd => Sys2Proof.Machine.execActivityWindowEnd s
  | .handover r => Sys2Proof.Machine.execHandover r s
  | .handoverFrameReceived payload => Sys2Proof.Machine.execHandoverFrameReceived payload s
  | .handoverAckReceived => Sys2Proof.Machine.execHandoverAckReceived s
  | .handoverAckTimeout => Sys2Proof.Machine.execHandoverAckTimeout s
  | .handoverPmsiTimeout => Sys2Proof.Machine.execHandoverPmsiTimeout s
  | .powerOnReset => Sys2Proof.Machine.execPowerOnReset s
  | .pinReset => Sys2Proof.Machine.execPinReset s
  | .clockFailReset => Sys2Proof.Machine.execClockFailReset s
  | .coreFaultReset => Sys2Proof.Machine.execCoreFaultReset s
  | .thermalShutdown => Sys2Proof.Machine.execThermalShutdown s
  | .resetRelease straps => Sys2Proof.Machine.execResetRelease straps s
  | .storeReady => Sys2Proof.Machine.execStoreReady s
  | .baseConfigApply => Sys2Proof.Machine.execBaseConfigApply s
  | .startmodeOverlayApply => Sys2Proof.Machine.execStartmodeOverlayApply s
  | .runEntry => Sys2Proof.Machine.execRunEntry s
  | .vselValueAccepted n run => Sys2Proof.Machine.execVselValueAccepted n run s
  | .mirrorTimeout => Sys2Proof.Machine.execMirrorTimeout s

end Sys2Proof.Machine
end

