-- ==== Sys2Proof/Machine/Step.lean ====
section
/-! DEFINITION. One step: the command at the front of the queue acts; on an empty queue one engine clock passes. -/

namespace Sys2Proof.Machine

/-- A step with no command waiting: one clock of 5 ns passes (R78, R80). DESIGN CHOICE, safe (log 1); DESIGN CHOICE,
safe (log 94). -/
def State.idle (s : State) : State := if s.chip.held then s else s.act Chip.idleClock

/-- One step. DESIGN CHOICE, safe (log 4). -/
def step (s : State) : Host.Outcome State Fault Refusal :=
  match s.pending with
  | [] => .next s.idle
  | c :: rest => exec c { s with pending := rest }

/-- The state with the command that a word spells at the front of its queue; no word spells one. DESIGN CHOICE, safe
(log 6). -/
def State.withFetchWord (s : State) (nbits w : Nat) : State :=
  match Sys2Proof.decodeTableWord nbits w with
  | some c => { s with pending := c :: s.pending }
  | none => s

end Sys2Proof.Machine
end

