-- ==== Sys2Proof/Safety.lean ====
section
/-! DEFINITION. What counts as a safe run: every command waiting is well formed, and every step answers a next state. -/

namespace Sys2Proof

/-- Every command of a queue is well formed. -/
def queueWf (q : List Instr) : Bool := q.all Instr.wf

/-- A step answers a next state. -/
def StepsOn (s : Machine.State) : Prop := ∃ t, Machine.step s = .next t

/-- A run of `k` steps answers a next state. -/
def RunsOn (k : Nat) (s : Machine.State) : Prop := ∃ t, Host.Core.run core k s = .next t

end Sys2Proof
end

