-- ==== Sys2Proof/Certificates/Slice0/Obligations.lean ====
section
/-! DEFINITION. The statements about the SV6412 model. Each says in its docstring which rule of the spec it formalises, or
that it rests on a choice of the model. -/

namespace Sys2Proof.Machine

/-! ### How the statements speak of an outcome -/

/-- The chip is out of reset, and nothing of an earlier clock is left to settle, as every step leaves it
(`Obligations.DieIdentityInvariant`). -/
abbrev Running (s : State) : Prop := s.chip.held = false ∧ s.chip.clk = {}

/-- The command answers the next state in which `f` has acted on the chip and the edges and records that this brought
have settled, as at the end of every clock (R382, R454); the queue and what the die fixes stay. -/
def Effect (c : Instr) (s : State) (f : Chip → Chip) : Prop := exec c s = .next (s.act f)

/-- A happening: where its condition holds it has the effect `f`, elsewhere it changes nothing. -/
def Happens (c : Instr) (s : State) (cond : Prop) (f : Chip → Chip) : Prop :=
  (cond → Effect c s f) ∧ (¬cond → exec c s = .next s)

/-- A register access: on a page the member carries it has the effect `f`; on one it lacks, the access sets
GLB.ABSENT.HIT, and changes nothing else of the page (R3). -/
def Access (c : Instr) (s : State) (r : Requester) (pg : Nat) (f : Chip → Chip) : Prop :=
  (pageAbsent s.chip.die.part pg = false → Effect c s f) ∧
  (pageAbsent s.chip.die.part pg = true → Effect c s (fun m => m.absentHit (reqCode r) pg))

/-- A write of an RWL register with an effect of its own, at an offset of a page: on a page that is locked for the
requester it acts field by field as R43 says; on an unlocked one the unlock's 10 ms start anew (R41). -/
def LockedAccess (c : Instr) (s : State) (r : Requester) (pg o : Nat) (v : Word) (f : Chip → Chip) : Prop :=
  (pageAbsent s.chip.die.part pg = false → s.chip.unlockedFor (reqCode r) pg = true →
    Effect c s (fun m => f (m.rwlSeen (reqCode r) pg))) ∧
  (pageAbsent s.chip.die.part pg = false → s.chip.unlockedFor (reqCode r) pg = false →
    Effect c s (fun m => m.plainWrite (reqCode r) (pg * 0x400 + o) v.toNat)) ∧
  (pageAbsent s.chip.die.part pg = true → Effect c s (fun m => m.absentHit (reqCode r) pg))

/-- An access to an RWL register whose own rule tests the lock: an unlock's 10 ms start anew (R41). -/
def RwlAccess (c : Instr) (s : State) (r : Requester) (pg : Nat) (f : Chip → Chip) : Prop :=
  Access c s r pg (fun m => f (m.rwlSeen (reqCode r) pg))

/-- A happening of a unit's clock or timer: where it is due it has the effect `f`, and sent before that it changes
nothing. -/
def WhenDue (c : Instr) (s : State) (due : Bool) (f : Chip → Chip) : Prop :=
  (due = true → Effect c s f) ∧ (due = false → exec c s = .next s)

/-- A happening that also has a timer: the timer has run out, and the condition holds. -/
def OnTimer (c : Instr) (s : State) (due : Bool) (cond : Prop) (f : Chip → Chip) : Prop :=
  (due = true → Happens c s cond f) ∧ (due = false → exec c s = .next s)

/-- A command of a long operation, with the OPARG its row carries: accepted on a page without an operation, and passed
to the unit; refused while one runs, which sets IRQ bit REJ (R35, R36). -/
def LongCommand (c : Instr) (s : State) (r : Requester) (pg cmd : Nat) (arg : Word) (unit_ : Chip → Chip) : Prop :=
  (pageAbsent s.chip.die.part pg = false → s.chip.busy pg = false →
    Effect c s (fun m => unit_ ((m.wr (pg * 0x400 + 0x24) arg).acceptOp pg cmd arg.toNat (reqCode r)))) ∧
  (pageAbsent s.chip.die.part pg = false → s.chip.busy pg = true →
    Effect c s (fun m => (m.wr (pg * 0x400 + 0x24) arg).irq pg 2)) ∧
  (pageAbsent s.chip.die.part pg = true → Effect c s (fun m => m.absentHit (reqCode r) pg))

/-- The same for a row without an argument: OPARG keeps what it holds. -/
def BareCommand (c : Instr) (s : State) (r : Requester) (pg cmd : Nat) (unit_ : Chip → Chip) : Prop :=
  (pageAbsent s.chip.die.part pg = false → s.chip.busy pg = false →
    Effect c s (fun m => unit_ (m.acceptOp pg cmd (m.rd (pg * 0x400 + 0x24)).toNat (reqCode r)))) ∧
  (pageAbsent s.chip.die.part pg = false → s.chip.busy pg = true → Effect c s (fun m => m.irq pg 2)) ∧
  (pageAbsent s.chip.die.part pg = true → Effect c s (fun m => m.absentHit (reqCode r) pg))

/-! ### Engines -/

/-- The engine and the word of a command that issues an instruction. -/
def issued : Instr → Option (Fin 8 × Nat)
  | .add x f => some (x, instrWord 0x00 f)
  | .sub x f => some (x, instrWord 0x01 f)
  | .and x f => some (x, instrWord 0x02 f)
  | .or x f => some (x, instrWord 0x03 f)
  | .xor x f => some (x, instrWord 0x04 f)
  | .shl x f => some (x, instrWord 0x05 f)
  | .shr x f => some (x, instrWord 0x06 f)
  | .asr x f => some (x, instrWord 0x07 f)
  | .mul x f => some (x, instrWord 0x08 f)
  | .mulh x f => some (x, instrWord 0x09 f)
  | .mulhu x f => some (x, instrWord 0x0A f)
  | .min x f => some (x, instrWord 0x0B f)
  | .max x f => some (x, instrWord 0x0C f)
  | .adds x f => some (x, instrWord 0x0D f)
  | .subs x f => some (x, instrWord 0x0E f)
  | .div x f => some (x, instrWord 0x0F f)
  | .addi x f => some (x, instrWord 0x10 f)
  | .andi x f => some (x, instrWord 0x11 f)
  | .ori x f => some (x, instrWord 0x12 f)
  | .xori x f => some (x, instrWord 0x13 f)
  | .shli x f => some (x, instrWord 0x14 f)
  | .shri x f => some (x, instrWord 0x15 f)
  | .asri x f => some (x, instrWord 0x16 f)
  | .movl x f => some (x, instrWord 0x17 f)
  | .movh x f => some (x, instrWord 0x18 f)
  | .cmp x f => some (x, instrWord 0x19 f)
  | .cmpi x f => some (x, instrWord 0x1A f)
  | .pset x f => some (x, instrWord 0x1B f)
  | .prd x f => some (x, instrWord 0x1C f)
  | .pwr x f => some (x, instrWord 0x1D f)
  | .mfs x f => some (x, instrWord 0x1E f)
  | .mts x f => some (x, instrWord 0x1F f)
  | .ldw x f => some (x, instrWord 0x20 f)
  | .ldh x f => some (x, instrWord 0x21 f)
  | .ldhs x f => some (x, instrWord 0x22 f)
  | .ldb x f => some (x, instrWord 0x23 f)
  | .ldbs x f => some (x, instrWord 0x24 f)
  | .stw x f => some (x, instrWord 0x25 f)
  | .sth x f => some (x, instrWord 0x26 f)
  | .stb x f => some (x, instrWord 0x27 f)
  | .swap x f => some (x, instrWord 0x28 f)
  | .cas x f => some (x, instrWord 0x29 f)
  | .rget x f => some (x, instrWord 0x2A f)
  | .rput x f => some (x, instrWord 0x2B f)
  | .br x f => some (x, instrWord 0x2C f)
  | .call x f => some (x, instrWord 0x2D f)
  | .jr x f => some (x, instrWord 0x2E f)
  | .undefinedOpcode x f => some (x, instrWord 0x2F f)
  | .reservedOpcode x op f => some (x, instrWord (0x38 + op.val) f)
  | .wfe x f => some (x, instrWord 0x30 f)
  | .sev x f => some (x, instrWord 0x31 f)
  | .waita x f => some (x, instrWord 0x32 f)
  | .waitt x f => some (x, instrWord 0x33 f)
  | .rdt x f => some (x, instrWord 0x34 f)
  | .halt x f => some (x, instrWord 0x35 f)
  | .trap x f => some (x, instrWord 0x36 f)
  | .eret x f => some (x, instrWord 0x37 f)
  | .cp0Rd x f => some (x, instrWord 0x3C f)
  | .cp0Wr x f => some (x, instrWord 0x3C f)
  | .cp0Snap x f => some (x, instrWord 0x3C f)
  | .cp0Accum x f => some (x, instrWord 0x3C f)
  | .cp1Rd x f => some (x, instrWord 0x3D f)
  | .cp1Wr x f => some (x, instrWord 0x3D f)
  | .cp1Live x f => some (x, instrWord 0x3D f)
  | .cp1Snaprd x f => some (x, instrWord 0x3D f)
  | .cp2Rd x f => some (x, instrWord 0x3E f)
  | .cp2Wr x f => some (x, instrWord 0x3E f)
  | .cp2Go x f => some (x, instrWord 0x3E f)
  | .cp2Pop x f => some (x, instrWord 0x3E f)
  | .cp3Rd x f => some (x, instrWord 0x3F f)
  | .cp3Wr x f => some (x, instrWord 0x3F f)
  | .cp3Ldg x f => some (x, instrWord 0x3F f)
  | .cp3Telem x f => some (x, instrWord 0x3F f)
  | .cp3Telemb x f => some (x, instrWord 0x3F f)
  | _ => none

/-- Block and function of a coprocessor row (R371, R372). -/
def cpRow : Instr → Option (Nat × Nat)
  | .cp0Rd _ _ => some (0, 0)
  | .cp0Wr _ _ => some (0, 1)
  | .cp0Snap _ _ => some (0, 2)
  | .cp0Accum _ _ => some (0, 3)
  | .cp1Rd _ _ => some (1, 0)
  | .cp1Wr _ _ => some (1, 1)
  | .cp1Live _ _ => some (1, 2)
  | .cp1Snaprd _ _ => some (1, 3)
  | .cp2Rd _ _ => some (2, 0)
  | .cp2Wr _ _ => some (2, 1)
  | .cp2Go _ _ => some (2, 2)
  | .cp2Pop _ _ => some (2, 3)
  | .cp3Rd _ _ => some (3, 0)
  | .cp3Wr _ _ => some (3, 1)
  | .cp3Ldg _ _ => some (3, 2)
  | .cp3Telem _ _ => some (3, 3)
  | .cp3Telemb _ _ => some (3, 4)
  | _ => none

/-- The word is the row's own: FN of a coprocessor row's word names the row's function, or none of the block. -/
def OwnWord (c : Instr) (w : Nat) : Prop := ∀ k fn, cpRow c = some (k, fn) → wFn w = fn ∨ cpFns k ≤ wFn w

/-- The engine fetches the word `w` at PC. The machine `n` is what the fetch leaves: integrity may have counted a
correction, and the throttle's idle cycles are marked (R346). -/
def Fetches (m : Chip) (x : Fin 8) (w : Nat) (n : Chip) : Prop :=
  ∃ k, m.read32 (engReq x) (progArr x) (4 * m.pc x) = (some w, k) ∧ n = k.engIdle x

/-- The engine is in RUN and past its idle cycles, fetches the word, and the guard of the word holds (R346, R359). -/
def Executes (s : State) (x : Fin 8) (w : Nat) (n : Chip) : Prop :=
  Running s ∧ s.chip.engState x = 1 ∧ (s.chip.engSt x).idle ≤ s.chip.tim.tick ∧ Fetches s.chip x w n ∧
    n.guardHolds x w = true

/-- A row of format R with its result on 32-bit words: rd takes it, PC goes on, nothing else changes. Where a bit that
the format writes 0 is 1, the row traps with cause 3 (R360). -/
def RegisterRow (c : Fin 8 → BitVec 26 → Instr) (op mask : Nat) (res : Nat → Word → Word → Word) : Prop :=
  ∀ (x : Fin 8) (f : BitVec 26) (s : State) (n : Chip), Executes s x (instrWord op f) n →
    let w := instrWord op f
    (w &&& mask = 0 → Effect (c x f) s (fun _ =>
      (n.setG x (wRd w) (res w (BitVec.ofNat 32 (n.g x (wRa w))) (BitVec.ofNat 32 (n.g x (wRb w)))).toNat).engNext x)) ∧
    (w &&& mask ≠ 0 → Effect (c x f) s (fun _ => n.trapW x 3 w))

/-- A row of format I with its result on ra and the immediate. -/
def ImmediateRow (c : Fin 8 → BitVec 26 → Instr) (op mask : Nat) (imm : Nat → Word) (res : Word → Word → Word) : Prop :=
  ∀ (x : Fin 8) (f : BitVec 26) (s : State) (n : Chip), Executes s x (instrWord op f) n →
    let w := instrWord op f
    (w &&& mask = 0 → Effect (c x f) s (fun _ =>
      (n.setG x (wRd w) (res (BitVec.ofNat 32 (n.g x (wRa w))) (imm w)).toNat).engNext x)) ∧
    (w &&& mask ≠ 0 → Effect (c x f) s (fun _ => n.trapW x 3 w))

/-- A row whose effect is given where its zero bits are 0, and which traps with cause 3 where they are not. -/
def CheckedRow (c : Fin 8 → BitVec 26 → Instr) (op mask : Nat) (eff : Fin 8 → Nat → Chip → Chip) : Prop :=
  ∀ (x : Fin 8) (f : BitVec 26) (s : State) (n : Chip), Executes s x (instrWord op f) n →
    let w := instrWord op f
    (w &&& mask = 0 → Effect (c x f) s (fun _ => eff x w n)) ∧
    (w &&& mask ≠ 0 → Effect (c x f) s (fun _ => n.trapW x 3 w))

/-- Four bytes of a RAM, first byte lowest. -/
def Chip.ramWord (m : Chip) (arr off : Nat) : Nat :=
  m.memByte arr off + m.memByte arr (off + 1) * 2 ^ 8 + m.memByte arr (off + 2) * 2 ^ 16 + m.memByte arr (off + 3) * 2 ^ 24

end Sys2Proof.Machine

open Sys2Proof Sys2Proof.Machine

/-! ### Steps, the queue and the whole machine -/

/-- The queue: a step with a command in front is that command's effect with the rest of the queue. One queue and one
sender are the model's choice (log 4). -/
def Obligations.StepRunsFrontCommand : Prop :=
  ∀ (c : Instr) (rest : List Instr) (s : State), s.pending = c :: rest → step s = exec c { s with pending := rest }

/-- The model's choice (log 1): on an empty queue one clock of 5 ns passes, the tick counter goes on by 1 modulo 2⁶⁴
(R78) and no engine instruction is issued: general registers, PC and memories stay. A chip held in reset does not
change. -/
def Obligations.EmptyQueuePassesOneClock : Prop :=
  ∀ (s : State), s.pending = [] →
    (s.chip.held = true → step s = .next s) ∧
    (Running s → ∃ t, step s = .next t ∧ t.pending = [] ∧ t.chip.tim.tick = (s.chip.tim.tick + 1) % 2 ^ 64 ∧
      t.chip.mem = s.chip.mem ∧ t.chip.ops = s.chip.ops ∧
      ∀ (x : Fin 8) (j : Nat), j < 16 → t.chip.g x j = s.chip.g x j ∧ t.chip.pc x = s.chip.pc x)

/-- Every command answers a next state in every state, and leaves the queue to the step. No word spells a command,
since the table's rows give no bits. That no word spells a command is log 6. -/
def Obligations.EveryCommandCompletes : Prop :=
  (∀ (c : Instr) (s : State), ∃ t, exec c s = .next t ∧ t.pending = s.pending) ∧
  (∀ (nbits w : Nat) (s : State), decodeTableWord nbits w = none ∧ s.withFetchWord nbits w = s)

/-- R504: while the chip is held in reset, no command but RESET_RELEASE changes anything in it but the causes that
hold, and of those only a reset adds one. That nothing else acts in reset is the model's reading of R504 (log 11). -/
def Obligations.HeldChipKeepsEverythingButCauses : Prop :=
  ∀ (c : Instr) (s t : State), s.chip.held = true → exec c s = .next t →
    (∀ straps, c ≠ .resetRelease straps) →
    t.chip = { s.chip with causes := t.chip.causes } ∧ t.chip.held = true ∧
    (∀ i, s.chip.causes.testBit i = true → t.chip.causes.testBit i = true) ∧
    (t.chip.causes = s.chip.causes ∨
      (c = .powerOnReset ∧ t.chip.causes = s.chip.causes ||| 1) ∨ (c = .pinReset ∧ t.chip.causes = s.chip.causes ||| 2) ∨
      (c = .clockFailReset ∧ t.chip.causes = s.chip.causes ||| 8) ∨
      (c = .coreFaultReset ∧ t.chip.causes = s.chip.causes ||| 16) ∨
      (c = .thermalShutdown ∧ t.chip.causes = s.chip.causes ||| 32))

/-- R1, R114: no step, whatever command stands in front and in every state, changes the member, the die number or the
factory reference codes; the strap balls are taken only at a reset release (R516). Every step leaves nothing of its
clock to settle: that edges and records are buffered within one command is the model's way (log 137). -/
def Obligations.DieIdentityInvariant : Prop :=
  ∀ (p : Part) (uid : BitVec 64) (fnom : List Int) (s t : State),
    (s.chip.die.part = p ∧ s.chip.die.uid = uid ∧ s.chip.die.fnom = fnom) → step s = .next t →
    (t.chip.die.part = p ∧ t.chip.die.uid = uid ∧ t.chip.die.fnom = fnom) ∧
    (t.chip.die.straps ≠ s.chip.die.straps →
      s.chip.held = true ∧ t.chip.held = false ∧ s.pending.head? = some (.resetRelease t.chip.die.straps)) ∧
    (s.chip.clk = {} → t.chip.clk = {})

/-- At reset the queue is empty, the chip is released with cause POR recorded (R505), no operation runs, no page is
unlocked, every memory is in canonical form and reads 0, the Depot's queues and the record queue are empty, and the
pages GLB, CLK, PIN, HIF and ECC are enabled (R33). That the model starts as an SV6412 just released is its own choice
(log 5). -/
def Obligations.ResetState : Prop :=
  let m := State.reset.chip
  State.reset.pending = [] ∧ m.held = false ∧ m.clk = {} ∧ m.die.part = .sv6412 ∧ m.die.uid = 0 ∧
  m.get 0x01 CLK_RSTC_CAUSE = 1 ∧ m.get 0x01 CLK_RSTHIST_CAUSE = 1 ∧ m.ops = [] ∧ m.host.unlocked = [] ∧
  Memory.wf m.mem = true ∧ (∀ a, Memory.read m.mem a = 0) ∧ m.upset = [] ∧
  m.dep.queues = List.replicate 24 [] ∧ m.rcd.queue = [] ∧
  (∀ pg, pg < 0x39 → (m.enabled pg = true ↔ pg ∈ [0x00, 0x01, 0x26, 0x36, 0x37])) ∧
  (∀ x : Fin 8, m.engState x = 0 ∧ m.pc x = 0 ∧ m.pred x 0 = true ∧ ∀ i, 1 ≤ i → i < 8 → m.pred x i = false) ∧
  m.get 0x36 HIF_CFG_SPIEN = 1 ∧ m.tim.tick = 0 ∧ m.ttb = ttbOff ∧ m.role = 0 ∧ (∀ x, x < 4 → m.mode x = mdOff)

/-! ### Registers and the host interfaces -/

/-- R11, R43: what a write leaves in a register without an effect of its own, bit by bit: RW bits take the written
bit, RWL bits take it for a requester the page is unlocked for, W1C bits clear where it is 1, and all others stay.
R28, R30, R3: a write by address. In register space a register of an absent page or instance sets ABSENT.HIT and any
other takes the write; in the NVM window the store takes it; the window of the shared engine RAM stores the word,
lowest byte first; every other address sets ERRS.DECODE and IRQ bit 7 of GLB. An address that is no word's reaches
nothing (the model's reading, log 7). Completes: registerWrite. -/
def Obligations.RegisterWrites : Prop :=
  (∀ (fs : List Fld) (old v i : Nat) (unlocked : Bool),
    let rw := (accMask fs .rw).testBit i
    let rwl := (accMask fs .rwl).testBit i
    let w1c := (accMask fs .w1c).testBit i
    (plainValue fs old v unlocked).testBit i =
      (if rw || (rwl && unlocked) then v.testBit i else if w1c && v.testBit i then false else old.testBit i)) ∧
  (∀ (r : Requester) (addr : BitVec 22) (v : Word) (s : State), Running s →
    let a := addr.toNat
    (a % 4 ≠ 0 → exec (.registerWrite r addr v) s = .next s) ∧
    (a % 4 = 0 → a < 0x10000 →
      (s.chip.regAbsent a = true → Effect (.registerWrite r addr v) s (fun m => m.absentHit (reqCode r) (a / 0x400))) ∧
      (s.chip.regAbsent a = false →
        Effect (.registerWrite r addr v) s (fun m => (m.regWrite (reqCode r) a v.toNat).2))) ∧
    (a % 4 = 0 → 0x100000 ≤ a → a < 0x180000 →
      Effect (.registerWrite r addr v) s (fun m => (m.nvWrite (reqCode r) (a - 0x100000) v.toNat).2)) ∧
    (a % 4 = 0 → 0x200000 ≤ a → a < 0x210000 → s.chip.upsets 0x10 ((a - 0x200000) / 8) = 0 →
      ∃ t, exec (.registerWrite r addr v) s = .next t ∧ t.chip.ramWord 0x10 (a - 0x200000) = v.toNat ∧
        t.chip.regs = s.chip.regs ∧
        ∀ b : Nat, (∀ k, k < 4 → b ≠ memAddr 0x10 (a - 0x200000 + k)) → Memory.read t.chip.mem b = Memory.read s.chip.mem b) ∧
    (a % 4 = 0 → ¬(a < 0x10000 ∨ 0x100000 ≤ a ∧ a < 0x180000 ∨ 0x200000 ≤ a ∧ a < 0x210000) →
      Effect (.registerWrite r addr v) s (fun m => (m.put 0 GLB_ERRS_DECODE 1).irq 0 7)))

/-- R40, R41: the two words in order, as consecutive writes to one KEY by a requester that is not barred, unlock that
page for that requester only, and a write by any other requester still changes no RWL bit of the page; a write of 0
ends the unlock.Completes: keyWrite. -/
def Obligations.KeySequenceUnlocks : Prop :=
  ∀ (r q : Requester) (page p : Fin 64) (s : State), Running s → page.val ≠ 0x3F →
    pageAbsent s.chip.die.part page.val = false → s.chip.host.barred.contains (reqCode r) = false →
    s.chip.host.half.contains (reqCode r, page.val) = false →
    (∃ t u, exec (.keyWrite r page 0x5E64) s = .next t ∧ exec (.keyWrite r page 0xA19B) t = .next u ∧
      u.chip.unlockedFor (reqCode r) page.val = true ∧
      ((q ≠ r ∨ p ≠ page) → u.chip.unlockedFor (reqCode q) p.val = s.chip.unlockedFor (reqCode q) p.val) ∧
      (q ≠ r → s.chip.unlockedFor (reqCode q) page.val = false → ∀ a v i, a / 0x400 = page.val →
        let fs := fieldsAt page.val (a % 0x400)
        (accMask fs .rwl).testBit i = true → (accMask fs .rw).testBit i = false → (accMask fs .w1c).testBit i = false →
        ((u.chip.plainWrite (reqCode q) a v).rd a).toNat.testBit i = (u.chip.rd a).toNat.testBit i) ∧
      u.chip.regs = s.chip.regs ∧ u.chip.mem = s.chip.mem) ∧
    (∃ t, exec (.keyWrite r page 0) s = .next t ∧ t.chip.unlockedFor (reqCode r) page.val = decide (r = .loader) ∧
      t.chip.regs = s.chip.regs)

/-- R41, R42: a wrong first word fails the sequence and sets KEYFAIL; the fourth failure in a row bars the requester
and sets KEYBLK, and a barred requester's KEY writes are ignored until the bar ends, 1 s later. An unlock lapses 10 ms
after the requester's last RWL write to the page. Neither end touches any register, and neither comes before its time.
Completes: keyWrite, keyBarExpiry, unlockLapse. -/
def Obligations.KeyFailuresAndLapses : Prop :=
  ∀ (r : Requester) (page : Fin 64) (v : Word) (s : State), Running s → page.val ≠ 0x3F →
    pageAbsent s.chip.die.part page.val = false →
    (s.chip.host.barred.contains (reqCode r) = true → exec (.keyWrite r page v) s = .next s) ∧
    (s.chip.host.barred.contains (reqCode r) = false → s.chip.host.half.contains (reqCode r, page.val) = false →
      v ≠ 0 → v ≠ 0x5E64 → ∃ t, exec (.keyWrite r page v) s = .next t ∧ t.chip.get 0 GLB_ERRS_KEYFAIL = 1 ∧
        (s.chip.host.failsOf (reqCode r) = 3 →
          t.chip.get 0 GLB_ERRS_KEYBLK = 1 ∧ t.chip.host.barred.contains (reqCode r) = true)) ∧
    (s.chip.keyBarDue (reqCode r) = true → ∃ t, exec (.keyBarExpiry r) s = .next t ∧
      t.chip.host.barred.contains (reqCode r) = false ∧ t.chip.regs = s.chip.regs) ∧
    (s.chip.keyBarDue (reqCode r) = false → exec (.keyBarExpiry r) s = .next s) ∧
    (s.chip.unlockDue (reqCode r) page.val = true → ∃ t, exec (.unlockLapse r page) s = .next t ∧
      t.chip.host.unlocked.contains (reqCode r, page.val) = false ∧ t.chip.regs = s.chip.regs) ∧
    (s.chip.unlockDue (reqCode r) page.val = false → exec (.unlockLapse r page) s = .next s)

/-- R11, R34, R36–R39, R46: the register rows that have a rule of their own, each with its next state. A read of a
sticky register returns it and, but over SPI, takes from it what the read returned: SPISTAT's counts read 0 after it.
SOFTRST acts for an unlocked requester. OPCMD 0 aborts a running operation and does nothing else. The end of an
operation that needs only time ends it, page by page; on a page without one, or whose operation ends with its unit's
own event, nothing changes. A read of PART0 takes a shadow of the six words. The re-arm pulse ends 2 µs after it
began. What SOFTRST keeps and stops, and what an abort leaves, are readings of the model (logs 21, 22, 23 and 25).
Completes: rsRegisterRead, ctrlSoftrst, opcmdAbort, longOperationEnd, part0Read, intRearmPulseEnd. -/
def Obligations.CommonRegisterRows : Prop :=
  ∀ (r : Requester) (page : Fin 64) (s : State), Running s → page.val ≠ 0x3F →
    (∀ addr : BitVec 22, let a := addr.toNat; a < 0x10000 →
      (accMask (fieldsAt (a / 0x400) (a % 0x400)) .rs ≠ 0 →
        Access (.rsRegisterRead r addr) s r (a / 0x400) (fun m => m.rsRead (reqCode r) a)) ∧
      (accMask (fieldsAt (a / 0x400) (a % 0x400)) .rs = 0 →
        Access (.rsRegisterRead r addr) s r (a / 0x400) (fun m => m))) ∧
    (r ≠ .spi → ∃ t, exec (.rsRegisterRead r (BitVec.ofNat 22 (HIF_SPISTAT_CRCERR.addr 0x36))) s = .next t ∧
      t.chip.get 0x36 HIF_SPISTAT_CRCERR = 0 ∧ t.chip.get 0x36 HIF_SPISTAT_FRMERR = 0) ∧
    (s.chip.unlockedFor (reqCode r) page.val = true → Access (.ctrlSoftrst r page) s r page.val
      (fun m => (m.rwlSeen (reqCode r) page.val).pageReset page.val)) ∧
    (s.chip.unlockedFor (reqCode r) page.val = false → Access (.ctrlSoftrst r page) s r page.val Chip.lockErr) ∧
    (s.chip.busy page.val = true → Access (.opcmdAbort r page) s r page.val (fun m => m.abortOp page.val)) ∧
    (s.chip.busy page.val = false → Access (.opcmdAbort r page) s r page.val (fun m => m)) ∧
    Effect (.longOperationEnd page) s (fun m => m.opEnd page.val) ∧
    (∀ o, s.chip.opOf 0x24 = some o → Effect (.longOperationEnd 0x24) s (fun m => m.recOpEnd o)) ∧
    (∀ o, s.chip.opOf 0x26 = some o → o.cmd = 2 → Effect (.longOperationEnd 0x26) s (fun m => m.eccClear o)) ∧
    (∀ o, s.chip.opOf 0x27 = some o → o.cmd = 2 → Effect (.longOperationEnd 0x27) s (fun m => m.softAdd o)) ∧
    (∀ (x : Fin 8) o, s.chip.opOf (engPg x) = some o →
      Effect (.longOperationEnd (Fin.ofNat 64 (engPg x))) s (fun m => m.engLoadEnd x o)) ∧
    (s.chip.opOf page.val = none → exec (.longOperationEnd page) s = .next s) ∧
    (hasOps page.val = true → Access (.part0Read r page) s r page.val (fun m => m.partShadow (reqCode r) page.val)) ∧
    (hasOps page.val = false → Access (.part0Read r page) s r page.val (fun m => m)) ∧
    (pageAbsent s.chip.die.part page.val = false → hasOps page.val = true →
      ∃ t, exec (.part0Read r page) s = .next t ∧ t.chip.regs = s.chip.regs ∧
        ∀ n, n < 6 → t.chip.shadowOf (reqCode r) (partAddr page.val n) = some (s.chip.rd (partAddr page.val n))) ∧
    WhenDue .intRearmPulseEnd s (decide (2 * usTicks ≤ s.chip.ticksSince s.chip.host.intAt)) (fun m =>
      { m with host := { m.host with intPulse := false } })

/-- R50–R53: a good read frame of a register answers in the next frame with RESP 00, its word address and its value; a
good write frame echoes the data it wrote, and one that resets the chip leaves no response (R503); a frame with a
reserved OP or a bit that is not 0 answers RESP 10; a frame with a wrong CRC is counted and not performed. A disabled
interface only shifts out the response it still owes (R62). When the INT# bit is sampled is a reading of the model
(log 16). Completes: spiFrame. -/
def Obligations.SpiFrames : Prop :=
  ∀ (w : BitVec 64) (s : State), Running s → s.chip.get 0x36 HIF_CFG_SPIEN = 1 → s.chip.host.spiHas = true →
    s.chip.host.spiEffect = none →
    let good := crc8 0xFF (bytesHigh 7 (w.toNat / 256)) = w.toNat % 256
    let waddr := w.toNat / 2 ^ 40 % 2 ^ 20
    let a := 4 * waddr
    (good → w.toNat / 2 ^ 60 = 0 → w.toNat / 2 ^ 8 % 2 ^ 32 = 0 →
      ∀ b, b = ({ s.chip with host := { s.chip.host with spiOut := s.chip.host.spiResp } }).busRead 0 a →
        b.refused = false → b.notReady = false →
      Effect (.spiFrame w) s (fun _ => b.chip.spiAnswer 0 waddr b.value) ∧
        (b.chip.spiAnswer 0 waddr b.value).host.spiResp.toNat / 2 ^ 62 = 0 ∧
        (b.chip.spiAnswer 0 waddr b.value).host.spiResp.toNat / 2 ^ 40 % 2 ^ 20 = waddr ∧
        (b.chip.spiAnswer 0 waddr b.value).host.spiResp.toNat / 2 ^ 8 % 2 ^ 32 = b.value % 2 ^ 32) ∧
    (good → w.toNat / 2 ^ 60 = 4 →
      ∀ x, x = ({ s.chip with host := { s.chip.host with spiOut := s.chip.host.spiResp } }).busWrite 0 a
          (w.toNat / 2 ^ 8 % 2 ^ 32) →
      (x.2.held = false → x.1 = false →
        Effect (.spiFrame w) s (fun _ => x.2.spiAnswer 0 waddr (w.toNat / 2 ^ 8 % 2 ^ 32)) ∧
        (x.2.spiAnswer 0 waddr (w.toNat / 2 ^ 8 % 2 ^ 32)).host.spiResp.toNat / 2 ^ 62 = 0 ∧
        (x.2.spiAnswer 0 waddr (w.toNat / 2 ^ 8 % 2 ^ 32)).host.spiResp.toNat / 2 ^ 40 % 2 ^ 20 = waddr ∧
        (x.2.spiAnswer 0 waddr (w.toNat / 2 ^ 8 % 2 ^ 32)).host.spiResp.toNat / 2 ^ 8 % 2 ^ 32 =
          w.toNat / 2 ^ 8 % 2 ^ 32) ∧
      (x.2.held = true → Effect (.spiFrame w) s (fun _ => x.2))) ∧
    (¬good → ∃ t, exec (.spiFrame w) s = .next t ∧ t.chip.host.spiOut = s.chip.host.spiResp ∧
      t.chip.host.spiResp.toNat / 2 ^ 62 = 1 ∧ t.chip.mem = s.chip.mem ∧
      t.chip.get 0x36 HIF_SPISTAT_CRCERR = satInc 16 (s.chip.get 0x36 HIF_SPISTAT_CRCERR) ∧
      ∀ k, k ≠ HIF_SPISTAT_CRCERR.addr 0x36 → t.chip.rd k = s.chip.rd k) ∧
    (good → spiReserved w.toNat = true → Effect (.spiFrame w) s (fun m =>
      ({ m with host := { m.host with spiOut := m.host.spiResp } }).spiAnswer 2 waddr 0)) ∧
    (∀ u : State, Running u → u.chip.get 0x36 HIF_CFG_SPIEN = 0 → Effect (.spiFrame w) u (fun m =>
      if m.host.spiHas then { m with host := { m.host with spiOut := m.host.spiResp, spiHas := false } } else m))

/-- R55, R57–R61: a partial SPI frame is discarded and counted; an I²C write of four data bytes with a good PEC is
performed at STOP and one with a wrong PEC is not acknowledged and counted; one without PEC is performed unless PECREQ
asks for it; a read that is not ready counts NOTRDY and returns 0; a stretched SCL is counted and recorded; a UART
line of the wrong form answers er 2, a good read its value and a good write ok, but for one that resets the chip
(R503). That effects take place within the command, and the answer to data that is not ready, are readings of the
model (log 19). Completes: spiPartialFrame, i2cWrite, i2cRead, i2cSclTimeout, uartReadLine, uartWriteLine. -/
def Obligations.SerialInterfaces : Prop :=
  ∀ (s : State), Running s →
    (∀ nbits : BitVec 6, nbits ≠ 0 → s.chip.get 0x36 HIF_CFG_SPIEN = 1 → Effect (.spiPartialFrame nbits) s (fun m =>
      { (m.count 0x36 HIF_SPISTAT_FRMERR) with host := { m.host with spiHas := false } })) ∧
    (∀ (b : List Byte) (data : Word) (addr : BitVec 24), s.chip.get 0x36 HIF_CFG_I2CEN = 1 → addr.toNat % 4 = 0 →
      let bytes := [2 * s.chip.i2cAddr] ++ bytesHigh 3 addr.toNat ++ bytesHigh 4 data.toNat
      (b.map BitVec.toNat = bytes ++ [crc8 0 bytes] →
        Effect (.i2cWrite b) s (fun m =>
          (({ m with host := { m.host with i2cNack := false } }).busWrite 1 addr.toNat data.toNat).2)) ∧
      (∀ pec, pec ≠ crc8 0 bytes → b.map BitVec.toNat = bytes ++ [pec] → Effect (.i2cWrite b) s (fun m =>
        ({ m with host := { m.host with i2cNack := true } }).count 0x36 HIF_I2CSTAT_PECERR)) ∧
      (b.map BitVec.toNat = bytes → s.chip.get 0x36 HIF_CFG_PECREQ = 0 → Effect (.i2cWrite b) s (fun m =>
        (({ m with host := { m.host with i2cNack := false } }).busWrite 1 addr.toNat data.toNat).2)) ∧
      (b.map BitVec.toNat = bytes → s.chip.get 0x36 HIF_CFG_PECREQ = 1 → Effect (.i2cWrite b) s (fun m =>
        ({ m with host := { m.host with i2cNack := false } }).count 0x36 HIF_I2CSTAT_PECERR))) ∧
    (∀ (b : List Byte) (addr : BitVec 24), s.chip.get 0x36 HIF_CFG_I2CEN = 1 → addr.toNat % 4 = 0 →
      b.map BitVec.toNat = [2 * s.chip.i2cAddr] ++ bytesHigh 3 addr.toNat ++ [2 * s.chip.i2cAddr + 1] →
      (∀ x, x = s.chip.busRead 1 addr.toNat → x.refused = false → x.notReady = false →
        Effect (.i2cRead b true) s (fun _ => x.chip.i2cAnswer (b.map BitVec.toNat) x.value true)) ∧
      Effect (.i2cRead b false) s (fun m => m.i2cAnswer (b.map BitVec.toNat) 0 false)) ∧
    (∀ n : BitVec 8, s.chip.get 0x36 HIF_CFG_I2CEN = 1 → Effect (.i2cSclTimeout n) s (fun m =>
      (m.count 0x36 HIF_I2CSTAT_TIMEOUT).emit 0xA003 [n.toNat])) ∧
    (∀ (l : List Byte) (a : Nat), uartParse (l.map BitVec.toNat) = .read a → l.length ≤ 24 →
      ∀ x, x = s.chip.busRead 2 a → x.refused = false → x.notReady = false →
        Effect (.uartReadLine l) s (fun _ => x.chip.uartAnswer (hexText 6 a ++ [61] ++ hexText 8 x.value))) ∧
    (∀ (l : List Byte) (a v : Nat), uartParse (l.map BitVec.toNat) = .write a v → l.length ≤ 24 →
      s.chip.get 0x36 HIF_CFG_UARTWEN = 1 → ∀ x, x = s.chip.busWrite 2 a v →
        (x.2.held = true → Effect (.uartWriteLine l) s (fun _ => x.2)) ∧
        (x.2.held = false → x.1 = false → Effect (.uartWriteLine l) s (fun _ => x.2.uartAnswer [111, 107]))) ∧
    (∀ (l : List Byte), uartParse (l.map BitVec.toNat) = .bad → l.length ≤ 24 →
      Effect (.uartReadLine l) s (fun m => m.uartAnswer [101, 114, 32, 50]) ∧
      Effect (.uartWriteLine l) s (fun m => m.uartAnswer [101, 114, 32, 50]))

/-- R503, R505: a reset from running returns the chip to its reset values, holds it with that cause, and keeps the
store's bytes, where the reserve completes a storage word whose write has begun (R409, R414); RESET_RELEASE records
the causes that held in RSTC, adds them to RSTHIST, counts in RSTCNT from 0 after POR, and takes the straps. SWRST
resets only with its word and from an unlocked requester (R47). Completes: powerOnReset, pinReset, clockFailReset,
coreFaultReset, thermalShutdown, swrstWrite, resetRelease. -/
def Obligations.ResetsAndRelease : Prop :=
  (∀ (s : State), Running s →
    let resets := fun (c : Instr) (cause : Nat) => ∃ t, exec c s = .next t ∧ t.pending = s.pending ∧
      t.chip.held = true ∧ t.chip.causes = 2 ^ cause ∧ t.chip.die = s.chip.die ∧
      (∀ a, keptByte a = true → Memory.read t.chip.mem a = Memory.read s.chip.wordReserve.mem a) ∧
      (∀ a, keptByte a = false → Memory.read t.chip.mem a = 0) ∧
      t.chip.dep = {} ∧ t.chip.ops = [] ∧ t.chip.host = {} ∧
      (∀ k, k < 0x10000 → k / 0x400 ≠ 0x01 → t.chip.rd k = regDefault k) ∧
      t.chip.get 0x01 CLK_RSTCNT_COUNT = s.chip.get 0x01 CLK_RSTCNT_COUNT
    (s.chip.nv.inWord = false → s.chip.wordReserve = s.chip) ∧
    (∀ j p w ws ps, s.chip.nv.inWord = true → s.chip.nv.cur = some j → j.todo = (p, w :: ws) :: ps →
      s.chip.wordReserve = (s.chip.nvWordDone j p w).2) ∧
    resets .powerOnReset 0 ∧ resets .pinReset 1 ∧ resets .clockFailReset 3 ∧ resets .coreFaultReset 4 ∧
    resets .thermalShutdown 5 ∧
    (∀ r : Requester, s.chip.unlockedFor (reqCode r) 0 = true → resets (.swrstWrite r 0xD1E5) 2) ∧
    (∀ (r : Requester) (v : Word), s.chip.unlockedFor (reqCode r) 0 = true → v ≠ 0xD1E5 →
      exec (.swrstWrite r v) s = .next s) ∧
    (∀ (r : Requester) (v : Word), s.chip.unlockedFor (reqCode r) 0 = false → v ≠ 0 →
      Effect (.swrstWrite r v) s Chip.lockErr) ∧
    (∀ straps, exec (.resetRelease straps) s = .next s)) ∧
  (∀ (s : State) (straps : BitVec 5), s.chip.held = true → s.chip.causes < 64 →
    ∃ t, exec (.resetRelease straps) s = .next t ∧ t.chip.held = false ∧ t.chip.die.straps = straps ∧
      t.chip.get 0x01 CLK_RSTC_CAUSE = s.chip.causes ∧
      (s.chip.causes % 2 = 0 →
        t.chip.get 0x01 CLK_RSTHIST_CAUSE = s.chip.get 0x01 CLK_RSTHIST_CAUSE ||| s.chip.causes ∧
        t.chip.get 0x01 CLK_RSTCNT_COUNT = satInc 16 (s.chip.get 0x01 CLK_RSTCNT_COUNT)) ∧
      (s.chip.causes % 2 = 1 → t.chip.get 0x01 CLK_RSTHIST_CAUSE = s.chip.causes ∧ t.chip.get 0x01 CLK_RSTCNT_COUNT = 1))

/-! ### The Timetable -/

/-- R76: stamps compare as 48-bit numbers on a circle: a stamp is before every stamp less than half a turn after it,
is not after one, no stamp is before itself, and of two stamps half a turn apart neither is before the other. -/
def Obligations.StampComparison : Prop :=
  ∀ (a d : Nat), a < 2 ^ 48 → d < 2 ^ 47 →
    let b := (a + d) % 2 ^ 48
    (stampBefore a b = true ↔ 0 < d) ∧ stampBefore b a = false ∧ stampReached b a = true ∧
    (stampReached a b = true ↔ d = 0) ∧
    stampBefore a ((a + 2 ^ 47) % 2 ^ 48) = false ∧ stampBefore ((a + 2 ^ 47) % 2 ^ 48) a = false

/-- R84, R91, R93, R94, R96, R78: the commands of the Timetable. ENABLE starts acquisition from OFF and returns to
OFF; a locked NOMF or CYCADJ write acts by R43, an unlocked NOMF write stores the value clamped to its range (log
108); the angle wrap advances the cycle, or takes an armed CYCADJ, and nothing is issued while the angle is stopped
(R88); HOLDCYC whole cycles in HOLDOVER lead to FREERUN; a slot in its waypoint on an eligible cycle fires once; reads
of STMPC and TICKLO latch their second words. Completes: ttbEnableWrite, nomfWrite, cycadjWrite, holdoverExpiry,
slotFire, stmpcRead, tickloRead, cycleBoundary. -/
def Obligations.TimetableCommands : Prop :=
  ∀ (r : Requester) (s : State), Running s →
    let m := s.chip
    (m.ttb = ttbOff → ∃ t, exec (.ttbEnableWrite r true) s = .next t ∧ t.chip.ttb = ttbAcquire ∧
      t.chip.get 2 HDR_CTRL_ENABLE = 1 ∧ t.chip.tim.angle = m.tim.angle ∧ t.chip.tim.cycle = m.tim.cycle) ∧
    (m.ttb ≠ ttbOff → ∃ t, exec (.ttbEnableWrite r false) s = .next t ∧ t.chip.ttb = ttbOff ∧
      t.chip.get 2 HDR_CTRL_ENABLE = 0 ∧ t.chip.get 2 TTB_STAT_PHOK = 0) ∧
    (∀ v : Word, LockedAccess (.nomfWrite r v) s r 2 0x048 v (fun m =>
      (m.put 2 TTB_NOMF_NOMF (clampN 0x2D00 0x4200 (v.toNat % 65536))).slewFlag)) ∧
    (∀ v : Word, LockedAccess (.cycadjWrite r v) s r 2 0x070 v
      (fun m => (m.put 2 TTB_CYCADJ_CYC v.toNat).put 2 TTB_STAT_ADJP 1)) ∧
    Happens .holdoverExpiry s (m.ttb = ttbHoldover ∧ m.holdCyc + 1 ≤ m.tim.holdBounds)
      (fun m => m.ttbFreerunEnter m.freq) ∧
    (∀ n : Fin 16,
      let a := m.get 2 TTB_SLOTCFG_ANGLE n
      let due := m.tim.stopped = false ∧ m.get 2 TTB_SLOTCFG_EN n = 1 ∧ m.slotEligible n m.tim.cycle = true ∧
        m.tim.angle ≤ a ∧ a / 256 = m.tim.angle / 256 ∧ (m.tim.lastFired[n.val]?).getD none ≠ some m.tim.cycle
      (due → m.tim.angle = a → Effect (.slotFire n) s (fun m => m.slotDue n)) ∧
      (due → m.tim.angle ≠ a →
        Effect (.slotFire n) s (fun m => ({ m with tim := { m.tim with angle := a, frac := 0 } }).slotDue n)) ∧
      (¬due → exec (.slotFire n) s = .next s)) ∧
    Effect (.stmpcRead r) s (fun m => m.setShadow (reqCode r) (TTB_STMPA_ANGLE.addr 2)
      (BitVec.ofNat 32 (m.flags * 65536 + m.tim.angle))) ∧
    Effect (.tickloRead r) s (fun m => m.setShadow (reqCode r) (TTB_TICKHI_TICK.addr 2)
      (BitVec.ofNat 32 (m.tim.tick / 2 ^ 32))) ∧
    (m.tim.stopped = false → m.tim.wrapDone = false → m.tim.angle / 256 = 255 → m.get 2 TTB_STAT_ADJP = 0 →
      ∃ t, exec .cycleBoundary s = .next t ∧ t.chip.tim.cycle = (m.tim.cycle + 1) % 2 ^ 32 ∧ t.chip.tim.angle = 0 ∧
        t.chip.mem = m.mem) ∧
    (m.tim.stopped = false → m.tim.wrapDone = false → m.tim.angle / 256 = 255 → m.get 2 TTB_STAT_ADJP = 1 →
      ∃ t, exec .cycleBoundary s = .next t ∧ t.chip.tim.cycle = m.get 2 TTB_CYCADJ_CYC ∧ t.chip.tim.angle = 0 ∧
        t.chip.get 2 TTB_STAT_ADJP = 0) ∧
    (m.tim.stopped = true ∨ m.tim.wrapDone = true ∨ m.tim.angle / 256 ≠ 255 → exec .cycleBoundary s = .next s)

/-- R84: which states a tracking update can lead to from each state, before a forward step of the alignment; the command
is that update, Hold-up's trigger at a declaration of loss (R221) and the step (R87). Completes: trackingUpdate. -/
def Obligations.TrackingTransitions : Prop :=
  ∀ (x : Sense) (cut : WpInputs) (s : State), Running s →
    let u := s.chip.track x
    let n := if u.lost then u.chip.huTrigger 1 else u.chip
    Effect (.trackingUpdate x cut) s (fun _ => if u.step = 0 then n else Chip.angleStep 129 u.step cut n) ∧
    (s.chip.ttb = ttbOff → u.chip.ttb = ttbOff ∧ u.lost = false ∧ u.step = 0) ∧
    (s.chip.ttb = ttbAcquire → u.chip.ttb ∈ [ttbAcquire, ttbLocked, ttbFreerun] ∧ u.lost = false) ∧
    (s.chip.ttb = ttbLocked → u.step = 0 ∧ u.chip.ttb = (if u.lost then ttbHoldover else ttbLocked)) ∧
    (s.chip.ttb = ttbHoldover → u.step = 0 ∧ u.lost = false ∧ u.chip.ttb ∈ [ttbHoldover, ttbPull]) ∧
    (s.chip.ttb = ttbFreerun → u.step = 0 ∧ u.lost = false ∧ u.chip.ttb ∈ [ttbFreerun, ttbPull]) ∧
    (s.chip.ttb = ttbPull → u.step = 0 ∧ u.chip.ttb ∈ [ttbPull, ttbLocked, ttbFreerun] ∧
      (u.lost = true → u.chip.ttb = ttbFreerun))

/-- R15: a waypoint boundary runs its stages in order: an armed mode switch (R429) first, then time, measurement with
the Meter, the Ledger and the batteries, then Hold-up, Cap, the ports, Share and the sequencer, then the loops, the
black box and the engines' angle waits. While the angle is stopped nothing is issued (R88). The place of the units
that R15 does not list is a reading of the model (log 33). Completes: waypointBoundary. -/
def Obligations.WaypointBoundaryStages : Prop :=
  ∀ (x : WpInputs) (s : State), Running s →
    (s.chip.tim.stopped = true → exec (.waypointBoundary x) s = .next s) ∧
    (s.chip.tim.stopped = false → ∀ m, m = (s.chip.waypointTicks x.ticks.toNat).ovlStage →
      (m.held = true → Effect (.waypointBoundary x) s (fun _ => m)) ∧
      (m.held = false → Effect (.waypointBoundary x) s (fun _ =>
        let timed := (((m.cycleBoundary.ttbWaypoint).stampWp).pairStage).pmWaypoint
        let metered := ((((((timed.meaWaypoint x).meterStage x timed.cal.out).calWaypoint x).ledStage x.ticks.toNat).ledDepot).batStage)
        let bussed := ((((((metered.huStage).capStage).portStage x.ticks.toNat).shStage).seqStage).domHeldStage)
        let looped := bussed.marStage.rippleAll
        let done := (if looped.tim.angle = 0 then looped.rippleCycles else looped).bbxPoint
        (List.range 8).foldl (fun m k => m.waitaBoundary (Fin.ofNat 8 k)) done)))

/-! ### Measurement, calibration and metering -/

/-- R102, R111, R113, R115, R118, R126–R130: the commands of measurement. A round of calibration falls due every
2^CALPER cycles in the enabled unit, and starts, or waits for the one in progress; a present chain becomes STALE once,
after 4 × 2^CALPER cycles without a conversion pair; CAL and MET operations are long operations; a read of CHGF_LO
latches eight words; a write of SNAPREL frees the named banks; a conversion of the input whose turn it is, or of a
phase current that a frame has requested (R177), goes to its result register. That the order of the converter starts
with SUP0, and how requests of several loops are ordered, are the model's readings (logs 110, 131). Completes:
calRoundStart, calStale, calRoundAll, calOneChain, metClearAccumulators, chgfLoRead, snapctlWrite, snaprelWrite,
fastSample, sarConversion. -/
def Obligations.MeasurementCommands : Prop :=
  ∀ (r : Requester) (s : State), Running s →
    let m := s.chip
    let roundDue := m.enabled 5 = true ∧ ∀ n, m.cal.since = some n → m.calPeriod ≤ n
    (¬roundDue → exec .calRoundStart s = .next s) ∧
    (roundDue → m.cal.round = false → Effect .calRoundStart s (fun m =>
      { m with cal := { m.cal with since := some 0, round := true, todo := m.presentChains } })) ∧
    (roundDue → m.cal.round = true → Effect .calRoundStart s (fun m =>
      { m with cal := { m.cal with since := some 0, roundDue := true } })) ∧
    (∀ c : Fin 24,
      let stale := (m.get 5 CAL_STAT_STALE).testBit c = false ∧ chainPresent m.die.part c = true ∧
        4 * m.calPeriod ≤ atN m.cal.age c
      (stale → ∃ t, exec (.calStale c) s = .next t ∧ (t.chip.get 5 CAL_STAT_STALE).testBit c = true ∧
        (t.chip.get 5 HDR_IRQ_RAW_BITS).testBit 5 = true) ∧
      (¬stale → exec (.calStale c) s = .next s)) ∧
    BareCommand (.calRoundAll r) s r 5 1 Chip.calStart ∧
    (∀ arg, LongCommand (.calOneChain r arg) s r 5 2 arg Chip.calStart) ∧
    (∀ arg, LongCommand (.metClearAccumulators r arg) s r 4 1 arg Chip.metStart) ∧
    (m.upset = [] → ∃ t, exec (.chgfLoRead r) s = .next t ∧ t.chip.regs = m.regs ∧ ∀ w, w < 8 →
      t.chip.shadowOf (reqCode r) (MET_CHGF_LO_DATA.addr 4 + 4 * w) =
        some (BitVec.ofNat 32 (m.liveWord (m.metSel (reqCode r)) w))) ∧
    (∀ v, Access (.snapctlWrite r v) s r 4 (fun m => m.snapctlWrite v.toNat)) ∧
    (∀ v : Word, ∃ t, exec (.snaprelWrite r v) s = .next t ∧
      (v.toNat.testBit 0 = true → t.chip.met.bankA.free = true ∧ t.chip.get 4 MET_SNAPSTAT_FREEA = 1) ∧
      (v.toNat.testBit 1 = true → t.chip.met.bankB.free = true ∧ t.chip.get 4 MET_SNAPSTAT_FREEB = 1) ∧
      (v.toNat.testBit 0 = false → t.chip.met.bankA = m.met.bankA) ∧
      (v.toNat.testBit 1 = false → t.chip.met.bankB = m.met.bankB) ∧ t.chip.met.chans = m.met.chans) ∧
    (∀ raw, Effect (.fastSample raw) s (fun m => (((m.meaFast raw).ovDigital).marFast).huFast)) ∧
    (∀ (input : Fin 56) (code : BitVec 12) (gap : BitVec 16),
      let turn := m.sarServes input = true
      (sarPresent m.die.part input = false → ¬turn) ∧
      (sarPresent m.die.part input = true → input.val < 24 ∨ 40 ≤ input.val → (turn ↔ input.val = m.mea.sarNext)) ∧
      (24 ≤ input.val → input.val < 40 → (m.ph (input.val - 24)).reqs = [] → ¬turn) ∧
      (turn → Effect (.sarConversion input code gap) s (fun m =>
        let stored := m.sarStore input code.toNat gap.toNat
        if input.val < 24 then stored.supSar input code.toNat
        else if input.val < 40 then stored.phServed (input.val - 24)
        else if input.val < 48 then stored.portSar (input.val - 40) false code.toNat
        else stored.portSar (input.val - 48) true code.toNat)) ∧
      (¬turn → exec (.sarConversion input code gap) s = .next s))

/-- R103, R112: a fast sample beyond ±8 388 607 saturates at that value and sets the chain's OVRSTAT bit; what is
kept, for every chain that is on, is the corrected code rounded to nearest as a signed 24-bit code, with the sample
before it. That saturation comes before the correction is the model's reading (log 30). -/
def Obligations.FastSampleCodes : Prop :=
  ∀ (m : Chip) (raw : List (BitVec 32)) (c : Nat), c < 24 →
    let given := ((raw[c]?).getD 0).toInt
    let x := max (-8388607) (min 8388607 given)
    let v := divNear ((x - m.getS 5 CAL_OFS_OFS c) * m.get 5 CAL_GAIN_GAIN c) (2 ^ 30)
    let t := m.meaFast raw
    (m.chainOn c = true →
      atI t.mea.fast c = max (-(2 ^ 23)) (min (2 ^ 23 - 1) (if m.get 3 MEA_CHCFG_INV c = 1 then -v else v)) ∧
      (t.get 3 MEA_OVRSTAT_OVR).testBit c = ((m.get 3 MEA_OVRSTAT_OVR).testBit c || decide (x ≠ given))) ∧
    t.mea.fastPrev = m.mea.fast ∧ t.mea.wins = m.mea.wins ∧ t.mem = m.mem

/-! ### Marionette's loops and the phases -/

/-- R160, R164, R137, R161: commands to a loop the member carries. MODECMD leaves a request that commits at the next
frame boundary; ENABLE the same, with CTRL.ENABLE at its new value, and in OFF the PERIOD then in effect (R169); while
Hold-up or protection owns the loop both are refused with code 0x2002 and change no field. A frame boundary runs the
loop's frame; a feedback that has delivered no sample for four sample periods is lost, at once in OFF, else at that
boundary. What a preset takes is a reading of the model (log 37). Completes: modecmdAuto, modecmdManual,
modecmdReload, loopEnableWrite, rippleTableClear, loopFrame, feedbackLost. -/
def Obligations.LoopCommands : Prop :=
  ∀ (r : Requester) (x : Fin 4) (s : State), Running s → x.val < nLoops s.chip.die.part →
    let m := s.chip
    let pg := marPg x
    (m.owner x = 0 → m.mode x ≠ mdAuto → Effect (.modecmdAuto r x) s (fun m =>
      m.modLoop x (fun q => { q with reqAuto := true }))) ∧
    (m.owner x = 0 → m.mode x ≠ mdManual → Effect (.modecmdManual r x) s (fun m =>
      m.modLoop x (fun q => { q with reqManual := true }))) ∧
    (m.owner x = 0 → Effect (.modecmdReload r x) s (fun m => m.modLoop x (fun q => { q with reload := true }))) ∧
    (m.owner x ≠ 0 →
      Effect (.modecmdReload r x) s (fun m => (m.irq (marPg x) 9).emit 0x2002 [x.val, 0x44, m.owner x]) ∧
      (m.mode x ≠ mdAuto → Effect (.modecmdAuto r x) s (fun m => (m.irq (marPg x) 9).emit 0x2002 [x.val, 0x44, m.owner x])) ∧
      (m.mode x ≠ mdManual →
        Effect (.modecmdManual r x) s (fun m => (m.irq (marPg x) 9).emit 0x2002 [x.val, 0x44, m.owner x]))) ∧
    (m.mode x = mdAuto → exec (.modecmdAuto r x) s = .next s) ∧
    (m.mode x = mdManual → exec (.modecmdManual r x) s = .next s) ∧
    (∀ en, m.enabled pg = en → exec (.loopEnableWrite r x en) s = .next s) ∧
    (∀ en, m.enabled pg ≠ en → m.owner x = 0 → Effect (.loopEnableWrite r x en) s (fun m =>
      let n := (m.putB pg HDR_CTRL_ENABLE en).modLoop x (fun q => { q with reqOn := en, reqOff := q.reqOff || !en })
      if en = true ∧ m.mode x = mdOff then n.modPhl x (fun p => { p with period := m.get 0x0C PHM_LPER_PERIOD x }) else n)) ∧
    (∀ en, m.enabled pg ≠ en → m.owner x ≠ 0 → Effect (.loopEnableWrite r x en) s (fun m =>
      (m.irq pg 9).emit 0x2002 [x.val, 0x08, m.owner x])) ∧
    BareCommand (.rippleTableClear r x) s r pg 1 (fun m => m.marStart x) ∧
    (∀ net, Effect (.loopFrame x net) s (fun m => m.frame x (net.map BitVec.toNat))) ∧
    (let lost := 4096 ≤ m.ticksSince (atN m.mea.fastTick (m.fbch x))
     (lost → m.mode x ≠ mdOff → Effect (.feedbackLost x) s (fun m =>
       (m.modLoop x (fun q => { q with good := 0 })).modLoop x (fun q => { q with fbLost := true }))) ∧
     (lost → m.mode x = mdOff → Effect (.feedbackLost x) s (fun m =>
       (m.modLoop x (fun q => { q with good := 0 })).put pg MAR_STAT_FBFLT 1)) ∧
     (¬lost → exec (.feedbackLost x) s = .next s))

/-- R154: a target after the clamp lies within SPMIN and SPMAX wherever SPMIN is no larger than SPMAX, a target inside
is left as it is, and the clamp keeps the order of targets. -/
def Obligations.SetPointClamp : Prop :=
  ∀ (m : Chip) (x : Nat) (v : Int),
    let lo := m.getS (marPg x) MAR_SPMIN_SP
    let hi := m.getS (marPg x) MAR_SPMAX_SP
    lo ≤ hi → lo ≤ m.spClamp x v ∧ m.spClamp x v ≤ hi ∧ (lo ≤ v → v ≤ hi → m.spClamp x v = v) ∧
      (∀ u, u ≤ v → m.spClamp x u ≤ m.spClamp x v)

/-- R169, R176, R182, R189, R187: the Phase Manager's rows on loops and phases. Expiries act only in the state they
end; a locked write of PHCFG or LPER that changes something only sets LOCKWR; PERIOD changes only in OFF and STANDBY,
clamped, and in effect at once in OFF before an ENABLE; a phase changes its loop only between loops that are OFF or
STANDBY; either write is otherwise refused with code 0x201A. A removed phase comes back 65 536 frame periods after its
removal. The report of a dropped write is a reading of the model (log 40). Completes: holdoffExpiry,
derateRequestRelease, phaseReadmitTimeout, lperWrite, phcfgLoopWrite, phclrWrite. -/
def Obligations.PhaseManagerCommands : Prop :=
  ∀ (r : Requester) (s : State), Running s →
    let m := s.chip
    (∀ x : Fin 4, Happens (.holdoffExpiry x) s
      ((m.get 0x0C PHM_LSTAT_HOLDOFF).testBit x = true ∧ 256 ≤ (m.phl x).holdFrames)
      (fun m => (m.maskClr 0x0C PHM_LSTAT_HOLDOFF x).modPhl x (fun q => { q with holdTold := false }))) ∧
    (∀ x : Fin 4, Happens (.derateRequestRelease x) s (m.get 0x0C PHM_DRQ_ASSERTED x = 1 ∧ 256 ≤ (m.phl x).drRun)
      (fun m => ((m.put 0x0C PHM_DRQ_ASSERTED 0 x).put 0x0C PHM_DRQ_EXCESS 0 x).modPhl x
        (fun q => { q with drRun := 0 }))) ∧
    (∀ k : Fin 16, Happens (.phaseReadmitTimeout k) s
      ((m.ph k).readmit = true ∧ 32768 * (m.ph k).remPeriod ≤ m.ticksSince (m.ph k).remTick ∧
        (m.get 0x0C PHM_REMOV_OPEN).testBit k = true)
      (fun m => (m.maskClr 0x0C PHM_REMOV_OPEN k).phReadmit k 1)) ∧
    (∀ (x : Fin 4) (v : Word), x.val < nLoops m.die.part → m.unlockedFor (reqCode r) 0x0C = true →
      (m.mode x = mdOff ∨ m.mode x = mdStandby) → ∃ t, exec (.lperWrite r x v) s = .next t ∧
        t.chip.get 0x0C PHM_LPER_PERIOD x = max 200 (min 8000 (v.toNat % 8192)) ∧
        t.chip.get 0x0C PHM_LPER_DCMTH x = v.toNat / 65536 ∧ t.chip.get 0x0C PHM_LPER_DEM x = v.toNat / 32768 % 2 ∧
        (m.mode x = mdOff → (m.loop x).reqOn = false →
          t.chip.get 0x0C PHM_LPER_PERIOD x ≠ m.get 0x0C PHM_LPER_PERIOD x →
          (t.chip.phl x).period = max 200 (min 8000 (v.toNat % 8192))) ∧
        ∀ key, key ≠ PHM_LPER_PERIOD.addr 0x0C x → t.chip.rd key = m.rd key) ∧
    (∀ (x : Fin 4) (v : Word), x.val < nLoops m.die.part → m.unlockedFor (reqCode r) 0x0C = true →
      m.mode x ≠ mdOff → m.mode x ≠ mdStandby →
      max 200 (min 8000 (v.toNat % 8192)) ≠ m.get 0x0C PHM_LPER_PERIOD x → ∃ t, exec (.lperWrite r x v) s = .next t ∧
        t.chip.get 0x0C PHM_LPER_PERIOD x = m.get 0x0C PHM_LPER_PERIOD x ∧
        t.chip.get 0x0C PHM_LPER_DCMTH x = v.toNat / 65536 ∧ t.chip.get 0x0C PHM_LPER_DEM x = v.toNat / 32768 % 2 ∧
        (t.chip.get 0x0C HDR_IRQ_RAW_BITS).testBit 9 = true) ∧
    (∀ (x : Fin 4) (v : Word), nLoops m.die.part ≤ x.val →
      Effect (.lperWrite r x v) s (fun m => (m.rwlSeen (reqCode r) 0x0C).absentHit (reqCode r) 0x0C)) ∧
    (∀ (k : Fin 16) (v : Word), k.val < nPhases m.die.part → m.unlockedFor (reqCode r) (pwmPg k) = true →
      let new := v.toNat % 8
      let old := m.get (pwmPg k) PWM_PHCFG_LOOP (k % 8)
      ((new = old ∨ ((4 ≤ new ∨ new < nLoops m.die.part) ∧ m.loopIdle old = true ∧ m.loopIdle new = true)) →
        ∃ t, exec (.phcfgLoopWrite r k v) s = .next t ∧ t.chip.get (pwmPg k) PWM_PHCFG_LOOP (k % 8) = new ∧
          t.chip.get (pwmPg k) PWM_PHCFG_SMP (k % 8) = v.toNat / 256 % 2) ∧
      (new ≠ old → (m.loopIdle old = false ∨ m.loopIdle new = false) →
        Effect (.phcfgLoopWrite r k v) s (fun m =>
          (m.rwlSeen (reqCode r) (pwmPg k)).phRefuse (pwmPg k) (0x60 + 4 * (k % 8)) (reqCode r)))) ∧
    (∀ v : Word, 3 ≤ reqCode r → Effect (.phclrWrite r v) s (fun m =>
      (m.rwlSeen (reqCode r) 0x0C).phRefuse 0x0C 0xE8 (reqCode r))) ∧
    (∀ v : Word, reqCode r < 3 → m.unlockedFor (reqCode r) 0x0C = false → v ≠ 0 →
      Effect (.phclrWrite r v) s Chip.lockErr) ∧
    (∀ k : Fin 16, reqCode r < 3 → k.val < nPhases m.die.part → m.unlockedFor (reqCode r) 0x0C = true →
      ∃ t, exec (.phclrWrite r (BitVec.ofNat 32 (2 ^ k.val))) s = .next t ∧
        (t.chip.get 0x0C PHM_REMOV_OPEN).testBit k = false ∧ (t.chip.get 0x0C PHM_OPNLAT_LATCHED).testBit k = false ∧
        t.chip.get (pwmPg k) PWM_PHST_OPNCNT (k % 8) = 0)

/-- R191–R193: the analogue comparator above its level on a loop with ANEN sets the latch with IRQ bit 6, drives the
phases low and trips a loop that has phases and is not OFF; the latch clears by a host's OVCLR on an unlocked page
while PRESENT reads 0, and stays, with a refusal, while it reads 1; an engine's or the loader's write is dropped.
R194–R196: a VSEL value is taken, and is valid unless it has changed more than eight times within 1 ms; VSEL falls
invalid then, or when no value was taken for 1 ms; a block of SETA gives the sum of its codes over 4, valid after four
blocks that are not over; a SETP period gives its high time, limited to 65 535, valid after four good periods, and
invalid 1 ms after the last; an input that falls invalid sets IRQ bit 8 once. When VSEL and SETP edges count is a
reading of the model (log 113). Completes: ovLatchSet, ovclrWrite, vselValueAccepted, vselInvalid, setaBlock,
setpPeriod, setpTimeout. -/
def Obligations.OverVoltageAndSetPointInputs : Prop :=
  (∀ (r : Requester) (x : Fin 4) (s : State), Running s → x.val < nLoops s.chip.die.part →
    let m := s.chip
    (m.get 0x0C PHM_OVCFG_ANEN x = 1 → (m.get 0x0C PHM_OVSTAT_LATCH).testBit x = false →
      ∃ t, exec (.ovLatchSet x true) s = .next t ∧ (t.chip.get 0x0C PHM_OVSTAT_LATCH).testBit x = true ∧
        (t.chip.get 0x0C PHM_OVSTAT_ANALOG).testBit x = true ∧ (t.chip.get 0x0C PHM_OVSTAT_PRESENT).testBit x = true ∧
        (t.chip.get 0x0C HDR_IRQ_RAW_BITS).testBit 6 = true ∧ t.chip.phm.ovLow.testBit x = true ∧
        (m.assigned x ≠ [] → m.mode x ≠ mdOff → t.chip.mode x = mdTripped)) ∧
    (m.get 0x0C PHM_OVCFG_ANEN x = 0 → ∃ t, exec (.ovLatchSet x true) s = .next t ∧
      t.chip.get 0x0C PHM_OVSTAT_LATCH = m.get 0x0C PHM_OVSTAT_LATCH) ∧
    (reqCode r < 3 → m.unlockedFor (reqCode r) 0x0C = true → (m.get 0x0C PHM_OVSTAT_LATCH).testBit x = true →
      ∃ t, exec (.ovclrWrite r (BitVec.ofNat 32 (2 ^ x.val))) s = .next t ∧
        (t.chip.get 0x0C PHM_OVSTAT_LATCH).testBit x = (m.get 0x0C PHM_OVSTAT_PRESENT).testBit x ∧
        ((m.get 0x0C PHM_OVSTAT_PRESENT).testBit x = true → (t.chip.get 0x0C HDR_IRQ_RAW_BITS).testBit 9 = true)) ∧
    (∀ v : Word, 3 ≤ reqCode r → Effect (.ovclrWrite r v) s (fun m => m.rwlSeen (reqCode r) 0x0C)) ∧
    (∃ t, exec (.ovLatchSet x false) s = .next t ∧ t.chip.phm.ovComp.testBit x = false ∧
      t.chip.get 0x0C PHM_OVSTAT_LATCH = m.get 0x0C PHM_OVSTAT_LATCH) ∧
    (∀ v : Word, reqCode r < 3 → m.unlockedFor (reqCode r) 0x0C = false → v.toNat % 16 ≠ 0 →
      Effect (.ovclrWrite r v) s Chip.lockErr)) ∧
  (∀ (s : State), Running s →
    let m := s.chip
    (∀ (n : Fin 8) (run : BitVec 8), run.toNat < 16 → exec (.vselValueAccepted n run) s = .next s) ∧
    (∀ (n : Fin 8) (run : BitVec 8), 16 ≤ run.toNat →
      let changes := m.vselRecent.length + (if m.phm.vselTick.isSome ∧ m.get 0x0C PHM_VSEL_N ≠ n.val then 1 else 0)
      ∃ t, exec (.vselValueAccepted n run) s = .next t ∧ t.chip.get 0x0C PHM_VSEL_N = n.val ∧
        t.chip.phm.vselTick = some m.tim.tick ∧ t.chip.phm.vselChanges.length = changes ∧
        t.chip.get 0x0C PHM_VSEL_VALID = (if changes ≤ 8 then 1 else 0)) ∧
    (m.vselBad = true → ∃ t, exec .vselInvalid s = .next t ∧ t.chip.get 0x0C PHM_VSEL_VALID = 0 ∧
      (m.get 0x0C PHM_VSEL_VALID = 1 → (t.chip.get 0x0C HDR_IRQ_RAW_BITS).testBit 8 = true) ∧
      (m.get 0x0C PHM_VSEL_VALID = 0 → t = s)) ∧
    (m.vselBad = false → exec .vselInvalid s = .next s) ∧
    (∀ sum : BitVec 18, ∃ t, exec (.setaBlock sum false) s = .next t ∧ t.chip.get 0x0C PHM_SETA_X = sum.toNat / 4 ∧
      (3 ≤ m.phm.setaGood → t.chip.get 0x0C PHM_SETA_VALID = 1) ∧
      (m.phm.setaGood < 3 → t.chip.get 0x0C PHM_SETA_VALID = m.get 0x0C PHM_SETA_VALID)) ∧
    (∀ sum : BitVec 18, ∃ t, exec (.setaBlock sum true) s = .next t ∧ t.chip.get 0x0C PHM_SETA_VALID = 0) ∧
    (∀ thigh period : BitVec 32, 200 ≤ period.toNat → m.get 0x0C PHM_SETPCFG_MODE = 0 →
      ∃ t, exec (.setpPeriod thigh period) s = .next t ∧
        t.chip.get 0x0C PHM_SETP_X = min (thigh.toNat * 65536 / period.toNat) 65535 ∧
        t.chip.phm.setpTick = m.tim.tick ∧ (3 ≤ m.phm.setpGood → t.chip.get 0x0C PHM_SETP_VALID = 1)) ∧
    (∀ thigh period : BitVec 32, 0 < period.toNat → period.toNat < 200 → 3 ≤ m.phm.setpShort →
      ∃ t, exec (.setpPeriod thigh period) s = .next t ∧ t.chip.get 0x0C PHM_SETP_VALID = 0) ∧
    (msTicks ≤ m.ticksSince m.phm.setpTick → ∃ t, exec .setpTimeout s = .next t ∧
      t.chip.get 0x0C PHM_SETP_VALID = 0 ∧ t.chip.phm.setpGood = 0) ∧
    (m.ticksSince m.phm.setpTick < msTicks → exec .setpTimeout s = .next s))

/-! ### Bus management: contexts, Share, Cap and Hold-up -/

/-- R63–R71: the PMBus ports and the contexts. A round falls due on a controller that leads once POLLDIV waypoints
have passed, and is queued, or waits for the one that runs; the good end of a transaction frees the bus; an end of a
port without a transaction changes nothing but the stuck mark; an alert shows as the level of SMBALERT# and, where it
is served, waits for its place (R64), once in a waypoint, by a read of STATUS_WORD; a standby takes what it snoops,
and only polls count as good telemetry; a raw transaction is a long operation. ENTRY0 allocates, frees or refuses by
the state of the selected context; in CONFIGURED and LOST it replaces BUS, ADDR and CLASS (the model's choice, log
102). Completes: pmbusPollRound, pmbusTransactionEnd, pmbusSdaStuck, smbalertService, pmbusSnoopResponse,
pmbRawTransaction, ctxEntry0Write. -/
def Obligations.PmbusAndContextCommands : Prop :=
  ∀ (r : Requester) (p : Fin 2) (s : State), Running s →
    let m := s.chip
    let c := m.ctxSel (reqCode r)
    let div := m.get (0x32 + p) PMB_CFG_POLLDIV
    let due := m.leads = true ∧ div ≠ 0 ∧ div ≤ (m.pm p).pollWp
    (due → (m.pm p).polling = false → Effect (.pmbusPollRound p) s (fun m =>
      (m.setPm p { m.pm p with pollWp := (m.pm p).pollWp % div }).roundStart p)) ∧
    (due → m.ports.length = 2 → (m.pm p).polling = true → Effect (.pmbusPollRound p) s (fun m =>
      m.setPm p { m.pm p with pollWp := (m.pm p).pollWp % div, roundDue := true })) ∧
    (¬due → exec (.pmbusPollRound p) s = .next s) ∧
    (∀ e, Effect (.pmbusTransactionEnd e p) s (fun m => m.pmEnd p e)) ∧
    (∀ t data o, (m.pm p).cur = some t → t.kind = 3 → m.opOf (0x32 + p) = some o → o.phase ≠ 9 → m.ports.length = 2 →
      (m.pm p).roundDue = false → ∃ u, exec (.pmbusTransactionEnd (.good data) p) s = .next u ∧
        u.chip.get (0x32 + p) HDR_STATUS_BUSY = 0 ∧ u.chip.get (0x32 + p) HDR_STATUS_DONE = 1 ∧
        u.chip.get (0x32 + p) HDR_STATUS_PROGRESS = 255 ∧ u.chip.get (0x32 + p) HDR_STATUS_PVALID = 1) ∧
    (m.leads = true → Effect (.pmbusSdaStuck p) s (fun m =>
      (m.setPm p { m.pm p with stuck := true }).emit 0xA012 [p.val])) ∧
    (m.leads = false → exec (.pmbusSdaStuck p) s = .next s) ∧
    (∀ target : BitVec 7,
      let serves := m.leads = true ∧ m.get (0x32 + p) PMB_CFG_ALERTEN = 1 ∧ (m.pm p).served.contains target.toNat = false
      (serves → Effect (.smbalertService p target true) s (fun m =>
        (m.setPm p { m.pm p with alertLow := true, alerts := addOnce (m.pm p).alerts target.toNat }).pmPick p)) ∧
      (serves → m.ports.length = 2 → (m.pm p).cur = none → (m.pm p).trims = [] → (m.pm p).alerts = [] →
        ∃ t, exec (.smbalertService p target true) s = .next t ∧
          (t.chip.pm p).served = (m.pm p).served ++ [target.toNat] ∧ (t.chip.pm p).alerts = [] ∧
          ∀ k, m.ctxAt p target.toNat = some k → (t.chip.pm p).cur = some
            { ctx := k, cmd := 0x79, read := true, kind := 1, pec := m.has (0x32 + p) PMB_CFG_PEC }) ∧
      (¬serves → Effect (.smbalertService p target true) s (fun m => m.setPm p { m.pm p with alertLow := true }))) ∧
    (∀ target, m.leads = true → m.get (0x32 + p) PMB_CFG_ALERTEN = 1 → (m.pm p).cur = none → (m.pm p).trims = [] →
      Effect (.smbalertService p target false) s (fun m =>
        m.setPm p { m.pm p with alertLow := true, naks := (m.pm p).naks + 1 })) ∧
    (∀ (k : Fin 128) (cmd : BitVec 8) data, Happens (.pmbusSnoopResponse p k cmd data) s
      (m.leads = false ∧ k.val ≠ 0 ∧ (m.ctx k).bus = p.val + 1)
      (fun m => m.ctxResponse k cmd.toNat data (isPollCmd cmd.toNat))) ∧
    (∀ arg, LongCommand (.pmbRawTransaction r p arg) s r (0x32 + p) 1 arg (fun m => m.pmRaw p)) ∧
    (∀ v : Word, c ≠ 0 → (m.ctx c).bus ≠ 3 → v.toNat / 256 % 256 ≠ 3 →
      (v.toNat % 256 = 0 → Effect (.ctxEntry0Write r v) s (fun m => m.ctxFree c)) ∧
      (v.toNat % 256 ≠ 0 → (m.ctx c).state = 0 → Effect (.ctxEntry0Write r v) s (fun m =>
        m.ctxAlloc c (v.toNat / 256 % 256) (v.toNat / 65536 % 128) (v.toNat % 256))) ∧
      (v.toNat % 256 ≠ 0 → ((m.ctx c).state = 2 ∨ (m.ctx c).state = 3) →
        Effect (.ctxEntry0Write r v) s (fun m => m.irq 0x34 4)) ∧
      (v.toNat % 256 ≠ 0 → ((m.ctx c).state = 1 ∨ (m.ctx c).state = 4) → m.ctxs.length = 128 →
        ∃ t, exec (.ctxEntry0Write r v) s = .next t ∧ (t.chip.ctx c).bus = v.toNat / 256 % 256 ∧
          (t.chip.ctx c).addr = v.toNat / 65536 % 128 ∧ (t.chip.ctx c).cls = v.toNat % 256 ∧
          (t.chip.ctx c).state = (m.ctx c).state ∧ (t.chip.ctx c).miss = (m.ctx c).miss)) ∧
    (∀ v : Word, c ≠ 0 → (m.ctx c).bus = 3 → Effect (.ctxEntry0Write r v) s (fun m => m.irq 0x34 4)) ∧
    (∀ v, c = 0 → exec (.ctxEntry0Write r v) s = .next s)

/-- R70: a context's misses count to 15, its third in a row makes a context in use LOST, and good telemetry ends them:
the context is then ONLINE, or FAULT where its HEALTH meets FLTMASK. -/
def Obligations.ContextStates : Prop :=
  ∀ (m : Chip) (c : Nat), c < m.ctxs.length → (m.ctx c).state ≠ 0 →
    ((m.ctxMiss c).ctx c).miss = min 15 ((m.ctx c).miss + 1) ∧
    ((m.ctx c).miss = 2 → (m.ctx c).state ∈ [1, 2, 3] → (m.batPages c) = [] → (m.ctx c).bus ≠ 3 →
      ((m.ctxMiss c).ctx c).state = 4) ∧
    ((m.ctx c).miss ≠ 2 → ((m.ctxMiss c).ctx c).state = (m.ctx c).state) ∧
    ((m.ctxGood c).ctx c).miss = 0 ∧ ((m.ctxGood c).ctx c).stamp = m.stamp ∧
    ((m.ctxGood c).ctx c).state = (if (m.ctx c).health &&& m.get 0x34 CTX_FLTMASK_MASK ≠ 0 then 3 else 2)

/-- R210–R215: Cap. The Ledger's and the energy words are latched by their first reads; the ladder advances only while
Over is positive and the step is at its end or stable for STEPWP waypoints, to the next step it may enter; it releases
only after RELWP waypoints, once a waypoint, keeps what requests still asserted hold (R218), and leaves a step whose
amount is zero; surplus and an unanswered derate act on their conditions; ENABLE 0 returns every limit at once.
Completes: lgridRead, grideLoRead, capStepAdvance, capStepRelease, capSurplus, capDerateNoresp, capEnableWrite. -/
def Obligations.CapCommands : Prop :=
  ∀ (r : Requester) (s : State), Running s →
    let m := s.chip
    (∃ t, exec (.lgridRead r) s = .next t ∧ t.chip.regs = m.regs ∧ ∀ k, k < 13 →
      t.chip.shadowOf (reqCode r) (CAP_LGRID_P.addr 0x1E + 4 * k) = some (m.rd (CAP_LGRID_P.addr 0x1E + 4 * k))) ∧
    (∃ t, exec (.grideLoRead r) s = .next t ∧ t.chip.regs = m.regs ∧ ∀ k, k < 4 →
      t.chip.shadowOf (reqCode r) (CAP_GRIDE_LO_DATA.addr 0x1E + 4 * k) = some (m.rd (CAP_GRIDE_LO_DATA.addr 0x1E + 4 * k))) ∧
    (∀ k, m.enabled 0x1E = true → 0 < m.capOver → (m.capAtEnd = true ∨ m.get 0x1E CAP_LAD_STEPWP ≤ m.cap.stab) →
      m.capNext = some k → m.capStep < k ∧ k ≤ 4 ∧ Effect .capStepAdvance s (fun m => m.capEnter k)) ∧
    ((m.enabled 0x1E = false ∨ m.capOver ≤ 0 ∨ (m.capAtEnd = false ∧ m.cap.stab < m.get 0x1E CAP_LAD_STEPWP) ∨
      m.capNext = none) → exec .capStepAdvance s = .next s) ∧
    (let releases := m.enabled 0x1E = true ∧ m.cap.released = false ∧ m.get 0x1E CAP_LAD_RELWP ≤ m.cap.relRun
     let n := { m with cap := { m.cap with released := true } }
     let give := fun (amount : Int) (locked : List Int) => n.capGive amount (locked.foldl (· + ·) 0)
     (releases → m.capStep = 1 → Effect .capStepRelease s (fun _ =>
       if m.get 0x1E CAP_APPL0_S1 ≠ 0 then n else n.capDown)) ∧
     (releases → m.capStep = 2 → Effect .capStepRelease s (fun _ =>
       if m.get 0x1E CAP_APPL0_S2 ≠ 0 then n.capAdvance false else (n.capAdvance false).capDown)) ∧
     (releases → m.capStep = 3 → ∀ q : Chip,
       q = (if give m.capS3 (m.cap.locks.map Prod.fst) ≤ 0 then n else n.capRaise3 (give m.capS3 (m.cap.locks.map Prod.fst))) →
       Effect .capStepRelease s (fun _ => if q.derated = [] then q.capDown else q)) ∧
     (releases → m.capStep = 4 → ∀ q : Chip,
       q = (if give m.capS4 (m.cap.locks.map Prod.snd) ≤ 0 then n else n.capRaise4 (give m.capS4 (m.cap.locks.map Prod.snd))) →
       Effect .capStepRelease s (fun _ => if q.cap.base.all Option.isNone then q.capDown else q)) ∧
     ((¬releases ∨ m.capStep = 0) → exec .capStepRelease s = .next s)) ∧
    (m.enabled 0x1E = true → max 1 (m.get 0x1E CAP_SURP_SURPWP) ≤ m.cap.surpRun →
      (m.capGov.any (fun x => match m.strOf x with
        | some n => !m.strFull n && !m.strInhibited n
        | none => false)) = false → m.get 0x1E CAP_STAT_SURPLUS = 0 →
      Effect .capSurplus s (fun m =>
        (((({ m.put 0x1E CAP_STAT_SURPLUS 1 with cap := { m.cap with give := false } }).irq 0x1E 5).raise 57).emit 0x1042
          [sp (m.pow CAP_LSURP_P)] |>.busDepotWp 6 0).capAllow)) ∧
    (m.enabled 0x1E = true → max 1 (m.get 0x1E CAP_SURP_SURPWP) ≤ m.cap.surpRun →
      (m.capGov.any (fun x => match m.strOf x with
        | some n => !m.strFull n && !m.strInhibited n
        | none => false)) = true →
      Effect .capSurplus s (fun m => { m with cap := { m.cap with raise := true } })) ∧
    ((m.enabled 0x1E = false ∨ m.cap.surpRun < m.get 0x1E CAP_SURP_SURPWP) → exec .capSurplus s = .next s) ∧
    (∀ (c : Fin 128) t, (m.ctx c).derateAt = some t → m.enabled 0x1E = true → m.isCassette c = true →
      (m.ctx c).noresp = false → t + m.get 0x1E CAP_LAD_DRESP ≤ m.tim.wpCount → m.ctxShare c < m.ctxDraw c →
      m.capMay 4 = false → Effect (.capDerateNoresp c) s (fun m =>
        (((m.setCtx c { m.ctx c with noresp := true }).put 0x1E CAP_STAT_NORESP 1).irq 0x1E 7).emit 0x1045
          [c.val, (m.ctx c).capshare, w16 (m.ctxDraw c)])) ∧
    (∀ (c : Fin 128) t, (m.ctx c).derateAt = some t → m.enabled 0x1E = true → m.isCassette c = true →
      (m.ctx c).noresp = false → t + m.get 0x1E CAP_LAD_DRESP ≤ m.tim.wpCount → m.ctxShare c < m.ctxDraw c →
      m.capMay 4 = true → Effect (.capDerateNoresp c) s (fun m =>
        ((((m.setCtx c { m.ctx c with noresp := true }).put 0x1E CAP_STAT_NORESP 1).irq 0x1E 7).emit 0x1045
          [c.val, (m.ctx c).capshare, w16 (m.ctxDraw c)]).capTake4 (m.ctxDraw c - m.ctxShare c))) ∧
    (∀ c : Fin 128, (m.ctx c).derateAt = none → exec (.capDerateNoresp c) s = .next s) ∧
    Effect (.capEnableWrite r true) s (fun m => m.put 0x1E HDR_CTRL_ENABLE 1) ∧
    (∃ t, exec (.capEnableWrite r false) s = .next t ∧ t.chip.enabled 0x1E = false ∧ t.chip.capStep = 0 ∧
      t.chip.get 0x1E CAP_STAT_SURPLUS = 0 ∧
      (∀ n, n < 12 → t.chip.rd (CAP_DLIM_FWDLIM.addr 0x1E n) = 0xFFFFFFFF) ∧
      (∀ c, c < 128 → c < m.ctxs.length → (t.chip.ctx c).capshare = 0xFFFF))

/-- R202, R204, R221–R225: Share and Hold-up. SHARE's ENABLE is stored and tested at the next boundary; a cadence acts
only when due. Hold-up's ENABLE 0 enters OFF; RETURN starts, ramps, repeats and times out only in the state and with
the condition the rows name; its test is a long operation. From which boundary RETDLY counts is a reading of the model
(log 41). Completes: shareEnableWrite, shareCadence, holdupEnableWrite, holdupReturnStart, holdupRampStep,
holdupRamploRepeat, holdupReturnTimeout, holdupTest. -/
def Obligations.ShareAndHoldupCommands : Prop :=
  ∀ (r : Requester) (s : State), Running s →
    let m := s.chip
    (∀ en, Effect (.shareEnableWrite r en) s (fun m => m.putB 0x1D HDR_CTRL_ENABLE en)) ∧
    (m.shr.due = false → exec .shareCadence s = .next s) ∧
    (m.shr.due = true → Effect .shareCadence s (fun m => m.shCadence)) ∧
    (m.shr.due = true → ∃ t, exec .shareCadence s = .next t ∧ t.chip.shr.due = false) ∧
    (m.huState ≠ huOff → Effect (.holdupEnableWrite r false) s (fun m => (m.putB 0x1F HDR_CTRL_ENABLE false).huStop)) ∧
    (m.huState = huOff → Effect (.holdupEnableWrite r false) s (fun m => m.putB 0x1F HDR_CTRL_ENABLE false)) ∧
    (m.huState = huOff → m.leads = true → ∃ t, exec (.holdupEnableWrite r true) s = .next t ∧
      t.chip.enabled 0x1F = true ∧
      t.chip.huState = (if t.chip.get 0x1F HLD_STAT_READY = 0 then huNotReady else huArmed)) ∧
    Happens .holdupReturnStart s (m.huState = huCarry ∧ m.hld.startDue = true)
      (fun m => m.huReturnEnter m.tim.wpStamp) ∧
    Happens .holdupRampStep s (m.huState = huReturn ∧ m.hld.rampDue = true) (fun m =>
      let mv := min (m.get 0x1D SHR_VNOM_VNOM) (m.hld.rampMv + max 1 (m.get 0x1F HLD_RAMP_RAMPSTEP))
      (({ m with hld := { m.hld with rampMv := mv, rampDue := false } }).huWrite m.usedSlots mv).count 0x1F HLD_STAT_RAMPN) ∧
    Happens .holdupRamploRepeat s (m.huState = huCarry ∧ m.hld.repeatDue = true) (fun m =>
      ({ m with hld := { m.hld with repeatDue := false } }).huWrite
        (m.usedSlots.filter (fun n => (m.ctx (m.slotCtx n)).lastFailed)) (m.huLow (m.get 0x1F HLD_STAT_CAUSE))) ∧
    Happens .holdupReturnTimeout s (m.huState = huReturn ∧ m.hld.timeoutDue = true) Chip.huTimeout ∧
    (∀ arg, LongCommand (.holdupTest r arg) s r 0x1F 1 arg Chip.huOpStart)

/-! ### Switched domains -/

/-- What a trip leaves (R245): the fault latch when RCNT stands at RETRYN and RETRYN is not 15, RETRY otherwise; the
cause in STn.CAUSE; one more trip counted, saturating; IRQ bit 4. -/
def Sys2Proof.Machine.Chip.Tripped (m t : Chip) (n cause : Nat) : Prop :=
  t.dst n = (if m.dg DOM_TIM_RETRYN n ≠ 15 ∧ m.dg DOM_ST_RCNT n = m.dg DOM_TIM_RETRYN n then dmLatched else dmRetry) ∧
  t.dg DOM_ST_CAUSE n = cause ∧ t.dg DOM_CNT_TRIPS n = satInc 16 (m.dg DOM_CNT_TRIPS n) ∧
  (t.get (domPg n) HDR_IRQ_RAW_BITS).testBit 4 = true

/-- R241, R240, R245: the five trips that commands bring, on a domain the member carries: each trips only in its
states, on its own test, with its own cause; elsewhere it changes nothing. R234, R237–R240, R245, R247, R248: a
monitor step stores what it converted; presence gained takes EMPTY to INSERT, and lost takes INSERT to LATCHED to
EMPTY while PRSEN is 1; the 1 ms with the gate off ends in INSERT, or in EMPTY if presence is absent; the delays, the
retry, the count reset, the reverse block and its end, and the damaged-FET latch act only where their conditions hold.
On a domain the member does not carry none of them changes anything. The quantised levels, the resolution of the
thermal model and where removal acts are readings of the model (logs 44, 45 and 46). Completes: monitorStep,
presenceGained, presenceLost, insertionDelayEnd, gateOffWaitEnd, domainShortCircuit, domainReverseShort,
domainBreakerTrip, domainLimitTimeout, domainRampTimeout, domainRetryStart, domainRcntReset, domainReverseBlock,
domainReverseReenable, domainDamagedFet. -/
def Obligations.DomainTripsAndHappenings : Prop :=
  (∀ (n : Fin 12) (s : State), Running s → n.val < nDomains s.chip.die.part →
    let m := s.chip
    (m.dst n = dmRamp ∨ m.dst n = dmOn →
      (∀ t9 : BitVec 9, ∃ t, exec (.domainShortCircuit n t9) s = .next t ∧ m.Tripped t.chip n 1) ∧
      (∀ t9 : BitVec 9, ∃ t, exec (.domainReverseShort n t9) s = .next t ∧ m.Tripped t.chip n 6) ∧
      (max 1 (m.dg DOM_TIM_LIMT n) * 500 ≤ (m.dm n).limRun →
        ∃ t, exec (.domainLimitTimeout n) s = .next t ∧ m.Tripped t.chip n 3)) ∧
    (m.dst n = dmOn → max 1 (m.dg DOM_TIM_BRKT n) * 5 ≤ (m.dm n).brkRun →
      ∃ t, exec (.domainBreakerTrip n) s = .next t ∧ m.Tripped t.chip n 2) ∧
    (m.dst n = dmRamp → 2 * m.dg DOM_MON2_VBUS n * 20000 ≤
        max 1 (min 500 (m.dg DOM_DCFG_DVDT n)) * (m.dm n).rampTicks →
      ∃ t, exec (.domainRampTimeout n) s = .next t ∧ m.Tripped t.chip n 5) ∧
    (m.dst n ≠ dmRamp → m.dst n ≠ dmOn →
      (∀ t9 : BitVec 9, exec (.domainShortCircuit n t9) s = .next s ∧ exec (.domainReverseShort n t9) s = .next s) ∧
      exec (.domainLimitTimeout n) s = .next s ∧ exec (.domainBreakerTrip n) s = .next s ∧
      exec (.domainRampTimeout n) s = .next s)) ∧
  (∀ (n : Fin 12) (s : State), Running s → n.val < nDomains s.chip.die.part →
    let m := s.chip
    let d := m.dm n
    (∀ x : MonIn, ∃ t, exec (.monitorStep n x) s = .next t ∧ t.chip.dg DOM_MON_VOUT n = x.out.toNat ∧
      t.chip.dg DOM_MON_I n = x.i.toNat ∧ t.chip.dg DOM_MON2_VBUS n = x.bus.toNat ∧
      t.chip.dg DOM_DMG_VSRC n = x.src.toNat) ∧
    (∃ t, exec (.presenceGained n) s = .next t ∧ (t.chip.get (domPg n) DOM_PRS_PRES).testBit (n % 4) = true ∧
      t.chip.dst n = (if m.dst n = dmEmpty then dmInsert else m.dst n)) ∧
    (∃ t, exec (.presenceLost n) s = .next t ∧ (t.chip.get (domPg n) DOM_PRS_PRES).testBit (n % 4) = false ∧
      t.chip.dst n = (if m.dg DOM_GCTL_PRSEN n = 1 ∧ dmInsert ≤ m.dst n ∧ m.dst n ≤ dmLatched then dmEmpty else m.dst n) ∧
      (m.dg DOM_GCTL_PRSEN n = 1 → t.chip.dg DOM_ST_LATCHED n = 0 ∧ t.chip.dg DOM_ST_RCNT n = 0)) ∧
    Happens (.insertionDelayEnd n) s
      (m.dst n = dmInsert ∧ max 1 (m.dg DOM_DCFG_INSDLY n) * 5000 ≤ d.insRun)
      (fun m => (m.domRampStart n).emit 0x3007 [n, up (m.dg DOM_MON2_VBUS n)]) ∧
    Happens (.gateOffWaitEnd n) s (d.waiting = true ∧ 500 ≤ d.waitRun) (fun m =>
      if m.dg DOM_GCTL_PRSEN n = 0 ∨ (m.get (domPg n) DOM_PRS_PRES).testBit (n % 4) = true then
        (m.domGoOff n dmInsert .off).irq (domPg n) 8
      else m.domGoOff n dmEmpty .off) ∧
    (m.dst n = dmRetry → d.offLeft = 0 → m.dg DOM_GCTL_EN n = 1 → m.domTj n ≤ (m.dg DOM_TJ_TJCOOL n : Int) * 16 →
      ∃ t, exec (.domainRetryStart n) s = .next t ∧ t.chip.dst n = dmRamp ∧
        t.chip.dg DOM_ST_RCNT n = satInc 4 (m.dg DOM_ST_RCNT n) ∧
        t.chip.dg DOM_CNT_RETRIES n = satInc 8 (m.dg DOM_CNT_RETRIES n)) ∧
    (¬(m.dst n = dmRetry ∧ d.offLeft = 0 ∧ m.dg DOM_GCTL_EN n = 1 ∧ m.domTj n ≤ (m.dg DOM_TJ_TJCOOL n : Int) * 16) →
      exec (.domainRetryStart n) s = .next s) ∧
    Happens (.domainRcntReset n) s (m.dst n = dmOn ∧ 5000000 ≤ d.onRun) (fun m => m.dp DOM_ST_RCNT 0 n) ∧
    (∀ i : BitVec 16, Happens (.domainReverseBlock n i) s
      (m.dst n = dmOn ∧ m.dg DOM_ST_BLOCK n = 0 ∧ (m.dg DOM_GCTL_REVEN n = 0 ∨ m.domRevEff n = 0) ∧
        levelAmps (m.get 5 CAL_SCALE_SCALE n) d.lev.rblk < i.toNat)
      (fun m => (((m.dp DOM_ST_BLOCK 1 n).modDm n (fun d => { d with gate := .off, rdvRun := 0 })).count (domPg n)
        DOM_CNT_BLOCKS (n % 4)).emit 0x300A [n, up i.toNat])) ∧
    Happens (.domainReverseReenable n) s (m.dg DOM_ST_BLOCK n = 1 ∧ 4 ≤ d.rdvRun)
      (fun m => (m.dp DOM_ST_BLOCK 0 n).modDm n (fun d => { d with gate := .on, rdvRun := 0 })) ∧
    (m.domTests n = true → (64 ≤ d.dmgSrc ∨ 64 ≤ d.dmgOut) → m.dg DOM_ST_DAMAGED n = 0 →
      ∃ t, exec (.domainDamagedFet n) s = .next t ∧ t.chip.dg DOM_ST_DAMAGED n = 1 ∧
        t.chip.dg DOM_ST_DMGC n = (if 64 ≤ d.dmgSrc then 1 else 2) ∧
        t.chip.dst n = (if m.dst n = dmStandby then dmStandby else dmDamaged) ∧
        (t.chip.get (domPg n) HDR_IRQ_RAW_BITS).testBit 6 = true) ∧
    (m.domTests n = false → exec (.domainDamagedFet n) s = .next s)) ∧
  (∀ (n : Fin 12) (s : State), Running s → nDomains s.chip.die.part ≤ n.val →
    (∀ x : MonIn, exec (.monitorStep n x) s = .next s) ∧
    (∀ t9 : BitVec 9, exec (.domainShortCircuit n t9) s = .next s ∧ exec (.domainReverseShort n t9) s = .next s) ∧
    (∀ i : BitVec 16, exec (.domainReverseBlock n i) s = .next s) ∧
    ∀ c ∈ [.presenceGained n, .presenceLost n, .insertionDelayEnd n, .gateOffWaitEnd n, .domainRetryStart n,
      .domainRcntReset n, .domainReverseReenable n, .domainDamagedFet n, .domainLimitTimeout n, .domainBreakerTrip n,
      .domainRampTimeout n], exec c s = .next s)

/-- R235, R236, R249–R251: the host rows of a domain on a page the member carries. Only a host that unlocked the page
clears a latch, and a cleared fault latch takes RCNT with it; EN goes to 1 only with a valid configuration and no
claim of protection, both after the trips of the same monitor step; a level write says whether the configuration is
valid; a page that is disabled puts its four domains OFF. The order of the configuration check and protection is a
reading of the model (log 45). Completes: domainClearLatch, domainClearDamage, domainEnWrite, domainLevelWrite,
domPageEnableWrite. -/
def Obligations.DomainHostRows : Prop :=
  ∀ (r : Requester) (s : State), Running s →
    let m := s.chip
    (∀ n : Fin 12, pageAbsent m.die.part (domPg n) = true →
      Effect (.domainClearLatch r n) s (fun m => m.absentHit (reqCode r) (domPg n)) ∧
      Effect (.domainClearDamage r n) s (fun m => m.absentHit (reqCode r) (domPg n)) ∧
      ∀ en, Effect (.domainEnWrite r n en) s (fun m => m.absentHit (reqCode r) (domPg n))) ∧
    (∀ n : Fin 12, pageAbsent m.die.part (domPg n) = false →
      (isHost (reqCode r) = false →
        Effect (.domainClearLatch r n) s (fun m => (m.rwlSeen (reqCode r) (domPg n)).irq (domPg n) 10) ∧
        Effect (.domainClearDamage r n) s (fun m => (m.rwlSeen (reqCode r) (domPg n)).irq (domPg n) 10)) ∧
      (isHost (reqCode r) = true → m.unlockedFor (reqCode r) (domPg n) = false →
        Effect (.domainClearLatch r n) s Chip.lockErr ∧ Effect (.domainClearDamage r n) s Chip.lockErr) ∧
      (isHost (reqCode r) = true → m.unlockedFor (reqCode r) (domPg n) = true →
        (m.dg DOM_ST_LATCHED n = 1 → ∃ t, exec (.domainClearLatch r n) s = .next t ∧
          t.chip.dg DOM_ST_LATCHED n = 0 ∧ t.chip.dg DOM_ST_RCNT n = 0) ∧
        (m.dg DOM_ST_LATCHED n = 0 → Effect (.domainClearLatch r n) s (fun m => m.rwlSeen (reqCode r) (domPg n))) ∧
        (m.dg DOM_ST_DAMAGED n = 1 → ∃ t, exec (.domainClearDamage r n) s = .next t ∧ t.chip.dg DOM_ST_DAMAGED n = 0 ∧
          (m.dst n = dmDamaged → m.dg DOM_GCTL_EN n = 0 → t.chip.dst n = dmOff)) ∧
        (m.dg DOM_ST_DAMAGED n = 0 → Effect (.domainClearDamage r n) s (fun m => m.rwlSeen (reqCode r) (domPg n)))) ∧
      (let k := (m.domTripsDue n).domDamaged n
       (∃ t, exec (.domainEnWrite r n false) s = .next t ∧ t.chip.dg DOM_GCTL_EN n = 0 ∧ t.chip.dg DOM_ST_HELD n = 0 ∧
          t.chip.dst n = (if (k.dm n).waiting = false ∧ (k.dst n = dmStandby ∨ k.dst n = dmDamaged) then k.dst n else dmOff)) ∧
       (m.dg DOM_GCTL_EN n = 1 → Effect (.domainEnWrite r n true) s (fun _ => k)) ∧
       (m.dg DOM_GCTL_EN n = 0 →
         (m.domValid n = false → Effect (.domainEnWrite r n true) s (fun _ =>
           ((k.dp DOM_ST_CFGERR 1 n).irq (domPg n) 11).emit 0x300B [n, 1, reqCode r])) ∧
         (m.domValid n = true → k.domClaimed n = true → Effect (.domainEnWrite r n true) s (fun _ =>
           (k.irq (domPg n) 10).emit 0x300B [n, 2, reqCode r])) ∧
         (m.domValid n = true → k.domClaimed n = false → ∃ t, exec (.domainEnWrite r n true) s = .next t ∧
           t.chip.dg DOM_GCTL_EN n = 1 ∧ t.chip.dg DOM_ST_HELD n = 0 ∧ t.chip.dg DOM_ST_CFGERR n = 0)))) ∧
    (∀ (n : Fin 12) (k : Fin 3) (v : Word), RwlAccess (.domainLevelWrite r n k v) s r (domPg n)
      (fun m =>
        let w := m.plainWrite (reqCode r) ((domLevelReg k).addr (domPg n) (n % 4)) v.toNat
        if m.unlockedFor (reqCode r) (domPg n) then w.domLevelsWritten n else w)) ∧
    (∀ (p : Fin 3) (en : Bool), pageAbsent m.die.part (0x0D + p) = true →
      Effect (.domPageEnableWrite r p en) s (fun m => m.absentHit (reqCode r) (0x0D + p))) ∧
    (∀ (p : Fin 3) (en : Bool), pageAbsent m.die.part (0x0D + p) = false →
      (m.enabled (0x0D + p) = true → en = true → exec (.domPageEnableWrite r p en) s = .next s) ∧
      (en = false → ∃ t, exec (.domPageEnableWrite r p en) s = .next t ∧
        t.chip.enabled (0x0D + p) = false ∧ ∀ j, j < 4 → t.chip.dst (4 * p + j) = dmOff) ∧
      (m.enabled (0x0D + p) = false → en = true → m.leads = false → ∃ t, exec (.domPageEnableWrite r p en) s = .next t ∧
        t.chip.enabled (0x0D + p) = true ∧ ∀ j, j < 4 → t.chip.dst (4 * p + j) = dmStandby) ∧
      (m.enabled (0x0D + p) = false → en = true → m.leads = true → ∃ t, exec (.domPageEnableWrite r p en) s = .next t ∧
        t.chip.enabled (0x0D + p) = true ∧ ∀ j, j < 4 → m.dg DOM_GCTL_EN (4 * p + j) = 0 →
          m.dg DOM_ST_DAMAGED (4 * p + j) = 0 → t.chip.dst (4 * p + j) = dmOff))

/-! ### Cable ports -/

/-- The state in which a port that enters an unattached state stands, by the terminations it sees (R259). -/
def Sys2Proof.Machine.Chip.lands (m : Chip) (n : Nat) : Nat :=
  if m.sourceOnly n then (if (m.port n).oneRd then tcAttwSrc else tcUnattSrc)
  else if (m.port n).oneRp then tcAttwSnk else tcUnattSnk

/-- R259–R264, R286: the attachment of a port the member carries. Each timer acts once it has run out and in its own
states, on what the CC pins and VBSn show: tCCDebounce attaches or starts Try, tPDDebounce gives up, tTryCCDebounce
attaches, tDRPTry moves on, tDRP changes sides; a loss of Rd, while the port shows Rp, or of VBUS detaches; PRIME
follows the insertion delay, and its end closes the guard or finds it damaged. When a timer runs out is log 115.
Completes: ccTerminationChange, tccDebounceExpiry, tpdDebounceExpiry, ttryccDebounceExpiry, tdrpToggle, tdrptryExpiry,
errorRecoveryEnd, srcDisconnectExpiry, sinkDetach, vconnFault, portInsertionDelayEnd, primeEnd, guardDamageDetect. -/
def Obligations.PortAttachment : Prop :=
  ∀ (n : Fin 8) (s : State), Running s → n.val < nPorts s.chip.die.part →
    let m := s.chip
    let p := m.port n
    let due := fun k : PortTimer => m.portDue n k = true
    let goesTo := fun (c : Instr) (st : Nat) => ∃ t, exec c s = .next t ∧ t.chip.tc n = st
    (∀ c1 c2, Effect (.ccTerminationChange n c1 c2) s (fun m => m.ccChange n c1 c2)) ∧
    (∀ x ∈ [(Instr.tccDebounceExpiry n, PortTimer.ccDebounce), (.tpdDebounceExpiry n, .pdDebounce),
      (.ttryccDebounceExpiry n, .tryDebounce), (.tdrptryExpiry n, .tryEnd), (.tdrpToggle n, .drp),
      (.errorRecoveryEnd n, .recovery), (.srcDisconnectExpiry n, .disconnect), (.portInsertionDelayEnd n, .insertion),
      (.primeEnd n, .prime)], m.portDue n x.2 = false → exec x.1 s = .next s) ∧
    (due .ccDebounce → m.tc n = tcAttwSnk → p.oneRp = true → 400 ≤ m.vbus n →
      goesTo (.tccDebounceExpiry n) (if m.dualRole n = true ∧ m.pf PD_CFG_TRY n = 1 then tcTrySrc else tcAttSnk)) ∧
    (due .ccDebounce → m.tc n = tcAttwSrc → p.oneRd = true → m.vbus n < 80 →
      goesTo (.tccDebounceExpiry n) (if m.dualRole n = true ∧ m.pf PD_CFG_TRY n = 2 then tcTrySnk else tcAttSrc)) ∧
    (due .ccDebounce → m.tc n = tcTrywSnk → p.oneRp = true → 400 ≤ m.vbus n → goesTo (.tccDebounceExpiry n) tcAttSnk) ∧
    (m.tc n ∉ [tcAttwSnk, tcAttwSrc, tcTrywSnk] → exec (.tccDebounceExpiry n) s = .next s) ∧
    (due .pdDebounce → m.tc n ∈ [tcAttwSnk, tcTrywSnk] → p.someRp = false → goesTo (.tpdDebounceExpiry n) (m.lands n)) ∧
    (due .pdDebounce → m.tc n = tcAttwSrc → p.someRd = false → goesTo (.tpdDebounceExpiry n) (m.lands n)) ∧
    (m.tc n ∉ [tcAttwSnk, tcAttwSrc, tcTrywSnk] → exec (.tpdDebounceExpiry n) s = .next s) ∧
    (due .tryDebounce → m.tc n ∈ [tcTrySrc, tcTrywSrc] → p.someRd = true → goesTo (.ttryccDebounceExpiry n) tcAttSrc) ∧
    (due .tryDebounce → m.tc n = tcTrySnk → p.tryDone = true → p.someRp = true →
      goesTo (.ttryccDebounceExpiry n) tcAttSnk) ∧
    (m.tc n ∉ [tcTrySrc, tcTrywSrc, tcTrySnk] → exec (.ttryccDebounceExpiry n) s = .next s) ∧
    (due .tryEnd → m.tc n = tcTrySrc → p.someRd = false → goesTo (.tdrptryExpiry n) tcTrywSnk) ∧
    (due .tryEnd → m.tc n = tcTrySnk → p.someRp = false → goesTo (.tdrptryExpiry n) tcTrywSrc) ∧
    (due .tryEnd → m.tc n = tcTrySnk → p.someRp = true → Effect (.tdrptryExpiry n) s (fun m => m.modPort n (fun p =>
      { p with tryDone := true, time := { p.time with tried := m.tim.tick } }))) ∧
    (due .tryEnd → m.tc n = tcTrywSrc → p.someRd = false → goesTo (.tdrptryExpiry n) (m.lands n)) ∧
    (due .drp → m.sinkOnly n = false → m.tc n = tcUnattSnk →
      Effect (.tdrpToggle n) s (fun m => (m.tcGo n tcUnattSrc).ccCheck n)) ∧
    (due .drp → m.sourceOnly n = false → m.tc n = tcUnattSrc →
      Effect (.tdrpToggle n) s (fun m => (m.tcGo n tcUnattSnk).ccCheck n)) ∧
    (m.tc n ∉ [tcUnattSnk, tcUnattSrc] → exec (.tdrpToggle n) s = .next s) ∧
    (due .recovery → m.tc n = tcErrRec → goesTo (.errorRecoveryEnd n) (m.lands n)) ∧
    (m.tc n ≠ tcErrRec → exec (.errorRecoveryEnd n) s = .next s) ∧
    (due .disconnect → m.tc n = tcAttSrc → m.showsRp n = true → p.someRd = false →
      goesTo (.srcDisconnectExpiry n) (m.lands n)) ∧
    (m.showsRp n = false → exec (.srcDisconnectExpiry n) s = .next s) ∧
    (m.tc n ≠ tcAttSrc → exec (.srcDisconnectExpiry n) s = .next s) ∧
    (m.tc n = tcAttSnk → p.seq = .none → m.sinkGone n = true → goesTo (.sinkDetach n) (m.lands n)) ∧
    (p.seq ≠ .none → exec (.sinkDetach n) s = .next s) ∧
    (∀ i : BitVec 8, Happens (.vconnFault n i) s (p.vconnOn = true ∧ m.get 0x18 PDC_VCONN_VCLIM < i.toNat)
      (fun m => ((m.pp PD_GSTAT_VCFLT 1 n).modPort n (fun p => { p with vconnOn := false })).emit 0x4012 [n, i.toNat])) ∧
    (due .insertion → m.tc n = tcAttSrc → p.insWait = true → ∃ t, exec (.portInsertionDelayEnd n) s = .next t ∧
      t.chip.pf PD_GSTAT_GSTATE n = 1 ∧ t.chip.pf PD_DRIVE_PSEN n = 1 ∧ t.chip.pf PD_DRIVE_PSDIR n = 1 ∧
      t.chip.pf PD_DRIVE_VSET n = m.vsetV n 5000) ∧
    (p.insWait = false → exec (.portInsertionDelayEnd n) s = .next s) ∧
    (due .prime → m.pf PD_GSTAT_GSTATE n = 1 → p.dmgRun < 64 → ∃ t, exec (.primeEnd n) s = .next t ∧
      t.chip.pf PD_GSTAT_GSTATE n = 2) ∧
    (m.pf PD_GSTAT_GSTATE n = 1 → 64 ≤ p.dmgRun → exec (.primeEnd n) s = .next s ∧
      ∃ t, exec (.guardDamageDetect n) s = .next t ∧ t.chip.tc n = tcDamaged ∧ t.chip.pf PD_GSTAT_DAMAGED n = 1 ∧
        t.chip.pf PD_GSTAT_GSTATE n = 0 ∧ t.chip.pf PD_DRIVE_PSEN n = 0 ∧
        (t.chip.get (pdPg n) HDR_IRQ_RAW_BITS).testBit 8 = true) ∧
    (p.dmgRun < 64 → exec (.guardDamageDetect n) s = .next s)

/-- R265–R268, R272, R274, R279, R280, R296: the messages of a port. A message on SOP or SOP′ reaches an attached port
only, one with the MessageID last received has no effect, and in BIST Test Data no message has one; a policy timeout
answers once; TXCTL.GO is refused with reason 5 while a message of E2 waits or goes out, 1 in the guard's states, 2
where the message is not permitted; the end of a transmission is that of the first message which collision avoidance
does not hold, and takes it off; POP drops the oldest message; cable discovery, keep-alives and status polls act when
their times have passed and in their conditions only. Message layouts and messages R266 does not name follow logs 47
and 48, the times log 115, collision avoidance and Discover Identity's MessageID logs 133 and 134. Completes:
pdMessageReceived, hardResetReceived, hardResetStep, policyTimeout, txctlGo, txctlHardReset, txctlFrs, pdTransmitEnd,
rxctlPop, cableDiscoverAttempt, eprKeepaliveSend, eprKeepaliveTimeout, statusPoll, statusPollMiss. -/
def Obligations.PortMessages : Prop :=
  ∀ (r : Requester) (n : Fin 8) (s : State), Running s → n.val < nPorts s.chip.die.part →
    let m := s.chip
    let p := m.port n
    let due := fun k : PortTimer => m.portDue n k = true
    (∀ x : PdMsg,
      let y : PdRx := { sopp := x.sopp, hdr := x.hdr.toNat, ext := x.ext.toNat, words := pdWords x.data, stamp := m.stamp }
      let id := bitsOf y.hdr 9 3
      let q := (m.txDiscard n).portTimers n
      let last := if x.sopp then (q.port n).rxIdP else (q.port n).rxId
      let again := last = some id ∧ y.kind ≠ .softReset
      let u := (q.pp PD_RXCTL_OVF 0 n).lineSeen n y
      (m.attached n = false → exec (.pdMessageReceived n x) s = .next s) ∧
      (m.attached n = true → again → Effect (.pdMessageReceived n x) s (fun _ => q)) ∧
      (m.attached n = true → ¬again → u.pf PD_RXCTL_OVF n = 1 →
        Effect (.pdMessageReceived n x) s (fun _ => u.pp PD_RXCTL_OVF 1 n)) ∧
      (m.attached n = true → ¬again → u.pf PD_RXCTL_OVF n ≠ 1 → Effect (.pdMessageReceived n x) s (fun _ =>
        (u.pp PD_RXCTL_OVF (q.pf PD_RXCTL_OVF n) n).modPort n (fun p =>
          if x.sopp then { p with rxIdP := some id } else { p with rxId := some id }))) ∧
      (m.attached n = true → ¬again → (q.port n).bist ≠ 0 → n.val < m.prt.length →
        ∃ t, exec (.pdMessageReceived n x) s = .next t ∧ (t.chip.port n).rx = (q.port n).rx ∧
          (t.chip.port n).tx = (q.port n).tx ∧ t.chip.tc n = m.tc n) ∧
      (m.attached n = true → ¬again → (q.port n).bist = 0 → x.sopp = true → (q.port n).rx.length < 4 →
        n.val < m.prt.length → ∃ t, exec (.pdMessageReceived n x) s = .next t ∧
          (t.chip.port n).rx = (q.port n).rx ++ [y] ∧ t.chip.pf PD_RXCTL_OVF n = q.pf PD_RXCTL_OVF n) ∧
      (m.attached n = true → ¬again → (q.port n).bist = 0 → x.sopp = true → 4 ≤ (q.port n).rx.length →
        n.val < m.prt.length → ∃ t, exec (.pdMessageReceived n x) s = .next t ∧
          (t.chip.port n).rx = (q.port n).rx ∧ t.chip.pf PD_RXCTL_OVF n = 1)) ∧
    (∀ x ∈ [(Instr.hardResetStep n, PortTimer.hardStep), (.policyTimeout n, .policy)],
      m.portDue n x.2 = false → exec x.1 s = .next s) ∧
    (∀ a, m.portDue n .discover = false → exec (.cableDiscoverAttempt n a) s = .next s) ∧
    Happens (.hardResetReceived n) s (m.attached n = true) (fun m => m.hardReset n 2) ∧
    (∀ k, p.seq = .hard true (k + 1) → 80 ≤ m.vbus n → exec (.hardResetStep n) s = .next s) ∧
    (due .hardStep → p.seq = .hard true 0 → Effect (.hardResetStep n) s (fun m =>
      ((m.stageOff n).modPort n (fun p => { p with vconnOn := false, time := { p.time with safe := none } })).seqGo n
        (.hard true 1))) ∧
    (∀ k, due .hardStep → p.seq = .hard true (k + 1) → m.vbus n < 80 → ∃ t, exec (.hardResetStep n) s = .next t ∧
      t.chip.pf PD_TCSTAT_CONTR n = 1 ∧ t.chip.pf PD_DRIVE_PSEN n = 1 ∧ t.chip.pf PD_DRIVE_VSET n = m.vsetV n 5000) ∧
    (∀ k, p.seq = .hard false k → 400 ≤ m.vbus n → Effect (.hardResetStep n) s (fun m =>
      (m.pp PD_TCSTAT_CONTR 1 n).modPort n (fun p => { p with seq := .none }))) ∧
    (∀ x, due .policy → p.decide = some x → Effect (.policyTimeout n) s (fun m =>
      ((((m.modPort n (fun p => { p with decide := none })).autoReply n x).count (pdPg n) PD_CNT_POLTO).emit 0x400E
        [n, pdType x.hdr]).pevt n 9)) ∧
    (p.decide = none → exec (.policyTimeout n) s = .next s) ∧
    (∀ sopp, let x := m.txMessage n sopp
      let guarded := tcRetry ≤ m.tc n ∧ m.tc n ≤ tcDamaged
      let refuses := fun why => ∃ t, exec (.txctlGo r n sopp) s = .next t ∧ t.chip.pf PD_TXSTAT_RESULT n = 5 ∧
        t.chip.pf PD_TXSTAT_REASON n = why ∧ t.chip.prt = m.prt
      (p.busy = true → refuses 5) ∧
      (p.busy = false → guarded → refuses 1) ∧
      (p.busy = false → ¬guarded → m.txPermitted n x = false → refuses 2) ∧
      (p.busy = false → ¬guarded → m.txPermitted n x = true → m.txTableBad n x ≠ none → refuses 3) ∧
      (p.busy = false → ¬guarded → m.txPermitted n x = true → m.txTableBad n x = none →
        Effect (.txctlGo r n sopp) s (fun m => ((m.pp PD_TXSTAT_RESULT 1 n).pp PD_TXSTAT_REASON 0 n).modPort n (fun p =>
          { p with tx := p.tx ++ [x], answer := if p.decide.isSome then p.decide else p.answer, decide := none })))) ∧
    ((m.attached n = true ∨ (tcRetry ≤ m.tc n ∧ m.tc n ≤ tcDamaged)) →
      Effect (.txctlHardReset r n) s (fun m => m.hardReset n 1)) ∧
    (m.attached n = false → (m.tc n < tcRetry ∨ tcDamaged < m.tc n) →
      Effect (.txctlHardReset r n) s (fun m => m.txRefuse n 2)) ∧
    (m.frsArmed n = true → m.isSource n = true → Effect (.txctlFrs r n) s (fun m =>
      ((m.pp PD_TCSTAT_SWAP 1 n).modPort n (fun p => { p with time := { p.time with swap := m.tim.tick } })).seqGo n
        (.frsSrc 0))) ∧
    (m.frsArmed n = false → Effect (.txctlFrs r n) s (fun m => m.txRefuse n 6)) ∧
    (∀ e, m.txNext n = none → exec (.pdTransmitEnd n e) s = .next s) ∧
    (∀ e y, m.txNext n = some y → ∃ t, exec (.pdTransmitEnd n e) s = .next t ∧
      (y.byE2 = true → t.chip.pf PD_TXSTAT_RESULT n = (if e = .sent then 2 else if e = .noGoodCrc then 3 else 4)) ∧
      (e ≠ .sent → n.val < m.prt.length → (t.chip.port n).tx = p.tx.erase y)) ∧
    Effect (.rxctlPop r n) s (fun m => m.modPort n (fun p => { p with rx := p.rx.drop 1 })) ∧
    (∀ w : Word, due .discover → m.attached n = true → m.pf PD_TCSTAT_VCSRC n = 1 → p.discDue = true →
      ∃ t, exec (.cableDiscoverAttempt n (some w)) s = .next t ∧ t.chip.pf PD_CABLE_VALID n = 1 ∧
        t.chip.pf PD_CABLEVDO_VDO n = w.toNat ∧ t.chip.pf PD_CABLE_IMAX n = w.toNat / 32 % 4 ∧
        t.chip.pf PD_CABLE_VMAX n = w.toNat / 512 % 4 ∧ t.chip.pf PD_CABLE_EPR n = w.toNat / 2 ^ 17 % 2) ∧
    (∀ a, p.discDue = false → exec (.cableDiscoverAttempt n a) s = .next s) ∧
    (due .discover → m.attached n = true → m.pf PD_TCSTAT_VCSRC n = 1 → p.discDue = true → p.seq ≠ .epr 2 →
      Effect (.cableDiscoverAttempt n none) s (fun m => (m.discSent n).modPort n (fun p => { p with
        discTries := p.discTries + 1, discDue := decide (p.discTries + 1 < 20), time := { p.time with disc := m.tim.tick } }))) ∧
    OnTimer (.eprKeepaliveSend n) s (m.portDue n .keepalive) (p.eprMode = true ∧ m.isSource n = false ∧ m.portIdle n = true)
      (fun m => m.cpSend n .eprKeepAlive [3]) ∧
    OnTimer (.eprKeepaliveTimeout n) s (m.portDue n .keepLost) (p.eprMode = true ∧ m.isSource n = true)
      (fun m => (m.hardReset n 1).pevt n 14) ∧
    OnTimer (.statusPoll n) s (m.portDue n .poll) (m.explicit n = true ∧ m.pf PD_POL_SPOLL n ≠ 0 ∧ m.portIdle n = true)
      (fun m => m.cpSend n .getStatus) ∧
    OnTimer (.statusPollMiss n) s (m.portDue n .pollMiss) (p.statusWait = true) (fun m =>
      let w := m.modPort n (fun p => { p with statusWait := false })
      if (w.port n).ctx = 0 then w else w.ctxMiss (w.port n).ctx)

/-- R275–R279: the power sequences of a port the member carries. A step acts only in the sequence it belongs to and
when its time has come; a transition that misses its time ends in a Hard Reset, a fast role swap that misses its time
in ERRREC. The instants at which the stage moves are a reading of the model (logs 49 and 115). Completes:
srcTransitionStart, srcTransitionSettled, srcTransitionTimeout, swapSequenceStep, swapTimeout, sourceCapsDelayEnd,
frsSignalDetected, frsVbusDrop, frsAcceptTimeout, frsSwapTimeout. -/
def Obligations.PortSequences : Prop :=
  ∀ (n : Fin 8) (s : State), Running s → n.val < nPorts s.chip.die.part →
    let m := s.chip
    let p := m.port n
    let due := fun k : PortTimer => m.portDue n k = true
    (∀ x ∈ [(Instr.srcTransitionSettled n, PortTimer.settle), (.swapSequenceStep n, .swapStep), (.swapTimeout n, .swapLate),
      (.frsAcceptTimeout n, .frsAccept), (.frsSwapTimeout n, .frsSwap)],
      m.portDue n x.2 = false → exec x.1 s = .next s) ∧
    OnTimer (.srcTransitionStart n) s (m.portDue n .transition) (p.seq = .srcWait)
      (fun m => ((m.vNote n).modPort n (fun p => { p with
        vTarget := p.cand.vop * 20, time := { p.time with vFrom := p.vNow / 2000, band := none } })).seqGo n .srcMove) ∧
    (m.settled n = false → exec (.srcTransitionSettled n) s = .next s) ∧
    (due .settle → m.settled n = true → p.seq = .srcMove → Effect (.srcTransitionSettled n) s (fun m =>
      (((m.pp PD_DRIVE_VSET (m.vsetV n (m.port n).vTarget) n).modPort n (fun p => { p with
        vNow := p.vTarget * 2000 })).cpSend n .psRdy).contractMade n)) ∧
    (due .settle → m.settled n = true → p.seq = .prSnk 1 → ∃ t, exec (.srcTransitionSettled n) s = .next t ∧
      t.chip.tc n = tcAttSrc ∧ t.chip.pf PD_TCSTAT_PROLE n = 1 ∧ t.chip.pf PD_TCSTAT_SWAP n = 0 ∧
      t.chip.pf PD_TCSTAT_CONTR n = 1) ∧
    OnTimer (.srcTransitionTimeout n) s (m.portDue n .transLate)
      ((p.seq = .srcMove ∨ p.seq = .prSnk 1) ∧ m.settled n = false)
      (fun m => m.hardReset n 1) ∧
    (due .swapStep → p.seq = .prSrc 0 → Effect (.swapSequenceStep n) s (fun m => (m.stageOff n).seqGo n (.prSrc 1))) ∧
    (p.seq = .prSrc 1 → m.vbus n < 80 → Effect (.swapSequenceStep n) s (fun m =>
      ((m.stageSink n).cpSend n .psRdy).seqGo n (.prSrc 2))) ∧
    (p.seq = .prSrc 1 → 80 ≤ m.vbus n → exec (.swapSequenceStep n) s = .next s) ∧
    (p.seq = .vconnOn → ∃ t, exec (.swapSequenceStep n) s = .next t ∧ t.chip.pf PD_TCSTAT_VCSRC n = 1 ∧
      t.chip.pf PD_TCSTAT_SWAP n = 0) ∧
    (p.seq = .vconnOff 1 → ∃ t, exec (.swapSequenceStep n) s = .next t ∧ t.chip.pf PD_TCSTAT_VCSRC n = 0 ∧
      t.chip.pf PD_TCSTAT_SWAP n = 0) ∧
    (due .swapStep → p.seq = .frsSrc 0 → Effect (.swapSequenceStep n) s (fun m => (m.stageSink n).seqGo n (.frsSrc 1))) ∧
    (p.seq = .frsSrc 2 → m.vbus n < 550 → Effect (.swapSequenceStep n) s (fun m =>
      (m.cpSend n .psRdy).seqGo n (.frsSrc 3))) ∧
    (p.seq = .frsSrc 2 → 550 ≤ m.vbus n → exec (.swapSequenceStep n) s = .next s) ∧
    (p.seq = .none → exec (.swapSequenceStep n) s = .next s ∧ exec (.swapTimeout n) s = .next s) ∧
    (∀ k, due .swapLate → p.seq = .prSrc (k + 1) ∨ p.seq = .prSnk 0 →
      Effect (.swapTimeout n) s (fun m => m.hardReset n 1)) ∧
    OnTimer (.sourceCapsDelayEnd n) s (m.portDue n .capsDelay) (p.capsDue = true ∧ m.isSource n = true)
      (fun m => (m.modPort n (fun p => { p with capsDue := false })).offer n) ∧
    Happens (.frsSignalDetected n) s (m.frsArmed n = true ∧ m.isSource n = false)
      (fun m => ((m.pp PD_TCSTAT_SWAP 1 n).seqGo n (.frsSnk 0)).pevt n 7) ∧
    Happens (.frsVbusDrop n) s (p.seq = .frsSnk 0)
      (fun m => ((m.stageSource n 5000).cpSend n .frSwap).seqGo n (.frsSnk 1)) ∧
    (due .frsAccept → p.seq = .frsSnk 1 → ∃ t, exec (.frsAcceptTimeout n) s = .next t ∧ t.chip.tc n = tcErrRec) ∧
    (p.seq ≠ .frsSnk 1 → exec (.frsAcceptTimeout n) s = .next s) ∧
    (due .frsSwap → p.seq = .frsSrc 0 ∨ p.seq = .frsSrc 1 →
      ∃ t, exec (.frsSwapTimeout n) s = .next t ∧ t.chip.tc n = tcErrRec) ∧
    (p.seq ≠ .frsSrc 0 → p.seq ≠ .frsSrc 1 → exec (.frsSwapTimeout n) s = .next s)

/-- R259, R283–R287: the guard and the host's rows of a port; on a member without ports the rows set GLB.ABSENT.HIT
(R3) and the happenings do nothing. A cause that is armed and whose test the comparator's voltage and current meet
opens the guard and leads to RETRY, or to LATCHED when RCNT stands at GRETRYN and GRETRYN is not 15; the end of RETRY
counts and goes to ERRREC; presence lost ends RETRY and LATCHED; only a host that unlocked the page clears a latch,
and a cleared port goes to ERRREC, unless ENABLE = 0, the standby role or its other latch still holds it (log 116).
Completes: guardTrip, portPresenceLost, guardRetryEnd, guardRcntReset, portClearLatch, portClearDamage,
portClearVconn, portEnableWrite. -/
def Obligations.PortGuardAndHostRows : Prop :=
  ∀ (r : Requester) (n : Fin 8) (s : State), Running s →
    (nPorts s.chip.die.part ≤ n.val →
      (∀ c ∈ [Instr.portClearLatch r n, .portClearDamage r n, .portClearVconn r n, .portEnableWrite r n false,
        .portEnableWrite r n true, .txctlGo r n false, .txctlGo r n true, .txctlHardReset r n, .txctlFrs r n,
        .rxctlPop r n], Effect c s (fun m => m.absentHit (reqCode r) (pdPg n))) ∧
      (∀ c ∈ [Instr.errorRecoveryEnd n, .sinkDetach n, .guardRetryEnd n, .primeEnd n], exec c s = .next s) ∧
      (∀ x, exec (.guardTrip n x) s = .next s)) ∧
    (n.val < nPorts s.chip.die.part →
    let m := s.chip
    let pg := pdPg n
    let absent := m.tc n = tcDisabled ∨ m.tc n = tcStandby
    let host := isHost (reqCode r) = true ∧ m.unlockedFor (reqCode r) pg = true
    let topped := m.pf PD_GTIM_GRETRYN n ≠ 15 ∧ m.pf PD_GSTAT_RCNT n = m.pf PD_GTIM_GRETRYN n
    (∀ x : GuardSeen, m.guardArmed n (x.cause.val + 1) = true →
      m.guardTest n (x.cause.val + 1) x.mv.toNat x.ma.toInt = true → ∃ t, exec (.guardTrip n x) s = .next t ∧
      t.chip.tc n = (if topped then tcLatched else tcRetry) ∧ t.chip.pf PD_GSTAT_CAUSE n = x.cause.val + 1 ∧
      t.chip.pf PD_GSTAT_GSTATE n = 3 ∧ t.chip.pf PD_DRIVE_PSEN n = 0 ∧
      (topped → t.chip.pf PD_GSTAT_LATCHED n = 1) ∧ (t.chip.get pg HDR_IRQ_RAW_BITS).testBit 6 = true) ∧
    (∀ x : GuardSeen, m.guardArmed n (x.cause.val + 1) = false ∨
      m.guardTest n (x.cause.val + 1) x.mv.toNat x.ma.toInt = false → exec (.guardTrip n x) s = .next s) ∧
    (∀ x ∈ [(Instr.portPresenceLost n, PortTimer.presence), (.guardRetryEnd n, .retry)],
      m.portDue n x.2 = false → exec x.1 s = .next s) ∧
    ((m.port n).someRp = true ∨ (m.port n).someRd = true → exec (.portPresenceLost n) s = .next s) ∧
    (m.portDue n .presence = true → (m.port n).someRp = false → (m.port n).someRd = false →
      m.tc n = tcRetry ∨ m.tc n = tcLatched → ∃ t, exec (.portPresenceLost n) s = .next t ∧ t.chip.tc n = m.unattState n ∧
      t.chip.pf PD_GSTAT_LATCHED n = 0 ∧ t.chip.pf PD_GSTAT_RCNT n = 0 ∧ t.chip.pf PD_GSTAT_VCFLT n = 0) ∧
    (m.tc n ≠ tcRetry → m.tc n ≠ tcLatched → exec (.portPresenceLost n) s = .next s) ∧
    (m.portDue n .retry = true → m.tc n = tcRetry → ∃ t, exec (.guardRetryEnd n) s = .next t ∧ t.chip.tc n = tcErrRec ∧
      t.chip.pf PD_GSTAT_RCNT n = satInc 4 (m.pf PD_GSTAT_RCNT n)) ∧
    (m.tc n ≠ tcRetry → exec (.guardRetryEnd n) s = .next s) ∧
    OnTimer (.guardRcntReset n) s (m.portDue n .calm) (m.explicit n = true) (fun m => m.pp PD_GSTAT_RCNT 0 n) ∧
    (isHost (reqCode r) = false → ∀ c ∈ [Instr.portClearLatch r n, .portClearDamage r n, .portClearVconn r n],
      Effect c s (fun m => (m.rwlSeen (reqCode r) pg).irq pg 9)) ∧
    (isHost (reqCode r) = true → m.unlockedFor (reqCode r) pg = false → Effect (.portClearLatch r n) s Chip.lockErr ∧
      Effect (.portClearDamage r n) s Chip.lockErr ∧ Effect (.portClearVconn r n) s Chip.lockErr) ∧
    (host → m.pf PD_GSTAT_LATCHED n = 1 → ∃ t, exec (.portClearLatch r n) s = .next t ∧
      t.chip.pf PD_GSTAT_LATCHED n = 0 ∧ t.chip.pf PD_GSTAT_RCNT n = 0 ∧ t.chip.tc n =
        (if absent ∨ (m.tc n = tcDamaged ∧ m.pf PD_GSTAT_DAMAGED n = 1) then m.tc n else tcErrRec)) ∧
    (host → m.pf PD_GSTAT_LATCHED n = 0 →
      Effect (.portClearLatch r n) s (fun m => (m.rwlSeen (reqCode r) pg).pp PD_GSTAT_RCNT 0 n)) ∧
    (host → m.pf PD_GSTAT_DAMAGED n = 1 → ∃ t, exec (.portClearDamage r n) s = .next t ∧
      t.chip.pf PD_GSTAT_DAMAGED n = 0 ∧ t.chip.tc n =
        (if absent ∨ (m.tc n = tcLatched ∧ m.pf PD_GSTAT_LATCHED n = 1) then m.tc n else tcErrRec)) ∧
    (host → m.pf PD_GSTAT_VCFLT n = 1 → ∃ t, exec (.portClearVconn r n) s = .next t ∧
      t.chip.pf PD_GSTAT_VCFLT n = 0 ∧ t.chip.tc n =
        (if absent ∨ (m.tc n = tcDamaged ∧ m.pf PD_GSTAT_DAMAGED n = 1) ∨
          (m.tc n = tcLatched ∧ m.pf PD_GSTAT_LATCHED n = 1) then m.tc n else tcErrRec)) ∧
    (host → m.pf PD_GSTAT_DAMAGED n = 0 → Effect (.portClearDamage r n) s (fun m => m.rwlSeen (reqCode r) pg)) ∧
    (host → m.pf PD_GSTAT_VCFLT n = 0 → Effect (.portClearVconn r n) s (fun m => m.rwlSeen (reqCode r) pg)) ∧
    (∀ en, m.enabled pg = en → exec (.portEnableWrite r n en) s = .next s) ∧
    (m.enabled pg = true → ∃ t, exec (.portEnableWrite r n false) s = .next t ∧ t.chip.enabled pg = false ∧
      t.chip.tc n = tcDisabled ∧ t.chip.pf PD_DRIVE_PSEN n = 0 ∧ t.chip.pf PD_GSTAT_GSTATE n = 0) ∧
    (m.enabled pg = false → ∃ t, exec (.portEnableWrite r n true) s = .next t ∧ t.chip.enabled pg = true ∧
      t.chip.tc n = (if m.leads = false then tcStandby else if m.pf PD_GSTAT_DAMAGED n = 1 then tcDamaged
        else if m.pf PD_GSTAT_LATCHED n = 1 then tcLatched else m.lands n)))

/-! ### Batteries -/

/-- R301, R302, R305, R307, R308, R319, R322, R324: the rows of a string. A member without estimators answers the
register rows with GLB.ABSENT.HIT and the happenings with nothing. ENABLE enters STARTUP only with a valid
configuration; SVC.REQ enters and leaves TEST; the two long operations; the estimator starts from a clean waypoint
with LOWCONF set; a rest qualifies after RESTT minutes, no fewer than 30; a pending record is written once VIN has
been no longer low for 100 ms. When a record is read, and corners of the capacity test, are readings of the model (log
53). Completes: batteryEnableWrite, svcReqTest, svcReqNormal, restQualified, estimatorStart, pendingRecordCommit,
capacityTest, setLearnedCapacity. -/
def Obligations.BatteryCommands : Prop :=
  ∀ (r : Requester) (n : Fin 4) (s : State), Running s →
    let m := s.chip
    let pg := batPg n
    let svc := m.bg BAT_STAT_SVC n
    (nStrings m.die.part ≤ n.val →
      (∀ c ∈ [Instr.batteryEnableWrite r n true, .batteryEnableWrite r n false, .svcReqTest r n, .svcReqNormal r n],
        Effect c s (fun m => m.absentHit (reqCode r) pg)) ∧
      (∀ c ∈ [Instr.restQualified n, .estimatorStart n, .pendingRecordCommit n], exec c s = .next s)) ∧
    BareCommand (.capacityTest r n) s r pg 1 (fun m => m.batOpStart n) ∧
    (∀ arg, LongCommand (.setLearnedCapacity r n arg) s r pg 2 arg (fun m => m.batOpStart n)) ∧
    (n.val < nStrings m.die.part →
      (svc ≠ 0 → exec (.batteryEnableWrite r n true) s = .next s) ∧
      (svc = 0 → m.batValid n = false →
        Effect (.batteryEnableWrite r n true) s (fun m => (m.bp BAT_STAT_CFGERR n 1).irq pg 13)) ∧
      (svc = 0 → m.batValid n = true → ∃ t, exec (.batteryEnableWrite r n true) s = .next t ∧
        t.chip.bg BAT_STAT_SVC n = 1 ∧ t.chip.enabled pg = true) ∧
      (∃ t, exec (.batteryEnableWrite r n false) s = .next t ∧ t.chip.bg BAT_STAT_SVC n = 0 ∧ t.chip.enabled pg = false) ∧
      (svc ∈ [1, 2, 4] → Effect (.svcReqTest r n) s (fun m => (m.bp BAT_STAT_SVC n 3).emit 0x500C [n, svc, 3])) ∧
      (svc ∉ [1, 2, 4] → exec (.svcReqTest r n) s = .next s) ∧
      (svc ≠ 3 → exec (.svcReqNormal r n) s = .next s) ∧
      (svc = 3 → ∃ t, exec (.svcReqNormal r n) s = .next t ∧ t.chip.bg BAT_STAT_SVC n =
        (if m.bg BAT_STAT_LOWCONF n = 1 ∨ (m.batSt n).waiting = true then 1
         else if m.bg BAT_STAT_EODCUT n = 1 ∨ m.bg BAT_STAT_DISE n = 1 ∨ m.bg BAT_STAT_DISF n = 1 then 4 else 2)) ∧
      (svc ∈ [1, 3] → (m.batSt n).waiting = true → (m.batSt n).clean = true → m.nvClosed = false →
        ∃ t, exec (.estimatorStart n) s = .next t ∧ t.chip.bg BAT_STAT_LOWCONF n = 1) ∧
      ((svc ∉ [1, 3] ∨ (m.batSt n).waiting = false ∨ (m.batSt n).clean = false) →
        exec (.estimatorStart n) s = .next s) ∧
      (svc ≠ 0 → m.bg BAT_STAT_REST n = 0 → max 30 (m.bg BAT_REST_RESTT n) * 12000000000 ≤ (m.batSt n).restTicks →
        ∃ t, exec (.restQualified n) s = .next t ∧ t.chip.bg BAT_STAT_REST n = 1) ∧
      ((m.batSt n).restTicks < max 30 (m.bg BAT_REST_RESTT n) * 12000000000 → exec (.restQualified n) s = .next s) ∧
      (m.nv.vinLow = false → 100 * msTicks ≤ m.ticksSince m.nv.vinTick → m.bg BAT_STAT_LPEND n = 1 →
        ∃ t, exec (.pendingRecordCommit n) s = .next t ∧ t.chip.bg BAT_STAT_LPEND n = 0) ∧
      ((m.nv.vinLow = true ∨ m.ticksSince m.nv.vinTick < 100 * msTicks ∨ m.bg BAT_STAT_LPEND n = 0) → exec (.pendingRecordCommit n) s = .next s))

/-! ### Supervision, Sequencing and Thermal -/

/-- R331, R332, R334: a rail's fault. A code beyond a level of the rail for its deglitch time sets the latch of an
armed test, PG 0, IRQ bit 5; FACT 1 and 2 turn an enable of the rail off, and 2 asks for power-down. A host that
unlocked the page clears the latch of a rail whose comparator reads it inside its window and is refused with IRQ bit 6
for one that is not. R343–R345, R347: a conversion of −55 °C to 175 °C without a fault is kept among the last 64, one
that is a fault or outside sets SNSFLT and throttle level 3; a sample after 64 conversions takes their mean as TEMP,
and compares it with TWARN. The report of a refused clear and the first samples follow logs 54 and 56. Completes:
railFault, railFaultClear, tempConversion, tempSample. -/
def Obligations.RailFaultsAndThermalCommands : Prop :=
  (∀ (r : Requester) (n : Fin 24) (x : RailSeen) (s : State), Running s →
    let m := s.chip
    let isOver := m.rg SUP_LVLB_OVF n < x.code.toNat
    let latch := if isOver then SUP_FOV_MASK else SUP_FUV_MASK
    let armed := m.get 0x21 SUP_RCFG_MON n = 1 ∧ (isOver ∨ ((m.railSt n).armed = true ∧ m.seqState ≠ 4))
    let runs := armed ∧ m.railBeyond n x.code.toNat x.us.toNat = true
    (runs → (m.get 0x21 latch).testBit n = false → ∃ t, exec (.railFault n x) s = .next t ∧
      (t.chip.get 0x21 latch).testBit n = true ∧ (t.chip.get 0x21 SUP_PG_MASK).testBit n = false ∧
      (t.chip.get 0x21 HDR_IRQ_RAW_BITS).testBit 5 = true ∧
      (m.fact n ≠ 0 → m.rg SUP_RCFG_ENEN n ≠ 0 → (t.chip.get 0x21 SUP_ENOUT_MASK).testBit n = false) ∧
      (m.fact n = 2 → t.chip.seq.fact = true)) ∧
    (¬runs ∨ (m.get 0x21 latch).testBit n = true → exec (.railFault n x) s = .next s) ∧
    (∀ (v : BitVec 24) l, isHost (reqCode r) = false → Effect (.railFaultClear r v l) s (fun m => m.irq 0x21 6)) ∧
    (∀ (v : BitVec 24) l, isHost (reqCode r) = true → m.unlockedFor (reqCode r) 0x21 = false →
      Effect (.railFaultClear r v l) s (fun m => m.plainWrite (reqCode r) (0x21 * 0x400 + 0x1DC) v.toNat)) ∧
    (∀ (l : List (BitVec 12)) c, isHost (reqCode r) = true → m.unlockedFor (reqCode r) 0x21 = true →
      m.railLatched n = true → l[n.val]? = some c →
      ∃ t, exec (.railFaultClear r (BitVec.ofNat 24 (2 ^ n.val)) l) s = .next t ∧
        t.chip.railLatched n = !m.railInside n c.toNat ∧
        (m.railInside n c.toNat = false → (t.chip.get 0x21 HDR_IRQ_RAW_BITS).testBit 6 = true))) ∧
  (∀ (s : State), Running s →
    let m := s.chip
    (∀ (x : BitVec 16) (fault : Bool), ∃ t, exec (.tempConversion x fault) s = .next t ∧
      t.chip.thm.count = satInc 8 m.thm.count ∧ t.chip.thm.samples = m.thm.samples ∧
      (fault = true ∨ x.toInt < -880 ∨ 2800 < x.toInt →
        t.chip.get 0x22 THM_STAT_SNSFLT = 1 ∧ t.chip.get 0x22 THM_STAT_LEVEL = 3 ∧
        t.chip.get 0x22 THM_STAT_NVMOK = 0 ∧ t.chip.thm.convs = m.thm.convs) ∧
      (fault = false → -880 ≤ x.toInt → x.toInt ≤ 2800 → t.chip.thm.convs = (x.toInt :: m.thm.convs).take 64)) ∧
    (m.thm.count < 64 → exec .tempSample s = .next s) ∧
    (64 ≤ m.thm.count → m.get 0x22 THM_STAT_SNSFLT = 0 → m.thm.convs ≠ [] →
      let mean : Int := m.thm.convs.foldl (· + ·) 0 / (m.thm.convs.length : Int)
      mean ≥ -880 → mean ≤ 2800 → ∃ t, exec .tempSample s = .next t ∧
        t.chip.getS 0x22 THM_TEMP_T = mean ∧ t.chip.thm.count = 0 ∧
        t.chip.thm.samples = (mean :: m.thm.samples).take 17 ∧
        t.chip.get 0x22 THM_STAT_WARN = (if 16 * m.getS 0x22 THM_LVL_TWARN ≤ mean then 1 else 0)) ∧
    (64 ≤ m.thm.count → (m.get 0x22 THM_STAT_SNSFLT = 1 ∨ m.thm.convs = []) →
      ∃ t, exec .tempSample s = .next t ∧ t.chip.thm.count = 0 ∧ t.chip.regs = m.regs))

/-- R336–R339, R342: the sequencer's rows. CMD and ENABLE wait for the boundary, where ENABLE = 0 makes the state OFF
and ENABLE = 1 takes OFF to DOWN on a master or solo controller, to STANDBY if written in boot; input loss and return
act once qualified; a power-up step that reaches no power-good within PGTO ms fails with cause 1 into PWRDN, a
power-down step that does not discharge is told and goes on; RETRYWAIT ends into PWRUP while attempts are left, into
FAILED when they are not. The instants of commands are readings of the model (log 55). Completes: seqCmdUp,
seqCmdDown, seqEnableWrite, inputLossQualified, inputReturnQualified, seqStepTimeout, seqRetryDelayEnd. -/
def Obligations.SequencerCommands : Prop :=
  ∀ (r : Requester) (s : State), Running s →
    let m := s.chip
    let rail := m.seq.word / 2 ^ 16 % 32
    let age := m.ticksSince m.seq.start
    (∃ t, exec (.seqCmdUp r) s = .next t ∧ t.chip.seq.cmd.testBit 0 = true ∧ t.chip.regs = m.regs) ∧
    (∃ t, exec (.seqCmdDown r) s = .next t ∧ t.chip.seq.cmd.testBit 1 = true ∧ t.chip.regs = m.regs) ∧
    (∃ t, exec (.seqEnableWrite r false) s = .next t ∧ t.chip.enabled 0x20 = false ∧ t.chip.seqState = m.seqState ∧
      t.chip.seqEnStage.seqState = 0) ∧
    (∃ t, exec (.seqEnableWrite r true) s = .next t ∧ t.chip.enabled 0x20 = true ∧ t.chip.seqState = m.seqState ∧
      (m.seqState = 0 ∨ m.seq.enOff = true → t.chip.seqEnStage.seqState =
        (if m.has 0x37 PIN_STAT_OHOLD then 7 else if m.leads then 1 else 0)) ∧
      (m.seqState ≠ 0 → m.seq.enOff = false → t.chip.seqEnStage.seqState = m.seqState)) ∧
    (m.seq.lossDue = false → exec .inputLossQualified s = .next s) ∧
    (m.seq.lossDue = true → ∃ t, exec .inputLossQualified s = .next t ∧ t.chip.get 0x20 SEQ_STAT_INGOOD = 0) ∧
    (m.seq.retDue = true → ∃ t, exec .inputReturnQualified s = .next t ∧ t.chip.get 0x20 SEQ_STAT_INGOOD = 1) ∧
    (m.seq.retDue = false → exec .inputReturnQualified s = .next s) ∧
    (m.seq.running = true → m.seqTest.1 = false → m.seq.word / 2 ^ 28 = 1 → m.seqState = 2 →
      max 1 (m.rg SUP_RTIM_PGTO rail) * 200000 ≤ age → ∃ t, exec .seqStepTimeout s = .next t ∧ t.chip.seqState = 4 ∧
        t.chip.get 0x20 SEQ_FAIL_CAUSE = 1 ∧ t.chip.get 0x20 SEQ_FAIL_STEP = m.get 0x20 SEQ_STAT_STEP ∧
        t.chip.get 0x20 SEQ_FAIL_RAIL = rail ∧ t.chip.get 0x20 SEQ_STAT_FAILPEND = 1) ∧
    (m.seq.running = true → m.seqTest.1 = false → m.seq.word / 2 ^ 28 = 2 →
      max 1 (m.rg SUP_RTIM_DISTO rail) * 2000000 ≤ age → ∃ t, exec .seqStepTimeout s = .next t ∧
        t.chip.seq.running = false) ∧
    (m.seq.running = false ∨ m.seqTest.1 = true → exec .seqStepTimeout s = .next s) ∧
    (m.seqState = 5 → m.get 0x20 SEQ_STAT_INGOOD = 1 →
      max 1 (m.get 0x20 SEQ_CFG_RETRYDLY) * 20000000 ≤ m.ticksSince m.seq.retryFrom →
      ∃ t, exec .seqRetryDelayEnd s = .next t ∧ t.chip.seqState =
        (if m.get 0x20 SEQ_CFG_RETRYN + 1 ≤ m.get 0x20 SEQ_STAT_ATTEMPT then 6 else 2)) ∧
    (m.seqState ≠ 5 → exec .seqRetryDelayEnd s = .next s)

/-! ### Event fabric and Depot -/

/-- R380–R385: a rising edge of a line the member has sets its latch, and the pending bit of every engine it is routed
to; a reserved or absent line never asserts, and the command brings no edge of a level line, which rises where its own
condition comes to hold. A new level of a ball that the controller does not hold at the other shows in GPIN (log 119).
HSEV pulses the software line of each bit that is 1, whoever writes it. Completes: eventLineEdge, gpioLevelChange,
hsevWrite. -/
def Obligations.EventCommands : Prop :=
  ∀ (r : Requester) (s : State), Running s →
    let m := s.chip
    let level := fun n : Nat => n = 120 ∨ (80 ≤ n ∧ n < 88)
    (∀ n : BitVec 8, level n.toNat ∨ lineReserved n.toNat = true ∨ lineAbsent m.die.part n.toNat = true →
      exec (.eventLineEdge n) s = .next s) ∧
    (∀ n : BitVec 8, lineReserved n.toNat = false → lineAbsent m.die.part n.toNat = false →
      ¬level n.toNat → ∃ t, exec (.eventLineEdge n) s = .next t ∧
        (t.chip.get 0x31 EVT_LATCH_SEEN (n.toNat / 32)).testBit (n.toNat % 32) = true ∧
        (∀ x, x < 8 → m.routed EVT_RE_ROUTE n.toNat (8 * x) = true →
          (t.chip.get (0x28 + x) ENG_EVPEND_PEND (n.toNat / 32)).testBit (n.toNat % 32) = true) ∧
        (m.routed EVT_RIRQ_ROUTE n.toNat 0 = true → (t.chip.get 0x31 HDR_IRQ_RAW_BITS).testBit 4 = true)) ∧
    (∀ (k : Fin 32) (lvl : Level), (m.get 0x37 PIN_GPIN_LVL).testBit k = lvl →
      exec (.gpioLevelChange k lvl) s = .next s) ∧
    (∀ (k : Fin 32) (lvl : Level), (m.get 0x37 PIN_GPIN_LVL).testBit k ≠ lvl → m.gpioCan k lvl = false →
      exec (.gpioLevelChange k lvl) s = .next s) ∧
    (∀ (k : Fin 32) (lvl : Level), (m.get 0x37 PIN_GPIN_LVL).testBit k ≠ lvl → m.gpioCan k lvl = true →
      ∃ t, exec (.gpioLevelChange k lvl) s = .next t ∧ (t.chip.get 0x37 PIN_GPIN_LVL).testBit k = lvl ∧
        ∀ j, j < 32 → j ≠ k.val → (t.chip.get 0x37 PIN_GPIN_LVL).testBit j = (m.get 0x37 PIN_GPIN_LVL).testBit j) ∧
    (∀ v : BitVec 8, ∃ t, exec (.hsevWrite r v) s = .next t ∧ ∀ k, k < 8 → v.toNat.testBit k = true →
      (t.chip.get 0x31 EVT_LATCH_SEEN 7).testBit k = true ∧
      (m.routed EVT_RIRQ_ROUTE (224 + k) 0 = true → (t.chip.get 0x31 HDR_IRQ_RAW_BITS).testBit 4 = true) ∧
      ∀ x, x < 8 → m.routed EVT_RE_ROUTE (224 + k) (8 * x) = true →
        (t.chip.get (0x28 + x) ENG_EVPEND_PEND 7).testBit k = true)

/-- R390–R396: the Depot's commands. The loader puts nothing, a put to a disabled source is lost, and an engine whose
source is full stalls until a slot is free; a take of an empty Depot gives the empty word and zeros, a take over
another interface than SPI removes its entry and one over SPI reserves it, as the entry's words pass the decoder; a
lapse returns an entry that has been reserved for 10 ms, counts and sets IRQ bit 6; flush is a long operation.
Completes: puttagWrite, take0Read, takeReservationLapse, depotFlush. -/
def Obligations.DepotCommands : Prop :=
  ∀ (r : Requester) (s : State), Running s →
    let m := s.chip
    let q := reqCode r
    let src := if 4 ≤ q then q - 4 else 22
    let value := (m.rd (reqKey q (DEP_PUTLO_VALUE.addr 0x30))).toNat + (m.rd (reqKey q (DEP_PUTHI_VALUE.addr 0x30))).toNat * 2 ^ 32
    (∀ tag, r = .loader → exec (.puttagWrite r tag) s = .next s) ∧
    (∀ tag, r ≠ .loader → m.get 0x30 DEP_SRCCFG_EN src = 0 →
      Effect (.puttagWrite r tag) s (fun m => m.depLose src)) ∧
    (∀ tag, 4 ≤ q → m.get 0x30 DEP_SRCCFG_EN src = 1 → 4 ≤ (m.dep.queue src).length →
      (m.get (0x28 + src) ENG_STAT_STATE = 1 → Effect (.puttagWrite r tag) s (fun m => (({ m with dep := { m.dep with
        waiting := m.dep.waiting ++ [{ tag := tag.toNat, src := src, stamp := m.stamp, value := value }] } } : Chip).put
          (0x28 + src) ENG_STAT_STATE 3).put (0x28 + src) ENG_STAT_STALLSRC 4)) ∧
      (m.get (0x28 + src) ENG_STAT_STATE ≠ 1 → exec (.puttagWrite r tag) s = .next s)) ∧
    (∀ tag, r ≠ .loader → m.get 0x30 DEP_SRCCFG_EN src = 1 → (q < 4 ∨ (m.dep.queue src).length < 4) →
      Effect (.puttagWrite r tag) s (fun m =>
        m.depAppend { tag := tag.toNat, src := src, stamp := m.stamp, value := value })) ∧
    (r ≠ .spi → m.depHead q = none → ∃ t, exec (.take0Read r) s = .next t ∧ t.chip.dep = m.dep ∧ t.chip.regs = m.regs ∧
      (m.depTake q).1 = 0x00F80000 ∧ ∀ k, 1 ≤ k → k < 4 → t.chip.shadowOf q (take0Addr + 4 * k) = some 0) ∧
    (∀ n i e, r ≠ .spi → m.depHead q = some (n, i, e) →
      let u := m.unitRead 0x14 (fun k => k / 2 == 4 * n + e.place)
      let x := ((u.dep.queue n)[i]?).getD e
      (m.upset = [] → u = m ∧ x = e) ∧ (m.depTake q).1 = x.word 0 ∧
      Effect (.take0Read r) s (fun _ => (u.depShadow q x.word).depRemove n i)) ∧
    (∀ n i e, r = .spi → m.host.spiEffect = none → m.upset = [] → m.depHead q = some (n, i, e) → ∃ t, exec (.take0Read r) s = .next t ∧
      t.chip.host.spiEffect = some { req := 0, addr := take0Addr, returned := e.word 0 } ∧ t.chip.regs = m.regs ∧
      t.chip.dep.queues = setAt m.dep.queues n (setAt (m.dep.queue n) i { e with reserved := some 0, since := m.tim.tick })) ∧
    ((∀ n, n < 24 → ∀ e ∈ m.dep.queue n, e.reserved = some q → m.ticksSince e.since < 10 * msTicks) → exec (.takeReservationLapse r) s = .next s) ∧
    (∀ n, n < 24 → (∃ e ∈ m.dep.queue n, e.reserved = some q ∧ 10 * msTicks ≤ m.ticksSince e.since) → ∃ t, exec (.takeReservationLapse r) s = .next t ∧
      t.chip.get 0x30 DEP_LAPSE_COUNT = satInc DEP_LAPSE_COUNT.wd (m.get 0x30 DEP_LAPSE_COUNT) ∧
      (t.chip.get 0x30 HDR_IRQ_RAW_BITS).testBit 6 = true) ∧
    (∀ arg, LongCommand (.depotFlush r arg) s r 0x30 1 arg Chip.depFlush)

/-- R386, R392: a queue of the Depot holds four entries in the order they came. An entry for a queue with room goes
last, and the other queues stay; one for a full queue is lost: every queue stays, the loss is counted and LOSTM shows
it. R456, R461: the record queue holds 16 records in order; a record for a full queue is dropped and counted in DROPQ,
one for a full recorder, unless a clear runs, in DROPFULL, and both leave the queue as it is. -/
def Obligations.BoundedQueues : Prop :=
  (∀ (m : Chip) (e : DepEntry) (n : Nat), e.src < 24 → m.dep.queues.length = 24 →
    let t := m.depAppend e
    ((m.dep.queue e.src).length < 4 →
      t.dep.queue e.src = m.dep.queue e.src ++ [{ e with epoch := m.dep.epoch, place := freePlace (m.dep.queue e.src) }] ∧
      (n ≠ e.src → t.dep.queue n = m.dep.queue n) ∧ t.dep.total = m.dep.total + 1 ∧
      (m.dep.total = 0 → (t.get 0x30 HDR_IRQ_RAW_BITS).testBit 4 = true)) ∧
    (4 ≤ (m.dep.queue e.src).length →
      t.dep = m.dep ∧ (t.get 0x30 DEP_LOSTM_LOST).testBit e.src = true ∧
      (t.get 0x30 HDR_IRQ_RAW_BITS).testBit 5 = true ∧
      t.get 0x30 (if e.src % 2 = 0 then DEP_LOSTP_LO else DEP_LOSTP_HI) (e.src / 2) =
        satInc 16 (m.get 0x30 (if e.src % 2 = 0 then DEP_LOSTP_LO else DEP_LOSTP_HI) (e.src / 2)))) ∧
  (∀ (m : Chip) (e : Rec),
    (m.get 0x24 REC_STAT_FULL = 0 → m.rcd.queue.length < 16 →
      m.enqueueRec e = { m with rcd := { m.rcd with queue := m.rcd.queue ++ [e] } }) ∧
    (m.get 0x24 REC_STAT_FULL = 0 → 16 ≤ m.rcd.queue.length →
      (m.enqueueRec e).rcd.queue = m.rcd.queue ∧ (m.enqueueRec e).rcd.droppedSince = m.rcd.droppedSince + 1 ∧
      (m.enqueueRec e).get 0x24 REC_DROP_DROPQ = satInc REC_DROP_DROPQ.wd (m.get 0x24 REC_DROP_DROPQ) ∧
      ((m.enqueueRec e).get 0x24 HDR_IRQ_RAW_BITS).testBit 5 = true) ∧
    (m.get 0x24 REC_STAT_FULL = 1 → m.recClearing = false → (m.enqueueRec e).rcd.queue = m.rcd.queue ∧
      (m.enqueueRec e).get 0x24 REC_DROP_DROPFULL = satInc REC_DROP_DROPFULL.wd (m.get 0x24 REC_DROP_DROPFULL)))

/-! ### Engines -/

/-- R346, R359, R374: an instruction row acts only on an engine in RUN that is past its idle cycles, and only where
program RAM holds its word at PC (log 13). Where the engine's word cannot be read it traps with cause 6 (R358), with a
free TINST (log 3); where the guard does not hold, only PC goes on. An instruction of an engine of ENGMASK leaves it
idle for one cycle at throttle level 2 and three at level 3. A fetch of a word without upset symbols leaves the
machine as it is (R437). -/
def Obligations.InstructionsIssueOnlyInRun : Prop :=
  (∀ (c : Instr) (x : Fin 8) (w : Nat) (s : State), issued c = some (x, w) → Running s →
    let m := s.chip
    let fetch := m.read32 (engReq x) (progArr x) (4 * m.pc x)
    let ready := m.engState x = 1 ∧ (m.engSt x).idle ≤ m.tim.tick
    (¬ready → exec c s = .next s) ∧
    (¬OwnWord c w → exec c s = .next s) ∧
    (∀ v n, fetch = (some v, n) → v ≠ w → exec c s = .next s) ∧
    (∀ n, OwnWord c w → ready → Fetches m x w n → n.guardHolds x w = false → Effect c s (fun _ => n.engNext x)) ∧
    (∀ n, OwnWord c w → ready → fetch = (none, n) → Effect c s (fun _ => n.freeWord.2.trap x 6 n.freeWord.1))) ∧
  (∀ (m : Chip) (x : Fin 8),
    let lvl := m.get 0x22 THM_STAT_LEVEL
    let masked := (m.get 0x22 THM_MASK_ENGMASK).testBit x
    (masked = false ∨ lvl < 2 → m.engIdle x = m) ∧
    (masked = true → lvl = 2 → x.val < m.eng.length → ((m.engIdle x).engSt x).idle = m.tim.tick + 2) ∧
    (masked = true → lvl = 3 → x.val < m.eng.length → ((m.engIdle x).engSt x).idle = m.tim.tick + 4)) ∧
  (∀ (m : Chip) (x : Fin 8), m.upsets (progArr x) (4 * m.pc x / 8) = 0 →
    m.read32 (engReq x) (progArr x) (4 * m.pc x) = (some (m.ramWord (progArr x) (4 * m.pc x)), m))

/-- R361: what the instructions of format R put into rd, on 32-bit words: sums, logic, shifts, products, minimum and
maximum, saturated sums and differences, and the quotient with the results the spec gives for a divisor of 0 and for
overflow. Completes: add, sub, and, or, xor, shl, shr, asr, mul, mulh, mulhu, min, max, adds, subs, div. -/
def Obligations.RegisterArithmeticResults : Prop :=
  (RegisterRow .add 0x00 0x3FF (fun _ a b => a + b) ∧
  RegisterRow .sub 0x01 0x3FF (fun _ a b => a - b) ∧
  RegisterRow .and 0x02 0x3FF (fun _ a b => a &&& b) ∧
  RegisterRow .or 0x03 0x3FF (fun _ a b => a ||| b) ∧
  RegisterRow .xor 0x04 0x3FF (fun _ a b => a ^^^ b) ∧
  RegisterRow .shl 0x05 0x3FF (fun _ a b => a <<< (b.toNat % 32)) ∧
  RegisterRow .shr 0x06 0x3FF (fun _ a b => a >>> (b.toNat % 32)) ∧
  RegisterRow .asr 0x07 0x3FF (fun _ a b => a.sshiftRight (b.toNat % 32)) ∧
  RegisterRow .mul 0x08 0x3FF (fun _ a b => a * b) ∧
  RegisterRow .mulh 0x09 0x3FF (fun _ a b => (a.signExtend 64 * b.signExtend 64).extractLsb' 32 32) ∧
  RegisterRow .mulhu 0x0A 0x3FF (fun _ a b => (a.setWidth 64 * b.setWidth 64).extractLsb' 32 32) ∧
  RegisterRow .min 0x0B 0x3FF (fun _ a b => if a.sle b then a else b) ∧
  RegisterRow .max 0x0C 0x3FF (fun _ a b => if a.sle b then b else a)) ∧
  (RegisterRow .adds 0x0D 0x3FF (fun _ a b =>
    BitVec.ofInt 32 (max (-0x80000000) (min 0x7FFFFFFF (a.toInt + b.toInt)))) ∧
  RegisterRow .subs 0x0E 0x3FF (fun _ a b =>
    BitVec.ofInt 32 (max (-0x80000000) (min 0x7FFFFFFF (a.toInt - b.toInt)))) ∧
  RegisterRow .div 0x0F 0x3FE (fun w a b =>
    if w.testBit 0 then (if b = 0 then 0xFFFFFFFF else a / b)
    else if b = 0 then (if a.slt 0 then 0x80000000 else 0x7FFFFFFF)
    else if a = 0x80000000 ∧ b = 0xFFFFFFFF then 0x7FFFFFFF
    else a.sdiv b))

/-- R361: what the instructions of formats I and M put into rd. imm14 is sign-extended for ADDI and zero-extended for
the logic rows; the immediate shifts write [13:5] 0; MOVL and MOVH write [17:16] 0. Completes: addi, andi, ori, xori,
shli, shri, asri, movl, movh. -/
def Obligations.ImmediateArithmeticResults : Prop :=
  ImmediateRow .addi 0x10 0 (fun w => (BitVec.ofNat 14 w).signExtend 32) (fun a i => a + i) ∧
  ImmediateRow .andi 0x11 0 (fun w => (BitVec.ofNat 14 w).setWidth 32) (fun a i => a &&& i) ∧
  ImmediateRow .ori 0x12 0 (fun w => (BitVec.ofNat 14 w).setWidth 32) (fun a i => a ||| i) ∧
  ImmediateRow .xori 0x13 0 (fun w => (BitVec.ofNat 14 w).setWidth 32) (fun a i => a ^^^ i) ∧
  ImmediateRow .shli 0x14 0x3FE0 (fun w => (BitVec.ofNat 5 w).setWidth 32) (fun a i => a <<< i.toNat) ∧
  ImmediateRow .shri 0x15 0x3FE0 (fun w => (BitVec.ofNat 5 w).setWidth 32) (fun a i => a >>> i.toNat) ∧
  ImmediateRow .asri 0x16 0x3FE0 (fun w => (BitVec.ofNat 5 w).setWidth 32) (fun a i => a.sshiftRight i.toNat) ∧
  CheckedRow .movl 0x17 0x30000 (fun x w n => (n.setG x (wRd w) (w % 65536)).engNext x) ∧
  CheckedRow .movh 0x18 0x30000 (fun x w n =>
    (n.setG x (wRd w) (w % 65536 * 65536 + n.g x (wRd w) % 65536)).engNext x)

/-- The frame of every row whose effect is to write one general register and to go on (R361): the register reads its
new value, PC is the next word, every other general register of every engine, every other register of the chip and
everything that is no register stay. -/
def Obligations.RegisterResultFrame : Prop :=
  ∀ (m : Chip) (x y : Fin 8) (i j v key : Nat), i < 16 → j < 16 →
    let t := (m.setG x i v).engNext x
    t.g x i = v % 2 ^ 32 ∧ t.pc x = (m.pc x + 1) % 4096 ∧
    ((y ≠ x ∨ j ≠ i) → t.g y j = m.g y j) ∧
    (key ≠ ENG_G_G.addr (engPg x) i → key ≠ ENG_PC_PC.addr (engPg x) → t.rd key = m.rd key) ∧
    t = { m with regs := t.regs }

/-- R362, R361, R363: CMP and CMPI put a condition into pd and trap with cause 3 for a cond of 8–15; PSET combines two
predicates; PRD and PWR move all of them. p0 reads 1 whatever is written.
Completes: cmp, cmpi, pset, prd, pwr. -/
def Obligations.PredicateInstructions : Prop :=
  (∀ (x : Fin 8) (f : BitVec 26) (s : State) (n : Chip), Executes s x (instrWord 0x19 f) n →
    let w := instrWord 0x19 f
    let a : Word := BitVec.ofNat 32 (n.g x (wRa w))
    let b : Word := BitVec.ofNat 32 (n.g x (w / 64 % 16))
    let cond := w / 1024 % 16
    let go := fun (v : Bool) => Effect (.cmp x f) s (fun _ => (n.setPred x (w / 2 ^ 19 % 8) v).engNext x)
    (w &&& 0x4003F ≠ 0 ∨ 8 ≤ cond → Effect (.cmp x f) s (fun _ => n.trapW x 3 w)) ∧
    (w &&& 0x4003F = 0 →
      (cond = 0 → go (a == b)) ∧ (cond = 1 → go (a != b)) ∧ (cond = 2 → go (a.slt b)) ∧ (cond = 3 → go (b.sle a)) ∧
      (cond = 4 → go (a.ult b)) ∧ (cond = 5 → go (b.ule a)) ∧ (cond = 6 → go (a &&& b != 0)) ∧
      (cond = 7 → go (a &&& b == 0)))) ∧
  (∀ (x : Fin 8) (f : BitVec 26) (s : State) (n : Chip), Executes s x (instrWord 0x1A f) n →
    let w := instrWord 0x1A f
    let a : Word := BitVec.ofNat 32 (n.g x (wRa w))
    let b : Word := (BitVec.ofNat 10 w).signExtend 32
    let cond := w / 1024 % 16
    let go := fun (v : Bool) => Effect (.cmpi x f) s (fun _ => (n.setPred x (w / 2 ^ 19 % 8) v).engNext x)
    (w &&& 0x40000 ≠ 0 ∨ 8 ≤ cond → Effect (.cmpi x f) s (fun _ => n.trapW x 3 w)) ∧
    (w &&& 0x40000 = 0 →
      (cond = 0 → go (a == b)) ∧ (cond = 1 → go (a != b)) ∧ (cond = 2 → go (a.slt b)) ∧ (cond = 3 → go (b.sle a)) ∧
      (cond = 4 → go (a.ult b)) ∧ (cond = 5 → go (b.ule a)) ∧ (cond = 6 → go (a &&& b != 0)) ∧
      (cond = 7 → go (a &&& b == 0)))) ∧
  CheckedRow .pset 0x1B 0x1FFC (fun x w n =>
    let a := n.pred x (w / 2 ^ 16 % 8)
    let b := n.pred x (w / 2 ^ 13 % 8)
    (n.setPred x (w / 2 ^ 19 % 8)
      (if w % 4 = 0 then a && b else if w % 4 = 1 then a || b else if w % 4 = 2 then a ^^ b else a && !b)).engNext x) ∧
  CheckedRow .prd 0x1C 0x3FFFF
    (fun x w n => (n.setG x (wRd w) ((List.range 8).map (fun i => 2 ^ i * b2n (n.pred x i))).sum).engNext x) ∧
  CheckedRow .pwr 0x1D 0x3C3FFF (fun x w n => (n.setPreds x (n.g x (wRa w))).engNext x) ∧
  (∀ (m : Chip) (x : Fin 8) (i j v : Nat) (b : Bool), i < 8 → j < 8 →
    ((m.setPred x i b).engNext x).pred x j = (if j = 0 then true else if j = i then b else m.pred x j) ∧
    (m.setPreds x v).pred x j = (if j = 0 then true else v.testBit j))

/-- R361, R353, R370: branches, calls, indirect jumps, the return from a handler and HALT; RGET and RPUT; MFS and MTS.
Completes: br, call, jr, eret, halt, rget, rput, mfs, mts. -/
def Obligations.ControlAndIndirectInstructions : Prop :=
  (∀ (x : Fin 8) (f : BitVec 26) (s : State) (n : Chip), Executes s x (instrWord 0x2C f) n →
    Effect (.br x f) s (fun _ => n.setPc x (((n.pc x : Int) + (BitVec.ofNat 22 f.toNat).toInt) % 4096).toNat)) ∧
  (∀ (x : Fin 8) (f : BitVec 26) (s : State) (n : Chip), Executes s x (instrWord 0x2D f) n →
    Effect (.call x f) s (fun _ => (n.setG x 15 ((n.pc x + 1) % 4096)).setPc x
      (((n.pc x : Int) + (BitVec.ofNat 22 f.toNat).toInt) % 4096).toNat)) ∧
  CheckedRow .jr 0x2E 0x3FF (fun x w n => n.setPc x (n.g x (wRa w) % 4096)) ∧
  CheckedRow .eret 0x37 0x3FF (fun x _ n =>
    (n.setPc x (n.get (engPg x) ENG_TEPC_EPC + 1)).put (engPg x) ENG_STAT_HANDLER 0) ∧
  CheckedRow .halt 0x35 0x3FFFFF (fun x _ n => ((n.engTo x 4 0).irq (engPg x) 4).engNext x) ∧
  CheckedRow .rget 0x2A 0x3FF (fun x w n => (n.setG x (wRd w) (n.g x (n.g x (wRa w) % 16))).engNext x) ∧
  CheckedRow .rput 0x2B 0x3C03FF (fun x w n => (n.setG x (n.g x (wRa w) % 16) (n.g x (wRb w))).engNext x) ∧
  CheckedRow .mfs 0x1E 0x3F0 (fun x w n =>
    let k := w % 16
    let pg := engPg x
    (n.setG x (wRd w) (if k = 0 then n.get pg ENG_TEPC_EPC else if k = 1 then n.get pg ENG_TCAUSE_CAUSE
      else if k = 2 then n.get pg ENG_TINST_INST else if k = 3 then x.val else if k = 4 then n.get pg ENG_CYC_COUNT
      else if k = 5 then n.get pg ENG_STAT_HANDLER else 0)).engNext x) ∧
  CheckedRow .mts 0x1F 0x3F0 (fun x w n =>
    (if w % 16 = 0 then n.put (engPg x) ENG_TEPC_EPC (n.g x (wRa w)) else n).engNext x)

/-- R369, R370: a trap outside a handler saves PC, cause and word, sets HANDLER and goes to TVEC, with IRQ bit FAULT
for the causes that are logged; in a handler the engine halts, keeps what the first trap saved, and sets DCAUSE and
DOUBLE. In both cases the general registers and the memories stay. The rows whose effect is a trap (R361, R360): TRAP
with cause 5, the reserved opcodes with cause 1, the undefined one with cause 3. Fields the table does not write 0
follow log 79.
Completes: trap, undefinedOpcode, reservedOpcode. -/
def Obligations.TrapEntryAndTrappingRows : Prop :=
  (∀ (m : Chip) (x y : Fin 8) (cause j : Nat) (inst : Word), cause < 16 → j < 16 →
    let t := m.trap x cause inst
    let pg := engPg x
    (t.g y j = m.g y j ∧ t.mem = m.mem ∧ t.upset = m.upset) ∧
    (m.get pg ENG_STAT_HANDLER = 0 →
      t.get pg ENG_TEPC_EPC = m.pc x ∧ t.get pg ENG_TCAUSE_CAUSE = cause ∧ t.get pg ENG_TINST_INST = inst.toNat ∧
      t.get pg ENG_STAT_HANDLER = 1 ∧ t.pc x = m.get pg ENG_CFG_TVEC ∧ t.engState x = m.engState x ∧
      ((t.get pg HDR_IRQ_RAW_BITS).testBit 5 =
        ((m.get pg HDR_IRQ_RAW_BITS).testBit 5 || decide (cause ∈ [2, 3, 4, 6, 7])))) ∧
    (m.get pg ENG_STAT_HANDLER = 1 →
      t.engState x = 4 ∧ t.get pg ENG_STAT_DCAUSE = cause ∧ t.get pg ENG_STAT_DOUBLE = 1 ∧
      t.get pg ENG_TEPC_EPC = m.get pg ENG_TEPC_EPC ∧ t.get pg ENG_TCAUSE_CAUSE = m.get pg ENG_TCAUSE_CAUSE ∧
      t.get pg ENG_TINST_INST = m.get pg ENG_TINST_INST ∧ (t.get pg HDR_IRQ_RAW_BITS).testBit 6 = true)) ∧
  (CheckedRow .trap 0x36 0x300 (fun x w n => n.trapW x 5 w) ∧
  (∀ (x : Fin 8) (f : BitVec 26) (s : State) (n : Chip), Executes s x (instrWord 0x2F f) n →
    Effect (.undefinedOpcode x f) s (fun _ => n.trapW x 3 (instrWord 0x2F f))) ∧
  (∀ (x : Fin 8) (op : Fin 4) (f : BitVec 26) (s : State) (n : Chip), Executes s x (instrWord (0x38 + op.val) f) n →
    Effect (.reservedOpcode x op f) s (fun _ => n.trapW x 1 (instrWord (0x38 + op.val) f))))

/-- R355, R361: a load from either RAM puts the bytes at ra + imm14 into rd, extended as its row says, where the word
bears no upset symbol; a misaligned address traps with cause 4, one outside the map with cause 7, and an uncorrectable
word with cause 6 (R358). The order of causes 7 and 4 is a reading of the model (log 71).
Completes: ldw, ldh, ldhs, ldb, ldbs. -/
def Obligations.LoadsFromRam : Prop :=
  let row := fun (c : Fin 8 → BitVec 26 → Instr) (op bytes : Nat) (ext : Nat → Nat) =>
    ∀ (x : Fin 8) (f : BitVec 26) (s : State) (n : Chip), Executes s x (instrWord op f) n →
      let w := instrWord op f
      let a := n.dataAddr x w
      (∀ arr off, ramAt x a = some (arr, off) → a % bytes ≠ 0 → Effect (c x f) s (fun _ => n.trapW x 4 w)) ∧
      (ramAt x a = none → (0x10000 ≤ a ∧ ¬(0x100000 ≤ a ∧ a < 0x180000) ∨ bytes ≠ 4) →
        Effect (c x f) s (fun _ => n.trapW x 7 w)) ∧
      (∀ arr off, ramAt x a = some (arr, off) → a % bytes = 0 → n.upsets arr (off / 8) = 0 →
        Effect (c x f) s (fun _ =>
          (n.setG x (wRd w) (ext ((List.range bytes).map (fun k => n.memByte arr (off + k) * 256 ^ k)).sum)).engNext x)) ∧
      (∀ arr off n', ramAt x a = some (arr, off) → a % bytes = 0 →
        n.read32 (engReq x) arr (off / 4 * 4) = (none, n') → Effect (c x f) s (fun _ => n'.trapW x 6 w))
  row .ldw 0x20 4 id ∧
  row .ldh 0x21 2 id ∧ row .ldhs 0x22 2 (fun v => ((BitVec.ofNat 16 v).signExtend 32).toNat) ∧
  row .ldb 0x23 1 id ∧ row .ldbs 0x24 1 (fun v => ((BitVec.ofNat 8 v).signExtend 32).toNat)

/-- R355, R361: a store to either RAM writes the low bytes of rd at ra + imm14 and no other byte of any memory, and
the engine goes on; nothing that is no memory changes but PC. SWAP and CAS on a RAM word without upset symbols: rd
takes the old word; the word takes rd, in CAS only where it equals rb; no other byte changes. Misaligned addresses
trap with cause 4, those outside the map with cause 7, and a word whose merge meets an uncorrectable error with cause
6 and is not written (R358, R441). The order of causes 7 and 4, and that the write buffer empties at once, are
readings of the model (logs 71 and 75).
Completes: stw, sth, stb, swap, cas. -/
def Obligations.StoresAndExchangesInRam : Prop :=
  (let row := fun (c : Fin 8 → BitVec 26 → Instr) (op bytes : Nat) =>
    ∀ (x : Fin 8) (f : BitVec 26) (s : State) (n : Chip), Executes s x (instrWord op f) n →
      let w := instrWord op f
      let a := n.dataAddr x w
      (∀ arr off, ramAt x a = some (arr, off) → a % bytes ≠ 0 → Effect (c x f) s (fun _ => n.trapW x 4 w)) ∧
      (ramAt x a = none → (0x10000 ≤ a ∧ ¬(0x100000 ≤ a ∧ a < 0x180000) ∨ bytes ≠ 4) →
        Effect (c x f) s (fun _ => n.trapW x 7 w)) ∧
      (∀ arr off, ramAt x a = some (arr, off) → a % bytes = 0 → n.upsets arr (off / 8) = 0 →
        ∃ t : Chip, Effect (c x f) s (fun _ => t) ∧ t = { n.engNext x with mem := t.mem, upset := t.upset } ∧
          (∀ k, k < bytes → t.memByte arr (off + k) = n.g x (wRd w) / 256 ^ k % 256) ∧
          (∀ b : Nat, (∀ k, k < bytes → b ≠ memAddr arr (off + k)) → Memory.read t.mem b = Memory.read n.mem b)) ∧
      (∀ arr off n', ramAt x a = some (arr, off) → a % bytes = 0 →
        n.narrowWrite (engReq x) arr off (bytesOf bytes (n.g x (wRd w))) = (none, n') →
        Effect (c x f) s (fun _ => n'.trapW x 6 w) ∧ n'.mem = n.mem)
  row .stw 0x25 4 ∧ row .sth 0x26 2 ∧ row .stb 0x27 1) ∧
  (let row := fun (c : Fin 8 → BitVec 26 → Instr) (op mask : Nat) (new : Nat → Nat → Nat → Nat) =>
    ∀ (x : Fin 8) (f : BitVec 26) (s : State) (n : Chip), Executes s x (instrWord op f) n →
      let w := instrWord op f
      let a := n.g x (wRa w)
      (w &&& mask ≠ 0 → Effect (c x f) s (fun _ => n.trapW x 3 w)) ∧
      (w &&& mask = 0 → ramAt x a = none → Effect (c x f) s (fun _ => n.trapW x 7 w)) ∧
      (∀ arr off, w &&& mask = 0 → ramAt x a = some (arr, off) → a % 4 ≠ 0 → Effect (c x f) s (fun _ => n.trapW x 4 w)) ∧
      (∀ arr off, w &&& mask = 0 → ramAt x a = some (arr, off) → a % 4 = 0 → n.upsets arr (off / 8) = 0 →
        let old := n.ramWord arr off
        ∃ t : Chip, Effect (c x f) s (fun _ => t) ∧
          t = { (n.setG x (wRd w) old).engNext x with mem := t.mem, upset := t.upset } ∧
          t.ramWord arr off = new old (n.g x (wRd w)) (n.g x (wRb w)) ∧
          (∀ b : Nat, (∀ k, k < 4 → b ≠ memAddr arr (off + k)) → Memory.read t.mem b = Memory.read n.mem b))
  row .swap 0x28 0x3FFF (fun _ v _ => v) ∧ row .cas 0x29 0x3FF (fun old v cmp => if old = cmp then v else old))

/-- R355, R357: what an engine stores in a RAM word is what its next load of that word returns. Program RAM holds the
store at PC and the load after it, no memory bears an upset symbol, the load's word has the same effective address and
its guard holds after the store, and no throttle parts the two (R346). -/
def Obligations.StoreThenLoadReturnsTheWord : Prop :=
  ∀ (x : Fin 8) (f g : BitVec 26) (s : State), Running s → s.chip.engState x = 1 → s.chip.upset = [] →
    let w := instrWord 0x25 f
    let u := instrWord 0x20 g
    (s.chip.engSt x).idle ≤ s.chip.tim.tick →
    ((s.chip.get 0x22 THM_MASK_ENGMASK).testBit x = false ∨ s.chip.get 0x22 THM_STAT_LEVEL < 2) →
    s.chip.ramWord (progArr x) (4 * s.chip.pc x) = w →
    s.chip.ramWord (progArr x) (4 * ((s.chip.pc x + 1) % 4096)) = u →
    s.chip.guardHolds x w = true → s.chip.guardHolds x u = true →
    (ramAt x (s.chip.dataAddr x w)).isSome = true → s.chip.dataAddr x w % 4 = 0 →
    s.chip.dataAddr x u = s.chip.dataAddr x w →
    ∃ t v, exec (.stw x f) s = .next t ∧ exec (.ldw x g) t = .next v ∧
      v.chip.g x (wRd u) = s.chip.g x (wRd w) ∧
      (∀ (y : Fin 8) (j : Nat), j < 16 → (y ≠ x ∨ j ≠ wRd u) → v.chip.g y j = s.chip.g y j) ∧
      v.chip.pc x = (s.chip.pc x + 2) % 4096 ∧ v.pending = s.pending

/-- R354, R355, R371: a word access of an engine outside its RAMs is an access by address with the engine's own
requester code: LDW, and RD of a coprocessor, put what it reads into rd, 0 for a refused read; a read of the store
that is not ready stalls LDW with source 2 (R374); STW, and WR of a coprocessor, write with PC at the next word. An RD
or WR row acts on the words of its own function (log 72). Completes: ldw, stw, cp0Rd, cp1Rd, cp2Rd, cp3Rd, cp0Wr,
cp1Wr, cp2Wr, cp3Wr. -/
def Obligations.RegisterSpaceAccesses : Prop :=
  (∀ (x : Fin 8) (f : BitVec 26) (s : State) (n : Chip), Executes s x (instrWord 0x20 f) n →
    let w := instrWord 0x20 f
    let a := n.dataAddr x w
    let b := n.busRead (engReq x) a
    ramAt x a = none → (a < 0x10000 ∨ 0x100000 ≤ a ∧ a < 0x180000) →
      (a % 4 ≠ 0 → Effect (.ldw x f) s (fun _ => n.trapW x 4 w)) ∧
      (a % 4 = 0 → b.notReady = true → Effect (.ldw x f) s (fun _ => b.chip.engStall x 2 w)) ∧
      (a % 4 = 0 → b.notReady = false →
        Effect (.ldw x f) s (fun _ => (b.chip.setG x (wRd w) (if b.refused then 0 else b.value)).engNext x))) ∧
  (∀ (x : Fin 8) (f : BitVec 26) (s : State) (n : Chip), Executes s x (instrWord 0x25 f) n →
    let w := instrWord 0x25 f
    let a := n.dataAddr x w
    ramAt x a = none → (a < 0x10000 ∨ 0x100000 ≤ a ∧ a < 0x180000) →
      (a % 4 ≠ 0 → Effect (.stw x f) s (fun _ => n.trapW x 4 w)) ∧
      (a % 4 = 0 → Effect (.stw x f) s (fun _ => ((n.engNext x).busWrite (engReq x) a (n.g x (wRd w))).2))) ∧
  (let reads := fun (c : Fin 8 → BitVec 26 → Instr) (k : Nat) =>
    (∀ (x : Fin 8) (f : BitVec 26) (s : State), ¬OwnWord (c x f) (instrWord (0x3C + k) f) → exec (c x f) s = .next s) ∧
    ∀ (x : Fin 8) (f : BitVec 26) (s : State) (n : Chip), Executes s x (instrWord (0x3C + k) f) n →
      let w := instrWord (0x3C + k) f
      let o := n.g x (wRa w)
      let b := n.busRead (engReq x) (cpPage k (wUnit w) * 0x400 + o)
      (OwnWord (c x f) w → cpAbsent n.die.part k (wUnit w) = true → Effect (c x f) s (fun _ => n.trapW x 2 w)) ∧
      (cpAbsent n.die.part k (wUnit w) = false → wFn w = 0 → wUnit w < cpUnits k →
        (o % 4 = 0 ∧ o < 0x400 → Effect (c x f) s (fun _ => (b.chip.setG x (wRd w) b.value).engNext x)) ∧
        (¬(o % 4 = 0 ∧ o < 0x400) → Effect (c x f) s (fun _ => n.trapW x 4 w)))
   reads .cp0Rd 0 ∧ reads .cp1Rd 1 ∧ reads .cp2Rd 2 ∧ reads .cp3Rd 3) ∧
  (let writes := fun (c : Fin 8 → BitVec 26 → Instr) (k : Nat) =>
    (∀ (x : Fin 8) (f : BitVec 26) (s : State), ¬OwnWord (c x f) (instrWord (0x3C + k) f) → exec (c x f) s = .next s) ∧
    ∀ (x : Fin 8) (f : BitVec 26) (s : State) (n : Chip), Executes s x (instrWord (0x3C + k) f) n →
      let w := instrWord (0x3C + k) f
      let o := n.g x (wRa w)
      (OwnWord (c x f) w → cpAbsent n.die.part k (wUnit w) = true → Effect (c x f) s (fun _ => n.trapW x 2 w)) ∧
      (cpAbsent n.die.part k (wUnit w) = false → wFn w = 1 → wUnit w < cpUnits k →
        (o % 4 = 0 ∧ o < 0x400 → Effect (c x f) s (fun _ =>
          ((n.engNext x).busWrite (engReq x) (cpPage k (wUnit w) * 0x400 + o) (n.g x (wRb w))).2)) ∧
        (¬(o % 4 = 0 ∧ o < 0x400) → Effect (c x f) s (fun _ => n.trapW x 4 w)))
   writes .cp0Wr 0 ∧ writes .cp1Wr 1 ∧ writes .cp2Wr 2 ∧ writes .cp3Wr 3)

/-- R371, R372, R373: the coprocessor functions that are no RD and no WR, on a unit the member carries, with a group
of rd that fits: SNAP, LIVE, SNAPRD and LDG put their words into rd upward; ACCUM adds to a ripple entry; GO and POP
act as their register writes do; TELEM and TELEMB feed a context on BUS 4, and set REFUSE for any other; what LIVE and
SNAPRD read passes the decoder, which leaves a machine without upset symbols as it is; for an rd of 15 the second word
of TELEMB is free (log 3). The page that shows REFUSE is a reading of the model (log 73). A row acts on the words of
its own function; FN past the block's functions traps whichever row carries it (log 72). Completes: cp0Snap, cp0Accum,
cp1Live, cp1Snaprd, cp2Go, cp2Pop, cp3Ldg, cp3Telem, cp3Telemb. -/
def Obligations.CoprocessorFunctions : Prop :=
  let row := fun (c : Fin 8 → BitVec 26 → Instr) (k words : Nat) (pre : Fin 8 → Nat → Chip → Prop)
      (eff : Fin 8 → Nat → Chip → Chip) =>
    ∀ (x : Fin 8) (f : BitVec 26) (s : State) (n : Chip), Executes s x (instrWord (0x3C + k) f) n →
      let w := instrWord (0x3C + k) f
      (¬OwnWord (c x f) w → exec (c x f) s = .next s) ∧
      (OwnWord (c x f) w → cpAbsent n.die.part k (wUnit w) = true → Effect (c x f) s (fun _ => n.trapW x 2 w)) ∧
      (OwnWord (c x f) w → cpAbsent n.die.part k (wUnit w) = false →
        (cpFns k ≤ wFn w ∨ cpUnits k ≤ wUnit w ∨ wRd w % words ≠ 0 → Effect (c x f) s (fun _ => n.trapW x 3 w)) ∧
        (wFn w < cpFns k → wUnit w < cpUnits k → wRd w % words = 0 → pre x w n →
          Effect (c x f) s (fun _ => (eff x w n).engNext x)))
  let any := fun (_ : Fin 8) (_ : Nat) (_ : Chip) => True
  let reg := fun (n : Chip) (pg : Nat) (fd : Fld) => (n.rd (fd.addr pg)).toNat
  let groups : List (List Fld) := [
    [CAP_LGRID_P, CAP_LBATC_P, CAP_LBATD_P, CAP_LANG_ANGLE], [CAP_LDOMF_P, CAP_LDOMR_P, CAP_LPORTF_P, CAP_LANG_ANGLE],
    [CAP_LPORTR_P, CAP_LAUX_P, CAP_LRECOV_P, CAP_LANG_ANGLE], [CAP_LSURP_P, CAP_LRESID_P, CAP_OVER_OVER, CAP_LANG_ANGLE],
    [CAP_LCYC_CYCLE, CAP_GRIDE_LO_DATA, CAP_GRIDE_HI_DATA, CAP_LANG_ANGLE],
    [CAP_RECE_LO_DATA, CAP_RECE_HI_DATA, CAP_LCYC_CYCLE, CAP_LANG_ANGLE]]
  row .cp0Snap 0 4 any (fun x w n =>
    let pg := 6 + wUnit w
    (((n.setG x (wRd w) (reg n pg MAR_INTEG_I)).setG x (wRd w + 1) (reg n pg MAR_DUTY_D)).setG x (wRd w + 2)
      (reg n pg MAR_ERR_X)).setG x (wRd w + 3) (reg n pg MAR_ILOOP_I)) ∧
  row .cp0Accum 0 1 any (fun x w n =>
    n.rfAccum (wUnit w) (n.g x (wRa w) % 256) (BitVec.ofNat 16 (n.g x (wRb w))).toInt) ∧
  row .cp1Live 1 2 any (fun x w n =>
    let c := n.g x (wRa w) % 32
    let i := n.g x (wRb w) % 4
    let u := n.liveRead c
    (u.setG x (wRd w) (u.liveWord c (2 * i))).setG x (wRd w + 1) (u.liveWord c (2 * i + 1))) ∧
  row .cp1Snaprd 1 2 any (fun x w n =>
    let c := n.g x (wRa w) % 32
    let b := n.g x (wRb w)
    let u := n.snapRead (b / 4 % 2) c (2 * (b % 4))
    let word := fun k => u.snapWord (b / 4 % 2) c (2 * (b % 4) + k)
    (u.setG x (wRd w) (word 0)).setG x (wRd w + 1) (word 1)) ∧
  (∀ (m : Chip) (b c k : Nat), m.upset = [] → m.liveRead c = m ∧ m.snapRead b c k = m) ∧
  row .cp2Go 2 1 any (fun x w n => n.txctlWrite (wUnit w) (goWord (n.g x (wRb w)))) ∧
  row .cp2Pop 2 1 any (fun _ w n => n.rxPop (wUnit w)) ∧
  row .cp3Ldg 3 4 (fun x w n => n.g x (wRb w) % 8 < 6) (fun x w n =>
    n.setGs x (wRd w) (((groups[n.g x (wRb w) % 8]?).getD []).map (reg n 0x1E))) ∧
  (∀ (x : Fin 8) (f : BitVec 26) (s : State) (n : Chip), Executes s x (instrWord 0x3F f) n →
    let w := instrWord 0x3F f
    wFn w = 2 → wUnit w = 0 → wRd w % 4 = 0 → 6 ≤ n.g x (wRb w) % 8 → Effect (.cp3Ldg x f) s (fun _ => n.trapW x 3 w)) ∧
  row .cp3Telem 3 1 (fun x w n => (n.ctx (n.g x (wRa w) % 128)).bus = 4 ∧ (n.ctx (n.g x (wRa w) % 128)).state ≠ 0)
    (fun x w n =>
      let c := n.g x (wRa w) % 128
      (n.setCtx c { n.ctx c with health := n.g x (wRb w) % 65536 }).ctxGood c) ∧
  row .cp3Telem 3 1 (fun x w n => ¬((n.ctx (n.g x (wRa w) % 128)).bus = 4 ∧ (n.ctx (n.g x (wRa w) % 128)).state ≠ 0))
    (fun x _ n => n.irq (engPg x) 7) ∧
  (let fed := fun (x : Fin 8) (w : Nat) (n : Chip) =>
     (n.ctx (n.g x (wRa w) % 128)).bus = 4 ∧ (n.ctx (n.g x (wRa w) % 128)).state ≠ 0
   let feed := fun (x : Fin 8) (w : Nat) (n m : Chip) (v : Nat) =>
     let c := n.g x (wRa w) % 128
     ((m.setCtx c { m.ctx c with health := n.g x (wRb w) % 65536 }).packWrite c (n.g x (wRd w)) v).ctxGood c
   row .cp3Telemb 3 1 (fun x w n => wRd w < 15 ∧ fed x w n) (fun x w n => feed x w n n (n.g x (wRd w + 1))) ∧
   row .cp3Telemb 3 1 (fun x w n => wRd w = 15 ∧ fed x w n)
     (fun x w n => feed x w n n.freeWord.2 n.freeWord.1.toNat) ∧
   row .cp3Telemb 3 1 (fun x w n => wRd w < 15 ∧ ¬fed x w n) (fun x _ n => n.irq (engPg x) 7) ∧
   row .cp3Telemb 3 1 (fun x w n => wRd w = 15 ∧ ¬fed x w n) (fun x _ n => n.freeWord.2.irq (engPg x) 7))

/-- R364–R368: WFE with an awaited line pending takes it, with a TMO of 0 gives 0x100, and otherwise waits; its wait
ends at an awaited line or at its time. SEV pulses the engine's line. WAITA and WAITT go on at a target reached, and
otherwise wait until it is, an angle wait with LREQ on a stamp that is not permitted until a waypoint boundary on one
that is; RDT reads time. A wait for no time and the number of a SEV line are readings of the model
(logs 70 and 78).
Completes: wfe, wfeWake, wfeTimeout, sev, waita, waitaEnd, waitt, waittEnd, rdt. -/
def Obligations.WaitsAndEvents : Prop :=
  (∀ (x : Fin 8) (f : BitVec 26) (s : State) (n : Chip), Executes s x (instrWord 0x30 f) n →
    let w := instrWord 0x30 f
    let taken := n.evTaken x (w % 256) (w.testBit 8)
    (∀ k, taken = some k → Effect (.wfe x f) s (fun _ => ((n.evClear x k).setG x (wRd w) k).engNext x)) ∧
    (taken = none → w.testBit 9 = true → n.g x (wRb w) = 0 →
      Effect (.wfe x f) s (fun _ => (n.setG x (wRd w) 0x100).engNext x)) ∧
    (taken = none → w.testBit 9 = true → n.g x (wRb w) ≠ 0 → Effect (.wfe x f) s (fun _ =>
      n.engWait x (.event (wRd w) (w % 256) (w.testBit 8) (some (n.tim.tick + n.g x (wRb w)))))) ∧
    (taken = none → w.testBit 9 = false → Effect (.wfe x f) s (fun _ =>
      n.engWait x (.event (wRd w) (w % 256) (w.testBit 8) none)))) ∧
  (∀ (x : Fin 8) (s : State) (rd line : Nat) (any : Bool) (until_ : Option Nat), Running s →
    (s.chip.engSt x).wait = .event rd line any until_ →
    (∀ k, s.chip.evTaken x line any = some k →
      Effect (.wfeWake x) s (fun m => (m.evClear x k).engResume x (some rd) k)) ∧
    (s.chip.evTaken x line any = none → exec (.wfeWake x) s = .next s) ∧
    (∀ u, until_ = some u → s.chip.tickReached u = true → s.chip.evTaken x line any = none →
      Effect (.wfeTimeout x) s (fun m => m.engResume x (some rd) 0x100)) ∧
    (∀ u k, until_ = some u → s.chip.tickReached u = true → s.chip.evTaken x line any = some k →
      Effect (.wfeTimeout x) s (fun m => (m.evClear x k).engResume x (some rd) k)) ∧
    (∀ u, until_ = some u → s.chip.tickReached u = false → exec (.wfeTimeout x) s = .next s)) ∧
  CheckedRow .sev 0x31 0x3F8 (fun x w n => (n.engNext x).raise (128 + 8 * x.val + w % 8)) ∧
  CheckedRow .waita 0x32 0x3FE (fun x w n =>
    let target := n.g x (wRa w) * 65536 + n.g x (wRb w) % 65536
    let reached := stampReached n.stamp.num target
    if reached && (!w.testBit 0 || n.lockPermitted) then (n.setG x (wRd w) (n.flags + 8)).engNext x
    else n.engWait x (.angle (wRd w) target (w.testBit 0) reached reached)) ∧
  (∀ (x : Fin 8) (s : State) (rd target : Nat) (lreq late : Bool), Running s →
    (s.chip.engSt x).wait = .angle rd target lreq late false →
    (stampReached s.chip.stamp.num target = true → (lreq = false ∨ s.chip.lockPermitted = true) →
      Effect (.waitaEnd x) s (fun m => m.engResume x (some rd) (m.flags + 8 * b2n late))) ∧
    (stampReached s.chip.stamp.num target = true → lreq = true → s.chip.lockPermitted = false →
      Effect (.waitaEnd x) s (fun m => m.setEng x { m.engSt x with wait := .angle rd target lreq late true })) ∧
    (stampReached s.chip.stamp.num target = false → exec (.waitaEnd x) s = .next s)) ∧
  (∀ (x : Fin 8) (s : State) (rd target : Nat) (lreq late : Bool), Running s →
    (s.chip.engSt x).wait = .angle rd target lreq late true →
    (s.chip.lockPermitted = true → s.chip.tim.angle % 256 = 0 →
      Effect (.waitaEnd x) s (fun m => m.engResume x (some rd) (m.flags + 8 * b2n late + 16))) ∧
    (s.chip.lockPermitted = false ∨ s.chip.tim.angle % 256 ≠ 0 → exec (.waitaEnd x) s = .next s)) ∧
  CheckedRow .waitt 0x33 0x3C03FE (fun x w n =>
    let target := if w.testBit 0 then (n.tim.tick + n.g x (wRa w)) % 2 ^ 64
      else n.g x (wRb w) * 2 ^ 32 + n.g x (wRa w)
    if w.testBit 0 && wRb w != 0 then n.trapW x 3 w
    else if n.tickReached target then n.engNext x else n.engWait x (.tick target)) ∧
  (∀ (x : Fin 8) (s : State) (target : Nat), Running s → (s.chip.engSt x).wait = .tick target →
    (s.chip.tickReached target = true → Effect (.waittEnd x) s (fun m => m.engResume x none 0)) ∧
    (s.chip.tickReached target = false → exec (.waittEnd x) s = .next s)) ∧
  CheckedRow .rdt 0x34 0x3FC (fun x w n =>
    ((n.ttbRead (engReq x) (0x60 + 4 * (w % 4)) 0).2.setG x (wRd w)
      (n.ttbRead (engReq x) (0x60 + 4 * (w % 4)) 0).1).engNext x)

/-- R374, R375, R376: ENABLE starts an engine from OFF with p1–p7, HANDLER and DOUBLE 0, unless a program load runs,
and stops it, once a stalled load has completed; PDATA and DDATA reach the word that PADDR or DADDR names, which then
increments; a PDATA write outside OFF only sets REFUSE; a program load is a long operation; a stalled access that has
completed lets the engine go on. Corners of a stop and of a program load are readings of the model (logs 76 and 77).
Completes: engineEnableWrite, pdataAccess, ddataAccess, engineProgramLoad, stallEnd. -/
def Obligations.EngineHostCommands : Prop :=
  ∀ (r : Requester) (x : Fin 8) (s : State), Running s →
    let m := s.chip
    let pg := engPg x
    (m.engState x = 0 → m.busy pg = false → ∃ t, exec (.engineEnableWrite r x true) s = .next t ∧
      t.chip.engState x = 1 ∧ t.chip.get pg HDR_CTRL_ENABLE = 1 ∧ t.chip.get pg ENG_PREG_P = 0 ∧
      t.chip.get pg ENG_STAT_HANDLER = 0 ∧ t.chip.get pg ENG_STAT_DOUBLE = 0 ∧ t.chip.pc x = m.pc x ∧
      (∀ (y : Fin 8) (j : Nat), j < 16 → t.chip.g y j = m.g y j) ∧ t.chip.mem = m.mem) ∧
    (m.engState x = 0 → m.busy pg = true → Effect (.engineEnableWrite r x true) s (fun m => m.irq pg 7)) ∧
    (m.engState x ≠ 0 → Effect (.engineEnableWrite r x true) s (fun m =>
      (m.putB pg HDR_CTRL_ENABLE true).setEng x { m.engSt x with stopDue := false })) ∧
    (m.engState x = 3 → m.get pg ENG_STAT_STALLSRC ≠ 4 → Effect (.engineEnableWrite r x false) s (fun m =>
      (m.putB pg HDR_CTRL_ENABLE false).setEng x { m.engSt x with stopDue := true })) ∧
    (m.engState x ≠ 3 ∨ m.get pg ENG_STAT_STALLSRC = 4 → ∃ t, exec (.engineEnableWrite r x false) s = .next t ∧ t.chip.engState x = 0 ∧
      t.chip.get pg HDR_CTRL_ENABLE = 0 ∧ (t.chip.engSt x).wait = .none) ∧
    (∀ v : Word, m.engState x = 0 → m.upsets (progArr x) (m.get pg ENG_PADDR_ADDR / 2) = 0 →
      ∃ t, exec (.pdataAccess r x (some v)) s = .next t ∧
        t.chip.ramWord (progArr x) (4 * m.get pg ENG_PADDR_ADDR) = v.toNat ∧
        t.chip.get pg ENG_PADDR_ADDR = (m.get pg ENG_PADDR_ADDR + 1) % 4096 ∧
        (∀ b : Nat, (∀ k, k < 4 → b ≠ memAddr (progArr x) (4 * m.get pg ENG_PADDR_ADDR + k)) →
          Memory.read t.chip.mem b = Memory.read m.mem b)) ∧
    (∀ v : Word, m.engState x ≠ 0 → Effect (.pdataAccess r x (some v)) s (fun m => m.irq pg 7)) ∧
    (∀ v : Word, m.upsets (dataArr x) (m.get pg ENG_DADDR_ADDR / 2) = 0 →
      ∃ t, exec (.ddataAccess r x (some v)) s = .next t ∧
        t.chip.ramWord (dataArr x) (4 * m.get pg ENG_DADDR_ADDR) = v.toNat ∧
        t.chip.get pg ENG_DADDR_ADDR = (m.get pg ENG_DADDR_ADDR + 1) % 2048) ∧
    (m.upsets (progArr x) (m.get pg ENG_PADDR_ADDR / 2) = 0 →
      Effect (.pdataAccess r x none) s (fun m => m.put pg ENG_PADDR_ADDR (m.get pg ENG_PADDR_ADDR + 1))) ∧
    (m.upsets (dataArr x) (m.get pg ENG_DADDR_ADDR / 2) = 0 →
      Effect (.ddataAccess r x none) s (fun m => m.put pg ENG_DADDR_ADDR (m.get pg ENG_DADDR_ADDR + 1))) ∧
    (∀ arg : Word, LongCommand (.engineProgramLoad r x arg) s r pg 1 arg (fun m => m.engOpStart x)) ∧
    (m.engState x ≠ 3 → exec (.stallEnd x) s = .next s) ∧
    (m.engState x = 3 → m.get pg ENG_STAT_STALLSRC = 4 → m.dep.waiting.any (fun e => e.src == x.val) = false →
      Effect (.stallEnd x) s (fun m => (m.engTo x 1 0).engIdle x)) ∧
    (m.engState x = 3 → m.get pg ENG_STAT_STALLSRC = 4 → m.dep.waiting.any (fun e => e.src == x.val) = true →
      exec (.stallEnd x) s = .next s) ∧
    (m.engState x = 3 → m.get pg ENG_STAT_STALLSRC ≠ 4 →
      Effect (.stallEnd x) s (fun m => (((m.engTo x 1 0).engIdle x).load x (m.engSt x).stall 4 id).engStopDue x))

/-! ### The store -/

/-- R405–R412, R416, R418, R420–R424, R430: the commands of the store. The eight long operations are refused with
reason 0x13 while the store is closed, commit and discard with 0x10 in compatibility mode; a window write is refused,
counted and told by IRQ bit 4 where its page has no region, the store is closed, the region is owned, or its write
password is not open; a fall of VIN under BOWLVL ends the permission to write and its return by the hysteresis
restores it; what was measured shows in VIN and INHVIN; a fourth wrong password in a row bars the requester for 1 s;
MODE changes only while nothing waits; CPCMD needs the latch's page. The grain of writes, the journal in corners and
password corners are readings of the model (logs 61 to 66 and 68). Completes: nvmCommit, nvmDiscard, nvmSeal,
nvmRecallScan, nvmRecordWrite, nvmRecordRead, nvmSetRegion, nvmSetPassword, nvmWindowWrite, brownoutFall,
brownoutRecover, pwdWrite, passwordBarExpiry, nvmModeWrite, cpcmdGo, nvmWordWriteEnd. -/
def Obligations.StoreCommands : Prop :=
  ∀ (r : Requester) (s : State), Running s →
    let m := s.chip
    let q := reqCode r
    BareCommand (.nvmCommit r) s r 0x23 1 Chip.nvOpStart ∧ BareCommand (.nvmDiscard r) s r 0x23 2 Chip.nvOpStart ∧
    BareCommand (.nvmSeal r) s r 0x23 3 Chip.nvOpStart ∧ BareCommand (.nvmRecallScan r) s r 0x23 6 Chip.nvOpStart ∧
    (∀ arg, LongCommand (.nvmRecordWrite r arg) s r 0x23 4 arg Chip.nvOpStart ∧
      LongCommand (.nvmRecordRead r arg) s r 0x23 5 arg Chip.nvOpStart ∧
      LongCommand (.nvmSetRegion r arg) s r 0x23 7 arg Chip.nvOpStart ∧
      LongCommand (.nvmSetPassword r arg) s r 0x23 8 arg Chip.nvOpStart) ∧
    (∀ o, m.opOf 0x23 = some o → 1 ≤ o.cmd → o.cmd ≤ 8 →
      (m.nvClosed = true → m.nvOpStart = m.endErr 0x23 0x13 0) ∧
      (m.nvClosed = false → o.cmd ≤ 2 → m.get 0x23 NVM_CFG_MODE = 1 → m.nvOpStart = m.endErr 0x23 0x10 0) ∧
      (m.nvClosed = false → o.cmd = 2 → m.get 0x23 NVM_CFG_MODE = 0 → m.nvOpStart.nv.slots = List.replicate 16 none)) ∧
    (∀ (off : BitVec 19) (v : Word),
      ((∀ k, m.nv.regionOf (off.toNat / 256) = some k →
          m.nvClosed = true ∨ r = .loader ∨ m.nv.ownerOf k ≠ 0 ∨ m.nv.mayAccess q k true = false) →
        Effect (.nvmWindowWrite r off v) s (fun m => (m.count 0x23 NVM_WREFCNT_COUNT).irq 0x23 4)) ∧
      (∀ k, m.nv.regionOf (off.toNat / 256) = some k → m.nvClosed = false → r ≠ .loader → m.nv.ownerOf k = 0 →
        m.nv.mayAccess q k true = true →
        (m.get 0x23 NVM_CFG_MODE = 0 → m.nv.committing = false → Effect (.nvmWindowWrite r off v) s (fun m =>
          (m.nvBuffer q (off.toNat / 256) (off.toNat % 256 / 4 * 4) (bytesOf 4 v.toNat)).2)) ∧
        (m.get 0x23 NVM_CFG_MODE = 0 → m.nv.committing = true →
          Effect (.nvmWindowWrite r off v) s (fun m => (m.count 0x23 NVM_WREFCNT_COUNT).irq 0x23 4)) ∧
        (m.get 0x23 NVM_CFG_MODE = 1 → Effect (.nvmWindowWrite r off v) s (fun m =>
          (m.nvLatch (off.toNat / 256) (off.toNat % 256 / 4 * 4) (bytesOf 4 v.toNat)).2)))) ∧
    (∀ vin : BitVec 16, m.nv.vinLow = false → vin.toNat < 10 * m.get 0x23 NVM_CFG_BOWLVL →
      ∃ t, exec (.brownoutFall vin) s = .next t ∧ t.chip.nv.vinLow = true ∧ t.chip.get 0x23 NVM_STAT_INHVIN = 1 ∧
        t.chip.get 0x23 NVM_VIN_V = vin.toNat ∧ t.chip.nvPermitted = false) ∧
    (∀ vin : BitVec 16, m.nv.vinLow = true ∨ 10 * m.get 0x23 NVM_CFG_BOWLVL ≤ vin.toNat →
      Effect (.brownoutFall vin) s (fun m => (m.put 0x23 NVM_VIN_V vin.toNat).putB 0x23 NVM_STAT_INHVIN m.nv.vinLow)) ∧
    (∀ vin : BitVec 16, 10 * m.get 0x23 NVM_CFG_BOWLVL + 5 * m.get 0x23 NVM_CFG_HYS ≤ vin.toNat →
      ∃ t, exec (.brownoutRecover vin) s = .next t ∧ t.chip.nv.vinLow = false ∧ t.chip.get 0x23 NVM_STAT_INHVIN = 0) ∧
    (∀ vin : BitVec 16, vin.toNat < 10 * m.get 0x23 NVM_CFG_BOWLVL + 5 * m.get 0x23 NVM_CFG_HYS →
      Effect (.brownoutRecover vin) s (fun m =>
        (m.put 0x23 NVM_VIN_V vin.toNat).putB 0x23 NVM_STAT_INHVIN m.nv.vinLow)) ∧
    (∀ v : Word, m.nv.barred.contains q = true → exec (.pwdWrite r v) s = .next s) ∧
    (∀ v : Word, let sel := (m.rd (reqKey q (NVM_PWSEL_KIND.addr 0x23))).toNat
      m.nv.barred.contains q = false → v ≠ 0 →
      (sel % 16 < 9 → m.nv.pwdOf (sel % 16) (sel.testBit 4) = v.toNat → ∃ t, exec (.pwdWrite r v) s = .next t ∧
        t.chip.nv.opened q (sel % 16) (sel.testBit 4) = true ∧ t.chip.regs = m.regs) ∧
      ((9 ≤ sel % 16 ∨ m.nv.pwdOf (sel % 16) (sel.testBit 4) ≠ v.toNat) → 3 ≤ (Sparse.find m.nv.fails q).getD 0 →
        ∃ t, exec (.pwdWrite r v) s = .next t ∧ t.chip.nv.barred.contains q = true ∧
          (t.chip.get 0x23 HDR_IRQ_RAW_BITS).testBit 9 = true)) ∧
    (let since := (Sparse.find m.nv.barAt q).getD 0
     (m.nv.barred.contains q = true → secTicks ≤ m.ticksSince since → ∃ t, exec (.passwordBarExpiry r) s = .next t ∧
       t.chip.nv.barred.contains q = false ∧ t.chip.regs = m.regs) ∧
     (m.nv.barred.contains q = false ∨ m.ticksSince since < secTicks → exec (.passwordBarExpiry r) s = .next s)) ∧
    (∀ v, LockedAccess (.nvmModeWrite r v) s r 0x23 0x040 v (fun m => m.nvCfgWrite v.toNat)) ∧
    (∀ page : BitVec 11, (m.nv.latch.map NvSlot.page ≠ some page.toNat ∨ m.get 0x23 NVM_CPSTAT_BUSY = 1) →
      Effect (.cpcmdGo r page) s (fun m => m.put 0x23 NVM_CPSTAT_ERR 1)) ∧
    (∀ (page : BitVec 11) l, m.nv.latch = some l → l.page = page.toNat → m.get 0x23 NVM_CPSTAT_BUSY = 0 →
      Effect (.cpcmdGo r page) s (fun m => (m.put 0x23 NVM_CPSTAT_BUSY 1).nvEnqueue
        { kind := .compat, todo := [(l.page, l.words)], total := 1 })) ∧
    (m.nv.cur = none ∨ (m.nv.pause = false ∧ m.nv.inWord = false) →
      Effect .nvmWordWriteEnd s (fun m => m.recFlush.nvKick)) ∧
    (∀ j, m.nv.cur = some j → m.nv.pause = true → m.pauseOver = false → exec .nvmWordWriteEnd s = .next s) ∧
    (∀ j, m.nv.cur = some j → m.nv.pause = true → m.pauseOver = true → Effect .nvmWordWriteEnd s (fun m =>
      (({ m with nv := { m.nv with pause := false } }).recFlush).nvKick)) ∧
    (∀ j p w w' ws rest, m.nv.cur = some j → m.nv.pause = false → m.nv.inWord = true →
      j.todo = (p, w :: w' :: ws) :: rest → Effect .nvmWordWriteEnd s (fun m =>
        let x := m.nvWordDone j p w
        let n := x.2
        let n := { n with nv := { n.nv with
          cur := some { j with words := j.words + b2n x.1, todo := (p, w' :: ws) :: rest } } }
        if n.nvPermitted then n else n.nvHold)) ∧
    (∀ j p w rest, m.nv.cur = some j → m.nv.pause = false → m.nv.inWord = true → j.todo = (p, [w]) :: rest →
      Effect .nvmWordWriteEnd s (fun m =>
        (m.nvWordDone j p w).2.nvPageDone { j with words := j.words + b2n (m.nvWordDone j p w).1 } p rest))

/-- R417, R418, R425–R428, R506–R508: how the store opens and how the boot goes on. A clean store becomes READY at
once; any other after the scan, which also ends a scan on demand. The base configuration is applied in phase 2 of an
open store; without an image NOIMG is set, with a wrong one CFGBAD. STARTMODE's overlay follows in phase 3; run entry
is taken from phase 4, or from phase 3 with nothing to apply, samples PPOS and releases the output hold and Pairing.
SWCTL arms a preload, which ends on an open store. The loader's reads wait for a page that the compatibility interface
writes. The loader's checks and counts, and what run entry records, are readings of the model (logs 80 to 83).
Completes: storeReady, recallScanEnd, baseConfigApply, startmodeOverlayApply, runEntry, ovlSwctlArm,
overlayPreloadEnd. -/
def Obligations.StartupCommands : Prop :=
  ∀ (r : Requester) (s : State), Running s →
    let m := s.chip
    let noMode := decide (8 ≤ m.boot.startMode) || m.get 0x38 OVL_BOOTST_NOIMG == 1 || m.get 0x38 OVL_BOOTST_CFGBAD == 1
    ((m.nv.ready = true ∨ m.nv.clean = false) → exec .storeReady s = .next s) ∧
    (m.nv.ready = false → m.nv.clean = true → ∃ t, exec .storeReady s = .next t ∧ t.chip.nv.ready = true ∧
      t.chip.get 0x23 NVM_STAT_CLEAN = 1) ∧
    (m.nv.ready = false → m.nv.clean = true → exec .recallScanEnd s = .next s) ∧
    (m.nv.ready = true → m.nv.recalling = false → exec .recallScanEnd s = .next s) ∧
    (((m.nv.ready = false ∧ m.nv.clean = false) ∨ (m.nv.ready = true ∧ m.nv.recalling = true)) →
      ∃ t, exec .recallScanEnd s = .next t ∧ t.chip.nv.ready = true ∧ t.chip.nv.recalling = false) ∧
    ((m.boot.phase ≠ 2 ∨ m.nvClosed = true) → exec .baseConfigApply s = .next s) ∧
    (m.cfgWaits 0x78000 4 = true → exec .baseConfigApply s = .next s) ∧
    (m.boot.phase = 2 → m.nvClosed = false → m.get 0x23 NVM_CPSTAT_BUSY = 0 →
      byteAt (m.cfgBytes 0x78000 4).1 0 ≠ 1 → ∃ t, exec .baseConfigApply s = .next t ∧ t.chip.boot.phase = 3 ∧
        t.chip.get 0x38 OVL_BOOTST_NOIMG = 1 ∧ (t.chip.get 0x38 HDR_IRQ_RAW_BITS).testBit 7 = true) ∧
    ((m.boot.phase ≠ 3 ∨ m.nvClosed = true) → exec .startmodeOverlayApply s = .next s) ∧
    (m.boot.phase = 3 → m.nvClosed = false → noMode = true →
      Effect .startmodeOverlayApply s (fun m => { m with boot := { m.boot with phase := 4 } })) ∧
    (noMode = false → m.ovlWaits m.boot.startMode = true → exec .startmodeOverlayApply s = .next s) ∧
    (m.boot.phase = 3 → m.nvClosed = false → noMode = false → m.ovlWaits m.boot.startMode = false → Effect .startmodeOverlayApply s (fun m =>
      match ({ m with boot := { m.boot with phase := 4 } }).ovlCheck m.boot.startMode with
      | (.ok es, n) => n.ovlApply m.boot.startMode es false
      | (.bad why, n) => (n.irq 0x38 6).emit 0x8013 [m.boot.startMode, why])) ∧
    (¬(m.boot.phase = 4 ∨ (m.boot.phase = 3 ∧ noMode = true)) → exec .runEntry s = .next s) ∧
    ((m.boot.phase = 4 ∨ (m.boot.phase = 3 ∧ noMode = true)) → ∃ t, exec .runEntry s = .next t ∧
      t.chip.boot.phase = 5 ∧ t.chip.has 0x35 PAIR_STAT_POS = m.die.ppos ∧ t.chip.get 0x37 PIN_STAT_OHOLD = 0 ∧ t.chip.pair.released = true ∧
      t.chip.pair.paired = decide (m.get 0x35 PAIR_CFG_PAIRED = 1) ∧
      (m.get 0x35 PAIR_CFG_PAIRED = 0 → t.chip.role = 2)) ∧
    (∀ v, Access (.ovlSwctlArm r v) s r 0x38 (fun m => m.swctlWrite (reqCode r) v.toNat)) ∧
    ((m.ovl.loading = false ∨ m.nvClosed = true ∨ m.ovlWaits (m.get 0x38 OVL_SWCTL_OVL) = true) → exec .overlayPreloadEnd s = .next s) ∧
    (∀ es n, m.ovl.loading = true → m.nvClosed = false → m.ovlWaits (m.get 0x38 OVL_SWCTL_OVL) = false → m.ovlCheck (m.get 0x38 OVL_SWCTL_OVL) = (.ok es, n) →
      Effect .overlayPreloadEnd s (fun _ => { n.put 0x38 OVL_SWCTL_PRELOADED 1 with ovl := { entries := es } }))

/-! ### Integrity -/

/-- R439, R441, R442, R445, R448: the commands of Integrity. The four long operations; a scrub reads nothing while
neither a pass runs nor the walk is enabled, and none before its interval has passed. What the scrubber finds is the
row's operand (log 57). Completes: scrubWord, eccLogEmpty, eccClearWord, scrubPass, addSoftSpare. -/
def Obligations.IntegrityCommands : Prop :=
  ∀ (r : Requester) (s : State), Running s →
    let m := s.chip
    BareCommand (.eccLogEmpty r) s r 0x26 1 Chip.eccOpStart ∧
    (∀ arg, LongCommand (.eccClearWord r arg) s r 0x26 2 arg Chip.eccOpStart ∧
      LongCommand (.scrubPass r arg) s r 0x27 1 arg Chip.scbOpStart ∧
      LongCommand (.addSoftSpare r arg) s r 0x27 2 arg Chip.scbOpStart) ∧
    (∀ o, m.opOf 0x26 = some o → o.cmd = 1 → ∀ k, k < 16 →
      m.eccOpStart.get 0x26 ECC_LOG_HITS k = 0 ∧ m.eccOpStart.get 0x26 ECC_LOGSTAT_USED = 0) ∧
    (∀ (e : BitVec 120) (stuck : Bool), m.opOf 0x27 = none → m.enabled 0x27 = false →
      exec (.scrubWord e stuck) s = .next s) ∧
    (∀ (e : BitVec 120) (stuck : Bool), m.opOf 0x27 = none → m.enabled 0x27 = true →
      Effect (.scrubWord e stuck) s (fun m => m.scrubWalk e.toNat stuck)) ∧
    (∀ (e : BitVec 120) (stuck : Bool), m.opOf 0x27 = none → m.enabled 0x27 = true → m.scrubDue 0 = false →
      (scrubFrom m.die.part (m.has 0x27 SCB_CFG_NVMEN) (m.get 0x27 SCB_POS_ARRAY) (m.get 0x27 SCB_POS_WORD)).isSome = true →
      exec (.scrubWord e stuck) s = .next s) ∧
    (∀ (e : BitVec 120) (stuck : Bool) o, m.opOf 0x27 = some o → o.cmd = 1 → m.scrubDue (o.arg % 65536) = false →
      exec (.scrubWord e stuck) s = .next s) ∧
    (∀ (e : BitVec 120) (stuck : Bool) o, m.opOf 0x27 = some o → o.cmd = 1 →
      Effect (.scrubWord e stuck) s (fun m => m.scrubPassWord o e.toNat stuck))

/-- R436–R438, R440: the code over GF(256). An error in one stored symbol is corrected, one in a symbol of the address
is an address fault. A read of a word delivers its bytes as written where nothing or one stored symbol of it is upset,
and counts a correction only in the second case. -/
def Obligations.SingleSymbolErrors : Prop :=
  (∀ p v, p < 15 → 0 < v → v < 256 →
    eccDecode (v * 2 ^ (8 * p)) = (if p < 12 then .corrected [(p, v)] else .address)) ∧
  (∀ (m : Chip) (req arr w : Nat), m.upsets arr w = 0 → m.wordRead req arr w = ⟨some (m.wordData arr w), false, m⟩) ∧
  (∀ (m : Chip) (req arr w p v : Nat), p < 12 → 0 < v → v < 256 → m.upsets arr w = v * 2 ^ (8 * p) →
    (m.wordRead req arr w).data = some (m.wordData arr w) ∧ (m.wordRead req arr w).corrected = true ∧
    (m.wordRead req arr w).chip = m.eccCorrected arr w 1) ∧
  (∀ (m : Chip) (req arr w p v : Nat), 12 ≤ p → p < 15 → 0 < v → v < 256 → m.upsets arr w = 0 →
    m.wordReadWith req arr w (v * 2 ^ (8 * p)) = ⟨none, false, m.eccFailed arr w req true⟩)

/-! ### Recorder and black box -/

/-- R455, R457, R459, R460, R462–R465: the recorder's commands. Records are written while the store allows it; the
start writes the header, at once or when writes are permitted; a bucket's refill adds one token up to its depth each
time its interval has passed; the header is written 1/16 h after the last; while ENABLE is 0 no header waits to be
written; clear and search are long operations; a read of RD0 latches the eight words of the record that RDIDX names;
PUTCODE takes codes of class 0xF from a host or an engine, and refuses others with IRQ bit 6. Where an abort finds a
clear is free (log 67). Completes: recordWrite, recorderStart, recorderHeaderWrite, recorderEnableWrite,
recorderClear, recorderSearch, rd0Read, putcodeWrite, rateLimitRefill. -/
def Obligations.RecorderCommands : Prop :=
  ∀ (r : Requester) (s : State), Running s →
    let m := s.chip
    Happens .recordWrite s (m.recMay = true) Chip.recWrite ∧
    (m.rcd.started = true ∨ m.rcd.opening = true → exec .recorderStart s = .next s) ∧
    (m.rcd.started = false → m.rcd.opening = false → m.enabled 0x24 = true → m.nvClosed = false → m.recRegion ≠ none →
      ∃ t, exec .recorderStart s = .next t ∧
        (m.nvPermitted = true → m.nv.writing = false →
          t.chip.rcd.started = true ∧ t.chip.get 0x24 REC_STAT_STARTED = 1) ∧
        (m.nvPermitted = false → t.chip.rcd.opening = true ∧ t.chip.rcd.started = false)) ∧
    Happens .recorderHeaderWrite s (m.rcd.started = true ∧ m.enabled 0x24 = true ∧ m.nvPermitted = true ∧
      headerTicks ≤ m.ticksSince m.rcd.headAt)
      (fun m => ({ m with rcd := { m.rcd with headAt := m.tim.tick } }).recHeaderDue) ∧
    (∀ en, ∃ t, exec (.recorderEnableWrite r en) s = .next t ∧ t.chip.enabled 0x24 = en ∧
      (en = true → m.rcd.hdrDue = false → t.chip.nv = m.nv ∧ t.chip.rcd = m.rcd) ∧
      (en = false → ∀ j ∈ t.chip.nv.wait, j.kind ≠ .recHeader)) ∧
    BareCommand (.recorderClear r) s r 0x24 2 Chip.recOpStart ∧
    (∀ arg, LongCommand (.recorderSearch r arg) s r 0x24 1 arg Chip.recOpStart) ∧
    (m.recReadable (reqCode r) = false ∨ m.nvClosed = true → ∃ t, exec (.rd0Read r) s = .next t ∧ t.chip.regs = m.regs ∧
      ∀ k, k < 8 → t.chip.shadowOf (reqCode r) (REC_RD_DATA.addr 0x24 k) = some 0) ∧
    (m.recReadable (reqCode r) = true → m.nvClosed = false →
      ∀ x, x = m.recWords ((m.rd (reqKey (reqCode r) (REC_RDIDX_IDX.addr 0x24))).toNat % 16384) →
      ∃ t, exec (.rd0Read r) s = .next t ∧ (m.upset = [] → t.chip.regs = m.regs) ∧
        ∀ k, k < 8 → t.chip.shadowOf (reqCode r) (REC_RD_DATA.addr 0x24 k) = some ((x.1[k]?).getD 0)) ∧
    (∀ v : Word, (v.toNat % 65536 / 4096 ≠ 15 ∨ v.toNat % 4096 = 0 ∨ r = .loader) →
      Effect (.putcodeWrite r v) s (fun m => m.irq 0x24 6)) ∧
    (∀ v : Word, v.toNat % 65536 / 4096 = 15 → v.toNat % 4096 ≠ 0 → r ≠ .loader →
      Effect (.putcodeWrite r v) s (fun m => m.record (v.toNat % 65536) (v.toNat / 65536 % 8) (0x20 + reqCode r) m.stamp
        ((List.range 4).map (fun k => (m.rd (reqKey (reqCode r) (REC_PUTP_P.addr 0x24 k))).toNat % 2 ^ 24)))) ∧
    (∀ code : BitVec 16,
      let add := fun b : Bucket =>
        if m.refillTicks code.toNat ≤ m.ticksSince b.since then
          { b with tokens := min (m.rateDepth code.toNat) (b.tokens + 1)
                   since := (b.since + m.refillTicks code.toNat) % 2 ^ 64 }
        else b
      ∃ t, exec (.rateLimitRefill code) s = .next t ∧ t.chip.regs = m.regs ∧
        (code ≠ 0 → t.chip.rcd.overflow = m.rcd.overflow ∧
          t.chip.rcd.buckets = m.rcd.buckets.map (fun b => if b.code = code.toNat then add b else b)) ∧
        (code = 0 → t.chip.rcd.buckets = m.rcd.buckets ∧
          t.chip.rcd.overflow = (if m.rcd.overflowFresh = true then m.rcd.overflow else add m.rcd.overflow)))

/-- R468–R474, R478: the black box's commands. A trigger opens a capture in FILL or ARMED with a slot, joins one in
POST, and is refused and counted once a clock in OFF, in HOLD or without a slot; ENABLE 1 in OFF goes to FILL, ENABLE
0 to OFF but for a capture being stored; SLOTREL needs a host that unlocked the page; a channel word must name a
source that exists. When an overwritten slot frees is a reading of the model (log 69). Completes: bbxTrigGo,
bbxSlotWriteEnd, bbxEnableWrite, bbxSlotrelWrite, bbxChcfgWrite, bbxSlotInfo, bbxSlotChannelMap. -/
def Obligations.BlackBoxCommands : Prop :=
  ∀ (r : Requester) (s : State), Running s →
    let m := s.chip
    let st := m.get 0x25 BBX_STAT_STATE
    (isFull m.die.part = false → ∀ c ∈ [.bbxTrigGo r, .bbxEnableWrite r true, .bbxEnableWrite r false, .bbxSlotrelWrite r 0,
      .bbxChcfgWrite r 0 0, .bbxSlotInfo r 0, .bbxSlotChannelMap r 0], Effect c s (fun m => m.absentHit (reqCode r) 0x25)) ∧
    (∀ arg, LongCommand (.bbxSlotInfo r arg) s r 0x25 1 arg Chip.bbxOpStart ∧
      LongCommand (.bbxSlotChannelMap r arg) s r 0x25 2 arg Chip.bbxOpStart) ∧
    (∀ (c : Fin 16) (v : Word), LockedAccess (.bbxChcfgWrite r c v) s r 0x25 (0x060 + 4 * c.val) v (fun m => m.bbxChcfg c v.toNat)) ∧
    (∀ (c : Fin 16) (v : Word), bbxSource m.die.part (v.toNat / 32 % 8) (v.toNat % 32) = false →
      m.bbxChcfg c v.toNat = m.irq 0x25 6) ∧
    (isFull m.die.part = true →
      (st = 4 ∨ st = 0 ∨ (st ∈ [1, 2] ∧ m.bbxSlotAvail = false) → m.bbx.lastRefuse = some m.tim.tick →
        exec (.bbxTrigGo r) s = .next s) ∧
      (st = 4 ∨ st = 0 ∨ (st ∈ [1, 2] ∧ m.bbxSlotAvail = false) → m.bbx.lastRefuse ≠ some m.tim.tick →
        ∃ t, exec (.bbxTrigGo r) s = .next t ∧ t.chip.get 0x25 BBX_STAT_STATE = st ∧
        t.chip.get 0x25 BBX_MISSED_COUNT = satInc BBX_MISSED_COUNT.wd (m.get 0x25 BBX_MISSED_COUNT) ∧
        (t.chip.get 0x25 HDR_IRQ_RAW_BITS).testBit 5 = true) ∧
      (st ∈ [1, 2] → m.bbxSlotAvail = true → ∃ t, exec (.bbxTrigGo r) s = .next t ∧
        t.chip.get 0x25 BBX_STAT_STATE = 3 ∧ t.chip.bbx.trigLine = 0xFF ∧ t.chip.bbx.trigStamp = m.stamp ∧
        t.chip.bbx.pre = min 512 m.bbx.ring.length ∧ t.chip.bbx.after = 0) ∧
      (st = 3 → ∃ t, exec (.bbxTrigGo r) s = .next t ∧ t.chip.regs = m.regs ∧ t.chip.bbx.further =
        (if m.bbx.lastTrig = m.tim.tick then m.bbx.further else satInc 8 m.bbx.further)) ∧
      (∃ t, exec (.bbxEnableWrite r true) s = .next t ∧ t.chip.enabled 0x25 = true ∧
        t.chip.get 0x25 BBX_STAT_STATE = (if st = 0 then 1 else st)) ∧
      (∃ t, exec (.bbxEnableWrite r false) s = .next t ∧ t.chip.enabled 0x25 = false ∧ t.chip.bbx.ring = [] ∧
        t.chip.get 0x25 BBX_STAT_STATE = (if st = 4 then 4 else 0) ∧ t.chip.get 0x25 BBX_STAT_FILL = 0) ∧
      (∀ v, (isHost (reqCode r) = false ∨ m.unlockedFor (reqCode r) 0x25 = false) →
        Effect (.bbxSlotrelWrite r v) s (fun m => (m.rwlSeen (reqCode r) 0x25).irq 0x25 6)) ∧
      (∀ v : BitVec 8, isHost (reqCode r) = true → m.unlockedFor (reqCode r) 0x25 = true →
        Effect (.bbxSlotrelWrite r v) s (fun m => (bitsUp v.toNat (m.get 0x25 BBX_STAT_NSLOT)).foldl (fun n k =>
          if st = 4 ∧ k = n.bbx.slot then n else n.bbxFree k) (m.rwlSeen (reqCode r) 0x25)))) ∧
    Effect .bbxSlotWriteEnd s Chip.bbxStored ∧
    ((st ≠ 4 ∨ m.nvClosed = true ∨ m.nvPermitted = false ∨ m.nv.betweenPages = false) →
      exec .bbxSlotWriteEnd s = .next s) ∧
    (∀ g, m.nv.ownedBy 2 = some g → st = 4 → m.nvClosed = false → m.nvPermitted = true → m.nv.betweenPages = true →
      m.bbx.slot < m.get 0x25 BBX_STAT_NSLOT → m.bbx.slot < 8 → ∃ t, exec .bbxSlotWriteEnd s = .next t ∧
        (t.chip.get 0x25 BBX_STAT_VALID).testBit m.bbx.slot = true ∧ t.chip.bbx.frozen = [] ∧
        (t.chip.get 0x25 HDR_IRQ_RAW_BITS).testBit 4 = true)

/-! ### Pairing -/

/-- R481–R493, R498, R499: the commands of Pairing. Nothing acts before its release. A frame of a wrong length or a
bad one is counted, and ends the run of its type; a heartbeat takes over the partner's data, with SKEW from its
arrival where the boundary it names is the last one (as measured elsewhere, log 85), and sets HBOK; its loss after
HBTO clears HBOK and LINK; a mirror in sequence counts to 8, a missing one clears the count; the master sends a mirror
every 100 µs; the takeovers of a paired standby: PMSI low (causes 1, 2, 5), no activity (3), no heartbeat since reset
(4); a lower position gives way to a second master (7); a handover waits for its acknowledge and ends with one, or
with reason 0x14 after 1 ms. Frames, mirrors out of sequence, the instant of the rule, causes and counts follow logs
84 to 89. Completes: heartbeatReceived, uttiaBadFrame, heartbeatLost, mirrorSend, mirrorReceived, mirrorTimeout,
pmsiFallTakeover, claimDelayExpiry, dualMastership, activityWindowEnd, handover, autoHandoverStart,
handoverFrameReceived, handoverAckReceived, handoverAckTimeout, handoverPmsiTimeout. -/
def Obligations.PairingCommands : Prop :=
  ∀ (r : Requester) (s : State), Running s →
    let m := s.chip
    let standby := m.pair.released = true ∧ m.pair.paired = true ∧ m.role = 0
    (m.pair.released = false →
      (∀ p k l, exec (.heartbeatReceived p k l) s = .next s) ∧ (∀ x, exec (.uttiaBadFrame x) s = .next s) ∧
      (∀ l, exec (.heartbeatLost l) s = .next s) ∧ (∀ p, exec (.mirrorReceived p) s = .next s) ∧
      (∀ p, exec (.handoverFrameReceived p) s = .next s) ∧
      ∀ c ∈ [.claimDelayExpiry, .dualMastership, .pmsiFallTakeover], exec c s = .next s) ∧
    (m.pair.released = true → ∀ p k l, p.length ≠ 24 →
      Effect (.heartbeatReceived p k l) s (fun m => m.badFrameOf 1)) ∧
    (m.pair.released = true → ∀ p k l, p.length = 24 → ∃ t, exec (.heartbeatReceived p k l) s = .next t ∧
      t.chip.get 0x35 PAIR_STAT_HBOK = 1 ∧ t.chip.get 0x35 PAIR_PCYC_CYCLE = bytesLE ((p.drop 4).take 4) ∧
      t.chip.get 0x35 PAIR_PANG_ANGLE = bytesLE ((p.drop 8).take 2) ∧ t.chip.pair.hbTick = m.tim.tick ∧
      t.chip.get 0x35 PAIR_HEALTH_PARTNER = bytesLE ((p.drop 12).take 1) ∧ t.chip.get 0x35 PAIR_STAT_PMSI = b2n l ∧
      t.chip.get 0x35 PAIR_SKEW_SKEW =
        (if bytesLE ((p.drop 8).take 2) / 256 = m.tim.angle / 256 then (m.ticksSince m.tim.wpTick + 2 ^ 32 - 320) % 2 ^ 32
          else k.toNat) ∧
      (m.linkUp = true ∨ 7 ≤ m.pair.run → t.chip.get 0x35 PAIR_STAT_LINK = 1)) ∧
    (m.pair.released = true → ∀ x, ∃ t, exec (.uttiaBadFrame x) s = .next t ∧
      t.chip.get 0x35 PAIR_ERRCNT_BADFR = satInc PAIR_ERRCNT_BADFR.wd (m.get 0x35 PAIR_ERRCNT_BADFR) ∧
      (x = 2 → t.chip.get 0x35 PAIR_STAT_MCNT = 0 ∧ t.chip.get 0x35 PAIR_STAT_MVALID = 0)) ∧
    (m.pair.released = true → m.get 0x35 PAIR_STAT_HBOK = 1 → m.hbtoTicks ≤ m.ticksSince m.pair.hbTick → ∀ l,
      ∃ t, exec (.heartbeatLost l) s = .next t ∧ t.chip.get 0x35 PAIR_STAT_HBOK = 0 ∧
        t.chip.get 0x35 PAIR_STAT_LINK = 0 ∧ (t.chip.get 0x35 HDR_IRQ_RAW_BITS).testBit 5 = true ∧
        (standby → l = false → t.chip.role = 1 ∧ t.chip.get 0x35 PAIR_LASTTK_CAUSE = 2)) ∧
    (m.pair.released = true → m.get 0x35 PAIR_STAT_HBOK = 0 → ∀ l,
      Effect (.heartbeatLost l) s (fun m => m.putB 0x35 PAIR_STAT_PMSI l)) ∧
    (m.role = 1 → m.pair.mirSent = none → ∃ t, exec .mirrorSend s = .next t ∧ t.chip.regs = m.regs ∧
      t.chip.pair.txMir = uttiaFrame 2 (m.mirPayload m.pair.mirSeq) ∧ t.chip.pair.mirSent = some m.tim.tick ∧
      t.chip.pair.mirSeq = (m.pair.mirSeq + 1) % 2 ^ 32) ∧
    (m.role ≠ 1 → exec .mirrorSend s = .next s) ∧
    (∀ k, m.pair.mirSent = some k → m.ticksSince k < 20000 → exec .mirrorSend s = .next s) ∧
    (m.pair.released = true → ∀ p, p.length ≠ 72 →
      Effect (.mirrorReceived p) s (fun m => m.badFrameOf 2) ∧
      Effect (.handoverFrameReceived p) s (fun m => m.count 0x35 PAIR_ERRCNT_BADFR)) ∧
    (m.pair.released = true → m.pair.nextSeq = none → ∀ p, p.length = 72 →
      ∃ t, exec (.mirrorReceived p) s = .next t ∧ t.chip.mirror = some (mirrorOf p) ∧
        t.chip.get 0x35 PAIR_STAT_MCNT = min 8 (m.get 0x35 PAIR_STAT_MCNT + 1)) ∧
    (∀ k j, m.pair.nextSeq = some k → m.pair.mirTick = some j → 30000 ≤ m.ticksSince j →
      ∃ t, exec .mirrorTimeout s = .next t ∧ t.chip.get 0x35 PAIR_STAT_MCNT = 0 ∧ t.chip.pair.nextSeq = none ∧
        t.chip.get 0x35 PAIR_ERRCNT_LOSTMR = satInc PAIR_ERRCNT_LOSTMR.wd (m.get 0x35 PAIR_ERRCNT_LOSTMR)) ∧
    (m.pair.nextSeq = none → exec .mirrorTimeout s = .next s) ∧
    (standby → m.pair.acked = none → ∃ t, exec .pmsiFallTakeover s = .next t ∧ t.chip.role = 1 ∧
      t.chip.get 0x35 PAIR_LASTTK_CAUSE = 1 ∧ t.chip.get 0x35 PAIR_STAT_PMSI = 0) ∧
    (standby → ∀ k im, m.pair.acked = some (k, im) → m.ticksSince k ≤ 2000 → ∃ t, exec .pmsiFallTakeover s = .next t ∧
      t.chip.role = 1 ∧ t.chip.get 0x35 PAIR_LASTTK_CAUSE = 5 ∧ t.chip.mirror = some im) ∧
    (standby → m.pair.hbSeen = false → m.get 0x35 PAIR_STAT_PMSI = 0 →
      (if m.get 0x35 PAIR_STAT_POS = 1 then 6000 else 2000) * 200 ≤ m.ticksSince m.pair.since →
      ∃ t, exec .claimDelayExpiry s = .next t ∧ t.chip.role = 1 ∧ t.chip.get 0x35 PAIR_LASTTK_CAUSE = 4) ∧
    (m.pair.hbSeen = true ∨ m.get 0x35 PAIR_STAT_PMSI = 1 → exec .claimDelayExpiry s = .next s) ∧
    (m.pair.released = true → m.pair.paired = true → m.role = 1 → m.linkUp = false → ∃ t, exec .dualMastership s = .next t ∧
      t.chip.get 0x35 PAIR_STAT_DUAL = 1 ∧ (t.chip.get 0x35 HDR_IRQ_RAW_BITS).testBit 8 = true ∧
      t.chip.role = (if m.get 0x35 PAIR_STAT_POS = 1 then 0 else 1)) ∧
    (m.pair.act = none → exec .activityWindowEnd s = .next s) ∧
    (∀ k, standby → m.pair.act = some k → m.actTicks ≤ m.ticksSince k → m.activeLoops = [] →
      ∃ t, exec .activityWindowEnd s = .next t ∧ t.chip.role = 1 ∧ t.chip.get 0x35 PAIR_LASTTK_CAUSE = 3) ∧
    (∀ k, m.pair.act = some k → m.actTicks ≤ m.ticksSince k → m.activeLoops ≠ [] →
      ∃ t, exec .activityWindowEnd s = .next t ∧ t.chip.role = m.role ∧ t.chip.get 0x35 PAIR_STAT_LINKFLT = 1 ∧
        (t.chip.get 0x35 HDR_IRQ_RAW_BITS).testBit 7 = true) ∧
    BareCommand (.handover r) s r 0x35 1 Chip.pairOpStart ∧
    (∀ k, m.pair.leadSince = some k → m.get 0x35 PAIR_CFG_AUTOHO = 1 → 200000000 ≤ m.ticksSince k →
      m.handoverBar = none → m.busy 0x35 = false → Effect .autoHandoverStart s (fun m => m.acceptOp 0x35 1 0 3)) ∧
    (m.pair.leadSince = none → exec .autoHandoverStart s = .next s) ∧
    (standby → ∀ p, p.length = 72 → ∃ t, exec (.handoverFrameReceived p) s = .next t ∧ t.chip.regs = m.regs ∧
      t.chip.pair.acked = some (m.tim.tick, mirrorOf p) ∧ t.chip.pair.txAck = uttiaFrame 4 []) ∧
    (∀ o, m.opOf 0x35 = some o → o.phase = 1 → m.role = 1 → m.ticksSince o.a < 200000 →
      ∃ t, exec .handoverAckReceived s = .next t ∧
      t.chip.role = 0 ∧ t.chip.get 0x35 PAIR_LASTTK_CAUSE = 8 ∧ t.chip.busy 0x35 = false ∧
      t.chip.get 0x35 HDR_STATUS_DONE = 1) ∧
    (m.opOf 0x35 = none → exec .handoverAckReceived s = .next s ∧ exec .handoverAckTimeout s = .next s) ∧
    (∀ o, m.opOf 0x35 = some o → o.phase = 1 → 200000 ≤ m.ticksSince o.a → ∃ t, exec .handoverAckTimeout s = .next t ∧
      t.chip.busy 0x35 = false ∧ t.chip.get 0x35 HDR_STATUS_ERR = 1 ∧ t.chip.role = m.role ∧
      (t.chip.rd (partAddr 0x35 5)).toNat = 0x14) ∧
    (∀ k im, m.pair.acked = some (k, im) → 2000 ≤ m.ticksSince k → ∃ t, exec .handoverPmsiTimeout s = .next t ∧
      t.chip.pair.acked = none ∧ t.chip.regs = m.regs) ∧
    (m.pair.acked = none → exec .handoverPmsiTimeout s = .next s)
end

