-- ==== Sys2Proof/Laws/Bits.lean ====
section
/-! SUPPORT. The laws of bit fields: every bit of a number with a field replaced, and the fields read from it. -/

namespace Sys2Proof.Machine

/-- A number with a field replaced, as high part, field and low part. -/
theorem setBits_split (n lo wd v : Nat) :
    setBits n lo wd v = 2 ^ lo * (2 ^ wd * (n / 2 ^ lo / 2 ^ wd) + v % 2 ^ wd) + n % 2 ^ lo := by
  have h1 := Nat.div_add_mod n (2 ^ lo)
  have h2 := Nat.div_add_mod (n / 2 ^ lo) (2 ^ wd)
  have h3 : n = 2 ^ lo * (2 ^ wd * (n / 2 ^ lo / 2 ^ wd)) + 2 ^ lo * (n / 2 ^ lo % 2 ^ wd) + n % 2 ^ lo := by
    rw [← Nat.mul_add, h2, h1]
  simp only [setBits, bitsOf, Nat.shiftRight_eq_div_pow, Nat.shiftLeft_eq]
  rw [Nat.mul_comm (n / 2 ^ lo % 2 ^ wd), Nat.mul_comm (v % 2 ^ wd), Nat.mul_add]
  generalize 2 ^ lo * (2 ^ wd * (n / 2 ^ lo / 2 ^ wd)) = A at h3 ⊢
  generalize 2 ^ lo * (n / 2 ^ lo % 2 ^ wd) = B at h3 ⊢
  generalize 2 ^ lo * (v % 2 ^ wd) = C
  generalize n % 2 ^ lo = D at h3 ⊢
  omega

/-- Bit `i` of a number with a field replaced. -/
theorem testBit_setBits (n lo wd v i : Nat) :
    (setBits n lo wd v).testBit i =
      if i < lo then n.testBit i else if i < lo + wd then v.testBit (i - lo) else n.testBit i := by
  rw [setBits_split, Nat.testBit_two_pow_mul_add _ (Nat.mod_lt _ (Nat.two_pow_pos lo))]
  split
  · rename_i h; simp [Nat.testBit_mod_two_pow, h]
  · rename_i h
    rw [Nat.testBit_two_pow_mul_add _ (Nat.mod_lt _ (Nat.two_pow_pos wd))]
    split
    · rename_i h'
      have : i < lo + wd := by omega
      simp [this, Nat.testBit_mod_two_pow, h']
    · rename_i h'
      have : ¬ i < lo + wd := by omega
      rw [if_neg this, Nat.testBit_div_two_pow, Nat.testBit_div_two_pow]
      congr 1
      omega

/-- Bit `i` of a field. -/
theorem testBit_bitsOf (n lo wd i : Nat) : (bitsOf n lo wd).testBit i = (decide (i < wd) && n.testBit (lo + i)) := by
  simp [bitsOf, Nat.testBit_mod_two_pow, Nat.testBit_shiftRight]

/-- The field just replaced reads as its new value. -/
theorem bitsOf_setBits_same (n lo wd v : Nat) : bitsOf (setBits n lo wd v) lo wd = v % 2 ^ wd := by
  apply Nat.eq_of_testBit_eq
  intro i
  rw [testBit_bitsOf, testBit_setBits, Nat.testBit_mod_two_pow]
  by_cases h : i < wd
  · simp only [h, Nat.add_lt_add_iff_left, if_true, Nat.add_sub_cancel_left]
    have h1 : ¬ lo + i < lo := by omega
    simp [h1]
  · simp [h]

/-- A field that shares no bit with the one replaced reads as before. -/
theorem bitsOf_setBits_ne (n lo wd v lo' wd' : Nat) (h : lo' + wd' ≤ lo ∨ lo + wd ≤ lo') :
    bitsOf (setBits n lo wd v) lo' wd' = bitsOf n lo' wd' := by
  apply Nat.eq_of_testBit_eq
  intro i
  rw [testBit_bitsOf, testBit_bitsOf, testBit_setBits]
  by_cases hi : i < wd'
  · rcases h with h | h
    · have : lo' + i < lo := by omega
      simp [this]
    · have h1 : ¬ lo' + i < lo := by omega
      have h2 : ¬ lo' + i < lo + wd := by omega
      simp [h1, h2]
  · simp [hi]

/-- Replacing a field of a 32-bit number leaves a 32-bit number. -/
theorem setBits_lt (n lo wd v : Nat) (hn : n < 2 ^ 32) (h : lo + wd ≤ 32) : setBits n lo wd v < 2 ^ 32 := by
  apply Nat.lt_pow_two_of_testBit
  intro i hi
  rw [testBit_setBits]
  have h1 : ¬ i < lo := by omega
  have h2 : ¬ i < lo + wd := by omega
  simp only [h1, h2, if_false]
  exact Nat.testBit_lt_two_pow (Nat.lt_of_lt_of_le hn (Nat.pow_le_pow_right (by decide) hi))

/-- A field of `wd` bits is below 2 to the `wd`. -/
theorem bitsOf_lt (n lo wd : Nat) : bitsOf n lo wd < 2 ^ wd := Nat.mod_lt _ (Nat.two_pow_pos wd)

end Sys2Proof.Machine
end

