-- ==== Sys2Proof/Laws/Sparse.lean ====
section
/-! SUPPORT. The laws of the sparse maps that hold the register file and the memories: what a write leaves to read, that
it leaves every other key alone, and that it keeps the canonical form. -/

namespace Sys2Proof.Machine

variable {α : Type}

theorem Sparse.find_put_same (l : List (Nat × α)) (a : Nat) (v : α) : Sparse.find (Sparse.put l a v) a = some v := by
  induction l with
  | nil => simp [Sparse.put, Sparse.find]
  | cons e t ih =>
    obtain ⟨k, w⟩ := e
    unfold Sparse.put
    split
    · simp [Sparse.find]
    · split
      · simp [Sparse.find]
      · rename_i h; simp [Sparse.find, h, ih]

theorem Sparse.find_put_ne (l : List (Nat × α)) {a b : Nat} (v : α) (h : b ≠ a) :
    Sparse.find (Sparse.put l a v) b = Sparse.find l b := by
  have h' : a ≠ b := Ne.symm h
  induction l with
  | nil => simp [Sparse.put, Sparse.find, h']
  | cons e t ih =>
    obtain ⟨k, w⟩ := e
    unfold Sparse.put
    split
    · simp [Sparse.find, h']
    · split
      · rename_i hk; subst hk; simp [Sparse.find, h']
      · simp [Sparse.find, ih]

theorem Sparse.find_drop_same (l : List (Nat × α)) (a : Nat) : Sparse.find (Sparse.drop l a) a = none := by
  induction l with
  | nil => rfl
  | cons e t ih =>
    obtain ⟨k, w⟩ := e
    unfold Sparse.drop
    split
    · exact ih
    · rename_i h; simp [Sparse.find, h, ih]

theorem Sparse.find_drop_ne (l : List (Nat × α)) {a b : Nat} (h : b ≠ a) :
    Sparse.find (Sparse.drop l a) b = Sparse.find l b := by
  have h' : a ≠ b := Ne.symm h
  induction l with
  | nil => rfl
  | cons e t ih =>
    obtain ⟨k, w⟩ := e
    unfold Sparse.drop
    split
    · rename_i hk; subst hk; simp [Sparse.find, h', ih]
    · simp [Sparse.find, ih]

/-- A read after a write of the same key gives the value written. -/
@[simp] theorem Sparse.get_set_same [DecidableEq α] (d : Nat → α) (l : List (Nat × α)) (a : Nat) (v : α) :
    Sparse.get d (Sparse.set d l a v) a = v := by
  unfold Sparse.get Sparse.set
  split
  · rename_i h; simp [Sparse.find_drop_same, h]
  · simp [Sparse.find_put_same]

/-- A write leaves every other key alone. -/
theorem Sparse.get_set_ne [DecidableEq α] (d : Nat → α) (l : List (Nat × α)) {a b : Nat} (v : α) (h : b ≠ a) :
    Sparse.get d (Sparse.set d l a v) b = Sparse.get d l b := by
  unfold Sparse.get Sparse.set
  split
  · rw [Sparse.find_drop_ne l h]
  · rw [Sparse.find_put_ne l v h]

theorem Sparse.rising_mono {l : List (Nat × α)} {a b : Nat} (h : a ≤ b) (r : Sparse.risingFrom b l = true) :
    Sparse.risingFrom a l = true := by
  cases l with
  | nil => rfl
  | cons e t =>
    obtain ⟨k, w⟩ := e
    simp [Sparse.risingFrom] at r ⊢
    exact ⟨by omega, r.2⟩

theorem Sparse.rising_put (l : List (Nat × α)) (a : Nat) (v : α) {b : Nat} (hb : b ≤ a)
    (r : Sparse.risingFrom b l = true) : Sparse.risingFrom b (Sparse.put l a v) = true := by
  induction l generalizing b with
  | nil => simp [Sparse.put, Sparse.risingFrom, hb]
  | cons e t ih =>
    obtain ⟨k, w⟩ := e
    simp [Sparse.risingFrom] at r
    unfold Sparse.put
    split
    · rename_i h; simp [Sparse.risingFrom, hb, r.2]; omega
    · split
      · rename_i h; subst h; simp [Sparse.risingFrom, hb, r.2]
      · simp [Sparse.risingFrom, r.1]; exact ih (by omega) r.2

theorem Sparse.rising_drop (l : List (Nat × α)) (a : Nat) {b : Nat} (r : Sparse.risingFrom b l = true) :
    Sparse.risingFrom b (Sparse.drop l a) = true := by
  induction l generalizing b with
  | nil => rfl
  | cons e t ih =>
    obtain ⟨k, w⟩ := e
    simp [Sparse.risingFrom] at r
    unfold Sparse.drop
    split
    · exact ih (Sparse.rising_mono (by omega) r.2)
    · simp [Sparse.risingFrom, r.1]; exact ih r.2

theorem Sparse.rising_filter (l : List (Nat × α)) (p : Nat × α → Bool) {b : Nat} (r : Sparse.risingFrom b l = true) :
    Sparse.risingFrom b (l.filter p) = true := by
  induction l generalizing b with
  | nil => rfl
  | cons e t ih =>
    obtain ⟨k, w⟩ := e
    simp [Sparse.risingFrom] at r
    rw [List.filter_cons]
    split
    · simp [Sparse.risingFrom, r.1]; exact ih r.2
    · exact ih (Sparse.rising_mono (by omega) r.2)

theorem Sparse.mem_put {l : List (Nat × α)} {a : Nat} {v : α} {e : Nat × α} (h : e ∈ Sparse.put l a v) :
    e = (a, v) ∨ e ∈ l := by
  induction l with
  | nil => simpa [Sparse.put] using h
  | cons x t ih =>
    obtain ⟨k, w⟩ := x
    unfold Sparse.put at h
    split at h
    · simpa using h
    · split at h
      · simp at h; rcases h with h | h <;> simp [h]
      · simp at h
        rcases h with h | h
        · simp [h]
        · rcases ih h with h | h <;> simp [h]

theorem Sparse.mem_drop {l : List (Nat × α)} {a : Nat} {e : Nat × α} (h : e ∈ Sparse.drop l a) : e ∈ l := by
  induction l with
  | nil => exact h
  | cons x t ih =>
    obtain ⟨k, w⟩ := x
    unfold Sparse.drop at h
    split at h
    · simp [ih h]
    · simp at h; rcases h with h | h
      · simp [h]
      · simp [ih h]

/-- A write keeps the canonical form. -/
theorem Sparse.wf_set [DecidableEq α] (d : Nat → α) (l : List (Nat × α)) (a : Nat) (v : α) (h : Sparse.wf d l = true) :
    Sparse.wf d (Sparse.set d l a v) = true := by
  simp only [Sparse.wf, Bool.and_eq_true, List.all_eq_true, decide_eq_true_eq] at h ⊢
  unfold Sparse.set
  split
  · exact ⟨Sparse.rising_drop l a h.1, fun e he => h.2 e (Sparse.mem_drop he)⟩
  · rename_i hv
    refine ⟨Sparse.rising_put l a v (Nat.zero_le a) h.1, fun e he => ?_⟩
    rcases Sparse.mem_put he with he | he
    · subst he; exact hv
    · exact h.2 e he

/-- Taking entries off by a test of them keeps the canonical form. -/
theorem Sparse.wf_filter [DecidableEq α] (d : Nat → α) (l : List (Nat × α)) (p : Nat × α → Bool)
    (h : Sparse.wf d l = true) : Sparse.wf d (l.filter p) = true := by
  simp only [Sparse.wf, Bool.and_eq_true, List.all_eq_true, decide_eq_true_eq] at h ⊢
  exact ⟨Sparse.rising_filter l p h.1, fun e he => h.2 e (List.mem_filter.mp he).1⟩

end Sys2Proof.Machine
end

