-- ==== Sys2Proof/Laws/State.lean ====
section
/-! SUPPORT. The laws of the state: what each elementary update leaves of every other field, and what a register and a
field read as after a write. -/

namespace Sys2Proof.Machine

/-! ### Fields that an elementary update leaves -/

@[simp] theorem Chip.wr_die (m : Chip) (k : Nat) (v : Word) : (m.wr k v).die = m.die := rfl
@[simp] theorem Chip.wr_held (m : Chip) (k : Nat) (v : Word) : (m.wr k v).held = m.held := rfl
@[simp] theorem Chip.wr_causes (m : Chip) (k : Nat) (v : Word) : (m.wr k v).causes = m.causes := rfl
@[simp] theorem Chip.wr_shadow (m : Chip) (k : Nat) (v : Word) : (m.wr k v).shadow = m.shadow := rfl
@[simp] theorem Chip.wr_ops (m : Chip) (k : Nat) (v : Word) : (m.wr k v).ops = m.ops := rfl
@[simp] theorem Chip.wr_host (m : Chip) (k : Nat) (v : Word) : (m.wr k v).host = m.host := rfl
@[simp] theorem Chip.wr_tim (m : Chip) (k : Nat) (v : Word) : (m.wr k v).tim = m.tim := rfl
@[simp] theorem Chip.wr_rcd (m : Chip) (k : Nat) (v : Word) : (m.wr k v).rcd = m.rcd := rfl
@[simp] theorem Chip.wr_clk (m : Chip) (k : Nat) (v : Word) : (m.wr k v).clk = m.clk := rfl
@[simp] theorem Chip.wr_dep (m : Chip) (k : Nat) (v : Word) : (m.wr k v).dep = m.dep := rfl
@[simp] theorem Chip.wr_bbx (m : Chip) (k : Nat) (v : Word) : (m.wr k v).bbx = m.bbx := rfl
@[simp] theorem Chip.wr_ports (m : Chip) (k : Nat) (v : Word) : (m.wr k v).ports = m.ports := rfl
@[simp] theorem Chip.wr_ctxs (m : Chip) (k : Nat) (v : Word) : (m.wr k v).ctxs = m.ctxs := rfl
@[simp] theorem Chip.wr_shrSlots (m : Chip) (k : Nat) (v : Word) : (m.wr k v).shrSlots = m.shrSlots := rfl
@[simp] theorem Chip.wr_mea (m : Chip) (k : Nat) (v : Word) : (m.wr k v).mea = m.mea := rfl
@[simp] theorem Chip.wr_cal (m : Chip) (k : Nat) (v : Word) : (m.wr k v).cal = m.cal := rfl
@[simp] theorem Chip.wr_met (m : Chip) (k : Nat) (v : Word) : (m.wr k v).met = m.met := rfl
@[simp] theorem Chip.wr_mar (m : Chip) (k : Nat) (v : Word) : (m.wr k v).mar = m.mar := rfl
@[simp] theorem Chip.wr_phm (m : Chip) (k : Nat) (v : Word) : (m.wr k v).phm = m.phm := rfl
@[simp] theorem Chip.wr_mirror (m : Chip) (k : Nat) (v : Word) : (m.wr k v).mirror = m.mirror := rfl
@[simp] theorem Chip.wr_shr (m : Chip) (k : Nat) (v : Word) : (m.wr k v).shr = m.shr := rfl
@[simp] theorem Chip.wr_hld (m : Chip) (k : Nat) (v : Word) : (m.wr k v).hld = m.hld := rfl
@[simp] theorem Chip.wr_cap (m : Chip) (k : Nat) (v : Word) : (m.wr k v).cap = m.cap := rfl
@[simp] theorem Chip.wr_dom (m : Chip) (k : Nat) (v : Word) : (m.wr k v).dom = m.dom := rfl
@[simp] theorem Chip.wr_prt (m : Chip) (k : Nat) (v : Word) : (m.wr k v).prt = m.prt := rfl
@[simp] theorem Chip.wr_mem (m : Chip) (k : Nat) (v : Word) : (m.wr k v).mem = m.mem := rfl
@[simp] theorem Chip.wr_upset (m : Chip) (k : Nat) (v : Word) : (m.wr k v).upset = m.upset := rfl
@[simp] theorem Chip.wr_ecc (m : Chip) (k : Nat) (v : Word) : (m.wr k v).ecc = m.ecc := rfl
@[simp] theorem Chip.wr_nv (m : Chip) (k : Nat) (v : Word) : (m.wr k v).nv = m.nv := rfl
@[simp] theorem Chip.wr_bat (m : Chip) (k : Nat) (v : Word) : (m.wr k v).bat = m.bat := rfl
@[simp] theorem Chip.wr_rail (m : Chip) (k : Nat) (v : Word) : (m.wr k v).rail = m.rail := rfl
@[simp] theorem Chip.wr_seq (m : Chip) (k : Nat) (v : Word) : (m.wr k v).seq = m.seq := rfl
@[simp] theorem Chip.wr_thm (m : Chip) (k : Nat) (v : Word) : (m.wr k v).thm = m.thm := rfl
@[simp] theorem Chip.wr_pair (m : Chip) (k : Nat) (v : Word) : (m.wr k v).pair = m.pair := rfl
@[simp] theorem Chip.wr_eng (m : Chip) (k : Nat) (v : Word) : (m.wr k v).eng = m.eng := rfl
@[simp] theorem Chip.wr_boot (m : Chip) (k : Nat) (v : Word) : (m.wr k v).boot = m.boot := rfl
@[simp] theorem Chip.wr_ovl (m : Chip) (k : Nat) (v : Word) : (m.wr k v).ovl = m.ovl := rfl
@[simp] theorem Chip.wr_freeN (m : Chip) (k : Nat) (v : Word) : (m.wr k v).freeN = m.freeN := rfl

@[simp] theorem Chip.put_die (m : Chip) (pg : Nat) (f : Fld) (v i : Nat) : (m.put pg f v i).die = m.die := rfl
@[simp] theorem Chip.put_held (m : Chip) (pg : Nat) (f : Fld) (v i : Nat) : (m.put pg f v i).held = m.held := rfl
@[simp] theorem Chip.put_causes (m : Chip) (pg : Nat) (f : Fld) (v i : Nat) : (m.put pg f v i).causes = m.causes := rfl
@[simp] theorem Chip.put_shadow (m : Chip) (pg : Nat) (f : Fld) (v i : Nat) : (m.put pg f v i).shadow = m.shadow := rfl
@[simp] theorem Chip.put_ops (m : Chip) (pg : Nat) (f : Fld) (v i : Nat) : (m.put pg f v i).ops = m.ops := rfl
@[simp] theorem Chip.put_host (m : Chip) (pg : Nat) (f : Fld) (v i : Nat) : (m.put pg f v i).host = m.host := rfl
@[simp] theorem Chip.put_tim (m : Chip) (pg : Nat) (f : Fld) (v i : Nat) : (m.put pg f v i).tim = m.tim := rfl
@[simp] theorem Chip.put_rcd (m : Chip) (pg : Nat) (f : Fld) (v i : Nat) : (m.put pg f v i).rcd = m.rcd := rfl
@[simp] theorem Chip.put_clk (m : Chip) (pg : Nat) (f : Fld) (v i : Nat) : (m.put pg f v i).clk = m.clk := rfl
@[simp] theorem Chip.put_dep (m : Chip) (pg : Nat) (f : Fld) (v i : Nat) : (m.put pg f v i).dep = m.dep := rfl
@[simp] theorem Chip.put_bbx (m : Chip) (pg : Nat) (f : Fld) (v i : Nat) : (m.put pg f v i).bbx = m.bbx := rfl
@[simp] theorem Chip.put_ports (m : Chip) (pg : Nat) (f : Fld) (v i : Nat) : (m.put pg f v i).ports = m.ports := rfl
@[simp] theorem Chip.put_ctxs (m : Chip) (pg : Nat) (f : Fld) (v i : Nat) : (m.put pg f v i).ctxs = m.ctxs := rfl
@[simp] theorem Chip.put_shrSlots (m : Chip) (pg : Nat) (f : Fld) (v i : Nat) : (m.put pg f v i).shrSlots = m.shrSlots := rfl
@[simp] theorem Chip.put_mea (m : Chip) (pg : Nat) (f : Fld) (v i : Nat) : (m.put pg f v i).mea = m.mea := rfl
@[simp] theorem Chip.put_cal (m : Chip) (pg : Nat) (f : Fld) (v i : Nat) : (m.put pg f v i).cal = m.cal := rfl
@[simp] theorem Chip.put_met (m : Chip) (pg : Nat) (f : Fld) (v i : Nat) : (m.put pg f v i).met = m.met := rfl
@[simp] theorem Chip.put_mar (m : Chip) (pg : Nat) (f : Fld) (v i : Nat) : (m.put pg f v i).mar = m.mar := rfl
@[simp] theorem Chip.put_phm (m : Chip) (pg : Nat) (f : Fld) (v i : Nat) : (m.put pg f v i).phm = m.phm := rfl
@[simp] theorem Chip.put_mirror (m : Chip) (pg : Nat) (f : Fld) (v i : Nat) : (m.put pg f v i).mirror = m.mirror := rfl
@[simp] theorem Chip.put_shr (m : Chip) (pg : Nat) (f : Fld) (v i : Nat) : (m.put pg f v i).shr = m.shr := rfl
@[simp] theorem Chip.put_hld (m : Chip) (pg : Nat) (f : Fld) (v i : Nat) : (m.put pg f v i).hld = m.hld := rfl
@[simp] theorem Chip.put_cap (m : Chip) (pg : Nat) (f : Fld) (v i : Nat) : (m.put pg f v i).cap = m.cap := rfl
@[simp] theorem Chip.put_dom (m : Chip) (pg : Nat) (f : Fld) (v i : Nat) : (m.put pg f v i).dom = m.dom := rfl
@[simp] theorem Chip.put_prt (m : Chip) (pg : Nat) (f : Fld) (v i : Nat) : (m.put pg f v i).prt = m.prt := rfl
@[simp] theorem Chip.put_mem (m : Chip) (pg : Nat) (f : Fld) (v i : Nat) : (m.put pg f v i).mem = m.mem := rfl
@[simp] theorem Chip.put_upset (m : Chip) (pg : Nat) (f : Fld) (v i : Nat) : (m.put pg f v i).upset = m.upset := rfl
@[simp] theorem Chip.put_ecc (m : Chip) (pg : Nat) (f : Fld) (v i : Nat) : (m.put pg f v i).ecc = m.ecc := rfl
@[simp] theorem Chip.put_nv (m : Chip) (pg : Nat) (f : Fld) (v i : Nat) : (m.put pg f v i).nv = m.nv := rfl
@[simp] theorem Chip.put_bat (m : Chip) (pg : Nat) (f : Fld) (v i : Nat) : (m.put pg f v i).bat = m.bat := rfl
@[simp] theorem Chip.put_rail (m : Chip) (pg : Nat) (f : Fld) (v i : Nat) : (m.put pg f v i).rail = m.rail := rfl
@[simp] theorem Chip.put_seq (m : Chip) (pg : Nat) (f : Fld) (v i : Nat) : (m.put pg f v i).seq = m.seq := rfl
@[simp] theorem Chip.put_thm (m : Chip) (pg : Nat) (f : Fld) (v i : Nat) : (m.put pg f v i).thm = m.thm := rfl
@[simp] theorem Chip.put_pair (m : Chip) (pg : Nat) (f : Fld) (v i : Nat) : (m.put pg f v i).pair = m.pair := rfl
@[simp] theorem Chip.put_eng (m : Chip) (pg : Nat) (f : Fld) (v i : Nat) : (m.put pg f v i).eng = m.eng := rfl
@[simp] theorem Chip.put_boot (m : Chip) (pg : Nat) (f : Fld) (v i : Nat) : (m.put pg f v i).boot = m.boot := rfl
@[simp] theorem Chip.put_ovl (m : Chip) (pg : Nat) (f : Fld) (v i : Nat) : (m.put pg f v i).ovl = m.ovl := rfl
@[simp] theorem Chip.put_freeN (m : Chip) (pg : Nat) (f : Fld) (v i : Nat) : (m.put pg f v i).freeN = m.freeN := rfl

@[simp] theorem Chip.setShadow_die (m : Chip) (r a : Nat) (v : Word) : (m.setShadow r a v).die = m.die := rfl
@[simp] theorem Chip.setShadow_held (m : Chip) (r a : Nat) (v : Word) : (m.setShadow r a v).held = m.held := rfl
@[simp] theorem Chip.setShadow_causes (m : Chip) (r a : Nat) (v : Word) : (m.setShadow r a v).causes = m.causes := rfl
@[simp] theorem Chip.setShadow_regs (m : Chip) (r a : Nat) (v : Word) : (m.setShadow r a v).regs = m.regs := rfl
@[simp] theorem Chip.setShadow_ops (m : Chip) (r a : Nat) (v : Word) : (m.setShadow r a v).ops = m.ops := rfl
@[simp] theorem Chip.setShadow_host (m : Chip) (r a : Nat) (v : Word) : (m.setShadow r a v).host = m.host := rfl
@[simp] theorem Chip.setShadow_tim (m : Chip) (r a : Nat) (v : Word) : (m.setShadow r a v).tim = m.tim := rfl
@[simp] theorem Chip.setShadow_rcd (m : Chip) (r a : Nat) (v : Word) : (m.setShadow r a v).rcd = m.rcd := rfl
@[simp] theorem Chip.setShadow_clk (m : Chip) (r a : Nat) (v : Word) : (m.setShadow r a v).clk = m.clk := rfl
@[simp] theorem Chip.setShadow_dep (m : Chip) (r a : Nat) (v : Word) : (m.setShadow r a v).dep = m.dep := rfl
@[simp] theorem Chip.setShadow_bbx (m : Chip) (r a : Nat) (v : Word) : (m.setShadow r a v).bbx = m.bbx := rfl
@[simp] theorem Chip.setShadow_ports (m : Chip) (r a : Nat) (v : Word) : (m.setShadow r a v).ports = m.ports := rfl
@[simp] theorem Chip.setShadow_ctxs (m : Chip) (r a : Nat) (v : Word) : (m.setShadow r a v).ctxs = m.ctxs := rfl
@[simp] theorem Chip.setShadow_shrSlots (m : Chip) (r a : Nat) (v : Word) : (m.setShadow r a v).shrSlots = m.shrSlots := rfl
@[simp] theorem Chip.setShadow_mea (m : Chip) (r a : Nat) (v : Word) : (m.setShadow r a v).mea = m.mea := rfl
@[simp] theorem Chip.setShadow_cal (m : Chip) (r a : Nat) (v : Word) : (m.setShadow r a v).cal = m.cal := rfl
@[simp] theorem Chip.setShadow_met (m : Chip) (r a : Nat) (v : Word) : (m.setShadow r a v).met = m.met := rfl
@[simp] theorem Chip.setShadow_mar (m : Chip) (r a : Nat) (v : Word) : (m.setShadow r a v).mar = m.mar := rfl
@[simp] theorem Chip.setShadow_phm (m : Chip) (r a : Nat) (v : Word) : (m.setShadow r a v).phm = m.phm := rfl
@[simp] theorem Chip.setShadow_mirror (m : Chip) (r a : Nat) (v : Word) : (m.setShadow r a v).mirror = m.mirror := rfl
@[simp] theorem Chip.setShadow_shr (m : Chip) (r a : Nat) (v : Word) : (m.setShadow r a v).shr = m.shr := rfl
@[simp] theorem Chip.setShadow_hld (m : Chip) (r a : Nat) (v : Word) : (m.setShadow r a v).hld = m.hld := rfl
@[simp] theorem Chip.setShadow_cap (m : Chip) (r a : Nat) (v : Word) : (m.setShadow r a v).cap = m.cap := rfl
@[simp] theorem Chip.setShadow_dom (m : Chip) (r a : Nat) (v : Word) : (m.setShadow r a v).dom = m.dom := rfl
@[simp] theorem Chip.setShadow_prt (m : Chip) (r a : Nat) (v : Word) : (m.setShadow r a v).prt = m.prt := rfl
@[simp] theorem Chip.setShadow_mem (m : Chip) (r a : Nat) (v : Word) : (m.setShadow r a v).mem = m.mem := rfl
@[simp] theorem Chip.setShadow_upset (m : Chip) (r a : Nat) (v : Word) : (m.setShadow r a v).upset = m.upset := rfl
@[simp] theorem Chip.setShadow_ecc (m : Chip) (r a : Nat) (v : Word) : (m.setShadow r a v).ecc = m.ecc := rfl
@[simp] theorem Chip.setShadow_nv (m : Chip) (r a : Nat) (v : Word) : (m.setShadow r a v).nv = m.nv := rfl
@[simp] theorem Chip.setShadow_bat (m : Chip) (r a : Nat) (v : Word) : (m.setShadow r a v).bat = m.bat := rfl
@[simp] theorem Chip.setShadow_rail (m : Chip) (r a : Nat) (v : Word) : (m.setShadow r a v).rail = m.rail := rfl
@[simp] theorem Chip.setShadow_seq (m : Chip) (r a : Nat) (v : Word) : (m.setShadow r a v).seq = m.seq := rfl
@[simp] theorem Chip.setShadow_thm (m : Chip) (r a : Nat) (v : Word) : (m.setShadow r a v).thm = m.thm := rfl
@[simp] theorem Chip.setShadow_pair (m : Chip) (r a : Nat) (v : Word) : (m.setShadow r a v).pair = m.pair := rfl
@[simp] theorem Chip.setShadow_eng (m : Chip) (r a : Nat) (v : Word) : (m.setShadow r a v).eng = m.eng := rfl
@[simp] theorem Chip.setShadow_boot (m : Chip) (r a : Nat) (v : Word) : (m.setShadow r a v).boot = m.boot := rfl
@[simp] theorem Chip.setShadow_ovl (m : Chip) (r a : Nat) (v : Word) : (m.setShadow r a v).ovl = m.ovl := rfl
@[simp] theorem Chip.setShadow_freeN (m : Chip) (r a : Nat) (v : Word) : (m.setShadow r a v).freeN = m.freeN := rfl

@[simp] theorem Chip.freeWord_die (m : Chip) : m.freeWord.2.die = m.die := rfl
@[simp] theorem Chip.freeWord_held (m : Chip) : m.freeWord.2.held = m.held := rfl
@[simp] theorem Chip.freeWord_causes (m : Chip) : m.freeWord.2.causes = m.causes := rfl
@[simp] theorem Chip.freeWord_regs (m : Chip) : m.freeWord.2.regs = m.regs := rfl
@[simp] theorem Chip.freeWord_shadow (m : Chip) : m.freeWord.2.shadow = m.shadow := rfl
@[simp] theorem Chip.freeWord_ops (m : Chip) : m.freeWord.2.ops = m.ops := rfl
@[simp] theorem Chip.freeWord_host (m : Chip) : m.freeWord.2.host = m.host := rfl
@[simp] theorem Chip.freeWord_tim (m : Chip) : m.freeWord.2.tim = m.tim := rfl
@[simp] theorem Chip.freeWord_rcd (m : Chip) : m.freeWord.2.rcd = m.rcd := rfl
@[simp] theorem Chip.freeWord_clk (m : Chip) : m.freeWord.2.clk = m.clk := rfl
@[simp] theorem Chip.freeWord_dep (m : Chip) : m.freeWord.2.dep = m.dep := rfl
@[simp] theorem Chip.freeWord_bbx (m : Chip) : m.freeWord.2.bbx = m.bbx := rfl
@[simp] theorem Chip.freeWord_ports (m : Chip) : m.freeWord.2.ports = m.ports := rfl
@[simp] theorem Chip.freeWord_ctxs (m : Chip) : m.freeWord.2.ctxs = m.ctxs := rfl
@[simp] theorem Chip.freeWord_shrSlots (m : Chip) : m.freeWord.2.shrSlots = m.shrSlots := rfl
@[simp] theorem Chip.freeWord_mea (m : Chip) : m.freeWord.2.mea = m.mea := rfl
@[simp] theorem Chip.freeWord_cal (m : Chip) : m.freeWord.2.cal = m.cal := rfl
@[simp] theorem Chip.freeWord_met (m : Chip) : m.freeWord.2.met = m.met := rfl
@[simp] theorem Chip.freeWord_mar (m : Chip) : m.freeWord.2.mar = m.mar := rfl
@[simp] theorem Chip.freeWord_phm (m : Chip) : m.freeWord.2.phm = m.phm := rfl
@[simp] theorem Chip.freeWord_mirror (m : Chip) : m.freeWord.2.mirror = m.mirror := rfl
@[simp] theorem Chip.freeWord_shr (m : Chip) : m.freeWord.2.shr = m.shr := rfl
@[simp] theorem Chip.freeWord_hld (m : Chip) : m.freeWord.2.hld = m.hld := rfl
@[simp] theorem Chip.freeWord_cap (m : Chip) : m.freeWord.2.cap = m.cap := rfl
@[simp] theorem Chip.freeWord_dom (m : Chip) : m.freeWord.2.dom = m.dom := rfl
@[simp] theorem Chip.freeWord_prt (m : Chip) : m.freeWord.2.prt = m.prt := rfl
@[simp] theorem Chip.freeWord_mem (m : Chip) : m.freeWord.2.mem = m.mem := rfl
@[simp] theorem Chip.freeWord_upset (m : Chip) : m.freeWord.2.upset = m.upset := rfl
@[simp] theorem Chip.freeWord_ecc (m : Chip) : m.freeWord.2.ecc = m.ecc := rfl
@[simp] theorem Chip.freeWord_nv (m : Chip) : m.freeWord.2.nv = m.nv := rfl
@[simp] theorem Chip.freeWord_bat (m : Chip) : m.freeWord.2.bat = m.bat := rfl
@[simp] theorem Chip.freeWord_rail (m : Chip) : m.freeWord.2.rail = m.rail := rfl
@[simp] theorem Chip.freeWord_seq (m : Chip) : m.freeWord.2.seq = m.seq := rfl
@[simp] theorem Chip.freeWord_thm (m : Chip) : m.freeWord.2.thm = m.thm := rfl
@[simp] theorem Chip.freeWord_pair (m : Chip) : m.freeWord.2.pair = m.pair := rfl
@[simp] theorem Chip.freeWord_eng (m : Chip) : m.freeWord.2.eng = m.eng := rfl
@[simp] theorem Chip.freeWord_boot (m : Chip) : m.freeWord.2.boot = m.boot := rfl
@[simp] theorem Chip.freeWord_ovl (m : Chip) : m.freeWord.2.ovl = m.ovl := rfl

@[simp] theorem Chip.freeWord_freeN (m : Chip) : m.freeWord.2.freeN = m.freeN + 1 := rfl

/-! ### Registers and fields -/

/-- A register reads as what was written to it last. -/
@[simp] theorem Chip.rd_wr_same (m : Chip) (k : Nat) (v : Word) : (m.wr k v).rd k = v :=
  Sparse.get_set_same regDefault m.regs k v

/-- A register write leaves every other register alone. -/
theorem Chip.rd_wr_ne (m : Chip) {k j : Nat} (v : Word) (h : j ≠ k) : (m.wr k v).rd j = m.rd j :=
  Sparse.get_set_ne regDefault m.regs v h

/-- Shadows hold no register. -/
@[simp] theorem Chip.rd_setShadow (m : Chip) (r a : Nat) (v : Word) (k : Nat) : (m.setShadow r a v).rd k = m.rd k := rfl

/-- A free value changes no register. -/
@[simp] theorem Chip.rd_freeWord (m : Chip) (k : Nat) : m.freeWord.2.rd k = m.rd k := rfl

/-- A field reads as what was stored in it last. -/
theorem Chip.get_put_same (m : Chip) (pg : Nat) (f : Fld) (v i : Nat) (h : f.lo + f.wd ≤ 32) :
    (m.put pg f v i).get pg f i = v % 2 ^ f.wd := by
  unfold Chip.get Chip.put
  rw [Chip.rd_wr_same, BitVec.toNat_ofNat, Nat.mod_eq_of_lt (setBits_lt _ _ _ _ (m.rd (f.addr pg i)).isLt h)]
  exact bitsOf_setBits_same _ _ _ _

/-- A field of another register reads as before. -/
theorem Chip.get_put_addr (m : Chip) (pg : Nat) (f : Fld) (v i : Nat) (pg' : Nat) (g : Fld) (j : Nat)
    (h : g.addr pg' j ≠ f.addr pg i) : (m.put pg f v i).get pg' g j = m.get pg' g j := by
  unfold Chip.get Chip.put
  rw [Chip.rd_wr_ne _ _ h]

/-- A field beside the one stored, in the same register, reads as before. -/
theorem Chip.get_put_beside (m : Chip) (pg : Nat) (f : Fld) (v i : Nat) (pg' : Nat) (g : Fld) (j : Nat)
    (ha : g.addr pg' j = f.addr pg i) (hf : f.lo + f.wd ≤ 32) (h : g.lo + g.wd ≤ f.lo ∨ f.lo + f.wd ≤ g.lo) :
    (m.put pg f v i).get pg' g j = m.get pg' g j := by
  unfold Chip.get Chip.put
  rw [ha, Chip.rd_wr_same, BitVec.toNat_ofNat, Nat.mod_eq_of_lt (setBits_lt _ _ _ _ (m.rd (f.addr pg i)).isLt hf)]
  exact bitsOf_setBits_ne _ _ _ _ _ _ h

/-- A register of another address reads as before. -/
theorem Chip.rd_put_ne (m : Chip) (pg : Nat) (f : Fld) (v i k : Nat) (h : k ≠ f.addr pg i) :
    (m.put pg f v i).rd k = m.rd k := Chip.rd_wr_ne m _ h

/-! ### Commands -/

@[simp] theorem State.act_pending (s : State) (f : Chip → Chip) : (s.act f).pending = s.pending := rfl

/-- A command's effect on a chip that is not held in reset. -/
theorem State.run_of_not_held (s : State) (f : Chip → Chip) (h : s.chip.held = false) : s.run f = .next (s.act f) := by
  simp [State.run, h]

/-- A command on a chip held in reset changes nothing (R504). -/
theorem State.run_of_held (s : State) (f : Chip → Chip) (h : s.chip.held = true) : s.run f = .next s := by
  simp [State.run, h]

end Sys2Proof.Machine
end

