-- ==== Sys2Proof/Laws/Clock.lean ====
section
/-! SUPPORT. The laws of the end of a clock: a clock in which nothing happened leaves the machine as it is, and telling of
a happening (edges of event lines, records, Depot entries, triggers of the black box) touches no more than the pages and
fields it tells through. -/

namespace Sys2Proof.Machine

/-- A clock in which nothing happened settles to the machine itself. -/
theorem Chip.settle_of_clear (m : Chip) (h : m.clk = {}) : m.settle = m := by
  cases m
  cases h
  rfl

/-- A command that leaves nothing to settle answers what its effect makes. -/
theorem State.act_of_clear (s : State) (f : Chip → Chip) (h : (f s.chip).clk = {}) (hd : (f s.chip).die = s.chip.die) :
    s.act f = { s with chip := f s.chip } := by
  have e : ({ f s.chip with die := s.chip.die } : Chip) = f s.chip := by rw [← hd]
  exact congrArg (fun c => ({ s with chip := c } : State))
    ((congrArg Chip.settle e).trans (Chip.settle_of_clear _ h))

/-- The pages that tell of a happening: recorder, black box, engines, Depot, event fabric. -/
def toldPage (p : Nat) : Bool :=
  p == 0x24 || p == 0x25 || (decide (0x28 ≤ p) && decide (p < 0x30)) || p == 0x30 || p == 0x31

/-- A machine without what telling of a happening touches outside the registers. -/
def Chip.untold (m : Chip) : Chip :=
  { m with regs := [], rcd := {}, clk := {}, dep := {}, bbx := {}, upset := [], seq := { m.seq with evSeen := false } }

/-- The second machine differs from the first in no more than what telling of a happening touches. -/
structure Chip.Told (m n : Chip) : Prop where
  rest : n.untold = m.untold
  rd : ∀ k, toldPage (k / 0x400) = false → n.rd k = m.rd k

/-- What does not look at anything that telling touches stays. -/
theorem Chip.Told.keeps {α : Type} {m n : Chip} (h : m.Told n) (f : Chip → α)
    (hf : ∀ c : Chip, f c.untold = f c := by intro; rfl) : f n = f m := by
  rw [← hf n, h.rest, hf m]

theorem Chip.Told.refl (m : Chip) : m.Told m := ⟨rfl, fun _ _ => rfl⟩

theorem Chip.Told.trans {a b c : Chip} (x : a.Told b) (y : b.Told c) : a.Told c :=
  ⟨y.rest.trans x.rest, fun k h => (y.rd k h).trans (x.rd k h)⟩

/-- What only told of happenings, taken step by step over a list, only told of happenings. -/
theorem Chip.Told.foldl {α : Type} (f : Chip → α → Chip) (l : List α) (h : ∀ x ∈ l, ∀ n : Chip, n.Told (f n x))
    (m : Chip) : m.Told (l.foldl f m) := by
  induction l generalizing m with
  | nil => exact .refl m
  | cons a t ih =>
    exact (h a (by simp) m).trans (ih (fun x hx => h x (by simp [hx])) (f m a))

/-- Storing a field of a page that tells. -/
theorem Chip.put_told (m : Chip) (pg : Nat) (f : Fld) (v i : Nat) (hp : toldPage pg = true)
    (hi : f.off + f.stride * i < 0x400) : m.Told (m.put pg f v i) := by
  refine ⟨rfl, fun k hk => Chip.rd_put_ne m pg f v i k (fun e => ?_)⟩
  have : k / 0x400 = pg := by subst e; simp only [Fld.addr]; omega
  rw [this, hp] at hk
  cases hk

/-- An interrupt bit of a page that tells. -/
theorem Chip.irq_told (m : Chip) (pg b : Nat) (hp : toldPage pg = true) : m.Told (m.irq pg b) :=
  Chip.put_told m pg _ _ _ hp (by decide)

/-- A line that rises. -/
theorem Chip.raise_told (m : Chip) (n : Nat) : m.Told (m.raise n) := by
  unfold Chip.raise
  split
  · exact .refl m
  · rename_i hn
    have h32 : n / 32 < 8 := by
      simp only [lineReserved, Bool.or_eq_true, not_or, decide_eq_true_eq] at hn
      omega
    have h1 : ∀ e : Edge, m.Told { m with clk := { m.clk with edges := m.clk.edges ++ [e], seen := m.clk.seen ++ [n] } } :=
      fun _ => ⟨rfl, fun _ _ => rfl⟩
    have hl : ∀ a : Chip, a.Told (a.maskSet 0x31 EVT_LATCH_SEEN (n % 32) (n / 32)) := fun a =>
      Chip.put_told a 0x31 EVT_LATCH_SEEN _ (n / 32) rfl (by simp [EVT_LATCH_SEEN]; omega)
    have h2 : ∀ a : Chip, a.Told (if a.seq.evLine = some n then { a with seq := { a.seq with evSeen := true } } else a) := by
      intro a; split
      · exact ⟨rfl, fun _ _ => rfl⟩
      · exact .refl a
    have h3 : ∀ a : Chip, a.Told ((List.range 8).foldl (fun m x =>
        if m.routed EVT_RE_ROUTE n (8 * x) then m.maskSet (0x28 + x) ENG_EVPEND_PEND (n % 32) (n / 32) else m) a) := by
      intro a
      refine Chip.Told.foldl _ _ (fun x hx b => ?_) a
      split
      · exact Chip.put_told _ _ _ _ _ (by simp at hx; simp [toldPage]; omega) (by simp [ENG_EVPEND_PEND]; omega)
      · exact .refl b
    have h4 : ∀ a : Chip, a.Told (if a.routed EVT_RIRQ_ROUTE n 0 then a.irq 0x31 4 else a) := by
      intro a; split
      · exact Chip.irq_told _ _ _ rfl
      · exact .refl a
    exact ((((h1 ⟨n, m.stamp, m.tim.tick⟩).trans (hl _)).trans (h2 _)).trans (h3 _)).trans (h4 _)

/-- A record that is made. -/
theorem Chip.record_told (m : Chip) (code sev src : Nat) (st : Stamp) (ps : List Nat) :
    m.Told (m.record code sev src st ps) :=
  ⟨rfl, fun _ _ => rfl⟩

/-- An entry that is lost. -/
theorem Chip.depLose_told (m : Chip) (n : Nat) (h : n < 24) : m.Told (m.depLose n) := by
  unfold Chip.depLose
  have h1 : ∀ a : Chip, a.Told (if n % 2 = 0 then a.count 0x30 DEP_LOSTP_LO (n / 2) else a.count 0x30 DEP_LOSTP_HI (n / 2)) := by
    intro a; split
    · exact Chip.put_told _ _ _ _ _ rfl (by simp [DEP_LOSTP_LO]; omega)
    · exact Chip.put_told _ _ _ _ _ rfl (by simp [DEP_LOSTP_HI]; omega)
  have h2 : ∀ a : Chip, a.Told (((a.maskSet 0x30 DEP_LOSTM_LOST n).irq 0x30 5).raise 121) := fun a =>
    ((Chip.put_told _ _ _ _ _ rfl (by decide)).trans (Chip.irq_told _ _ _ rfl)).trans (Chip.raise_told _ _)
  have h3 : ∀ (a : Chip) (b : Bool) (c : Nat), a.Told (if b then a else a.emit 0xA030 [n, c]) := by
    intro a b c; split
    · exact .refl a
    · exact Chip.record_told _ _ _ _ _ _
  exact ((h1 m).trans (h2 _)).trans (h3 _ _ _)

/-- Upset symbols that are set. -/
theorem Chip.setUpsets_told (m : Chip) (arr w e : Nat) : m.Told (m.setUpsets arr w e) :=
  ⟨rfl, fun _ _ => rfl⟩

/-- An entry that is put. -/
theorem Chip.depAppend_told (m : Chip) (e : DepEntry) (h : e.src < 24) : m.Told (m.depAppend e) := by
  unfold Chip.depAppend
  split
  · exact Chip.depLose_told m _ h
  · have h1 : ∀ (a : Chip) (d : DepotSt), a.Told { a with dep := d } :=
      fun _ _ => ⟨rfl, fun _ _ => rfl⟩
    have h2 : ∀ (a : Chip) (arr : Nat) (p : Nat → Bool), a.Told (a.unitWrite arr p) := by
      intro a arr p
      exact Chip.Told.foldl _ _ (fun x _ b => Chip.setUpsets_told b _ _ _) a
    have h3 : ∀ (a : Chip) (b : Bool), a.Told (if b then (a.irq 0x30 4).raise 120 else a) := by
      intro a b; split
      · exact (Chip.irq_told _ _ _ rfl).trans (Chip.raise_told _ _)
      · exact .refl a
    exact ((h1 m _).trans (h2 _ 0x14 _)).trans (h3 _ _)

/-- A trigger of the black box. -/
theorem Chip.bbxTrigger_told (m : Chip) (line : Nat) (st : Stamp) (tick : Nat) : m.Told (m.bbxTrigger line st tick) := by
  have h1 : ∀ (a : Chip) (b : BbxSt), a.Told { a with bbx := b } :=
    fun _ _ => ⟨rfl, fun _ _ => rfl⟩
  have h2 : ∀ c, m.Told (m.bbxRefuse c line tick) := by
    intro c
    unfold Chip.bbxRefuse
    split
    · exact .refl m
    · exact (((h1 m _).trans (Chip.put_told _ _ _ _ _ rfl (by decide))).trans (Chip.irq_told _ _ _ rfl)).trans
        (Chip.record_told _ _ _ _ _ _)
  unfold Chip.bbxTrigger
  simp only
  split
  · exact h2 1
  · split
    · exact h2 3
    · split
      · split
        · exact h1 m _
        · exact .refl m
      · split
        · exact h1 m _
        · split
          · exact h2 2
          · exact (Chip.put_told m _ _ _ _ rfl (by decide)).trans (h1 _ _)

/-- An edge that reaches its targets. -/
theorem Chip.deliver_told (m : Chip) (e : Edge) : m.Told (m.deliver e) := by
  have h0 : ∀ (a : Chip) (c : ClockSt), a.Told { a with clk := c } :=
    fun _ _ => ⟨rfl, fun _ _ => rfl⟩
  unfold Chip.deliver
  simp only
  have h1 : ∀ a : Chip, a.Told (if a.routed EVT_RDEP_ROUTE e.line 0 && a.depWants 8 e.line then
      a.depAppend { tag := e.line, src := 8, stamp := e.stamp, value := e.tick } else a) := by
    intro a; split
    · exact Chip.depAppend_told _ _ (show (8 : Nat) < 24 by decide)
    · exact .refl a
  have h2 : ∀ a : Chip, a.Told (if a.routed EVT_RREC_ROUTE e.line 0 then
      a.record 0xA031 (codeSev 0xA031) (codeSrc 0xA031) e.stamp [e.line] else a) := by
    intro a; split
    · exact Chip.record_told _ _ _ _ _ _
    · exact .refl a
  have h3 : ∀ a : Chip, a.Told (if isFull a.die.part && a.routed EVT_RBBX_ROUTE e.line 0 && !a.clk.trig then
      { a.bbxTrigger e.line e.stamp e.tick with clk := { (a.bbxTrigger e.line e.stamp e.tick).clk with trig := true } }
      else a) := by
    intro a; split
    · exact (Chip.bbxTrigger_told _ _ _ _).trans (h0 _ _)
    · exact .refl a
  exact ((h1 m).trans (h2 _)).trans (h3 _)

/-- A record that passes its stages. -/
theorem Chip.recPass_told (m : Chip) (e : Rec) : m.Told (m.recPass e) := by
  have h0 : ∀ (a : Chip) (c : RecSt), a.Told { a with rcd := c } :=
    fun _ _ => ⟨rfl, fun _ _ => rfl⟩
  have hr : m.Told (m.rateLimit e.code).2.2 := by
    unfold Chip.rateLimit
    split
    · exact .refl m
    · split <;> exact h0 m _
  have hq : ∀ (a : Chip) (x : Rec), a.Told (a.enqueueRec x) := by
    intro a x
    unfold Chip.enqueueRec
    split
    · exact (Chip.put_told _ _ _ _ _ rfl (by decide)).trans (h0 _ _)
    · split
      · exact ((Chip.put_told _ _ _ _ _ rfl (by decide)).trans (Chip.irq_told _ _ _ rfl)).trans (h0 _ _)
      · exact h0 _ _
  unfold Chip.recPass
  split <;> rename_i heq <;> rw [heq] at hr
  · exact hr.trans (hq _ _)
  · exact hr.trans (Chip.put_told _ _ _ _ _ rfl (by decide))

/-- The end of a clock touches no more than telling of its happenings touches. -/
theorem Chip.settle_told (m : Chip) : m.Told m.settle := by
  have h0 : ∀ (a : Chip) (c : ClockSt), a.Told { a with clk := c } :=
    fun _ _ => ⟨rfl, fun _ _ => rfl⟩
  have h1 : ∀ (k : Nat) (a : Chip), a.Told (Chip.settleEdges k a) := by
    intro k
    induction k with
    | zero => exact fun a => .refl a
    | succ k ih =>
      intro a
      unfold Chip.settleEdges
      split
      · exact .refl a
      · exact ((h0 a _).trans (Chip.Told.foldl _ _ (fun x _ b => Chip.deliver_told b x) _)).trans (ih _)
  exact ((h1 4 m).trans (h0 _ _)).trans (Chip.Told.foldl _ _ (fun x _ b => Chip.recPass_told b x) _)

/-- The rate limit leaves what the clock holds. -/
@[simp] theorem Chip.rateLimit_clk (m : Chip) (code : Nat) : (m.rateLimit code).2.2.clk = m.clk := by
  unfold Chip.rateLimit
  split
  · rfl
  · split <;> rfl

/-- The queue of records leaves what the clock holds. -/
@[simp] theorem Chip.enqueueRec_clk (m : Chip) (e : Rec) : (m.enqueueRec e).clk = m.clk := by
  simp only [Chip.enqueueRec, Chip.irq, Chip.maskSet, Chip.count, apply_ite Chip.clk, Chip.put_clk, ite_self]

/-- A record that passes leaves what the clock holds. -/
@[simp] theorem Chip.recPass_clk (m : Chip) (e : Rec) : (m.recPass e).clk = m.clk := by
  have h := m.rateLimit_clk e.code
  unfold Chip.recPass
  split <;> rename_i heq <;> rw [heq] at h <;> simpa [Chip.count] using h

/-- After its end, nothing of a clock is left to settle. -/
@[simp] theorem Chip.settle_clk (m : Chip) : m.settle.clk = {} := by
  have h : ∀ (l : List Rec) (a : Chip), (l.foldl Chip.recPass a).clk = a.clk := by
    intro l
    induction l with
    | nil => exact fun _ => rfl
    | cons e t ih => exact fun a => (ih _).trans (a.recPass_clk e)
  exact h _ _

/-- What the die fixes stays, whatever the command. -/
@[simp] theorem State.act_die (s : State) (f : Chip → Chip) : (s.act f).chip.die = s.chip.die :=
  (Chip.settle_told _).keeps Chip.die

/-- What a command's effect leaves of a field of a page that does not tell. -/
theorem State.act_get (s : State) (f : Chip → Chip) (pg : Nat) (g : Fld) (i : Nat) (hp : toldPage pg = false)
    (hi : g.off + g.stride * i < 0x400) : (s.act f).chip.get pg g i = (f s.chip).get pg g i := by
  unfold Chip.get
  have hk : g.addr pg i / 0x400 = pg := by simp only [Fld.addr]; omega
  have := (Chip.settle_told { f s.chip with die := s.chip.die }).rd (g.addr pg i) (by rw [hk]; exact hp)
  rw [show (s.act f).chip = Chip.settle { f s.chip with die := s.chip.die } from rfl, this]
  rfl

end Sys2Proof.Machine
end

