-- ==== Sys2Proof/Laws/Engine.lean ====
section
/-! SUPPORT. The laws of the engines' registers and of the issue of an instruction. -/

namespace Sys2Proof.Machine

/-- A general register reads as what was written to it last. -/
theorem Chip.g_setG_same (m : Chip) (x : Fin 8) (i v : Nat) : (m.setG x i v).g x i = v % 2 ^ 32 :=
  Chip.get_put_same m _ _ _ _ (by decide)

/-- Writing a general register leaves the others alone. -/
theorem Chip.g_setG_ne (m : Chip) (x : Fin 8) {i j : Nat} (v : Nat) (h : j ≠ i) : (m.setG x i v).g x j = m.g x j := by
  apply Chip.get_put_addr
  simp [Fld.addr, ENG_G_G]
  omega

/-- PC reads as what it was set to, modulo 4096 (R353). -/
theorem Chip.pc_setPc (m : Chip) (x : Fin 8) (n : Nat) : (m.setPc x n).pc x = n % 4096 :=
  Chip.get_put_same m _ _ _ _ (by decide)

/-- Setting PC leaves the general registers alone. -/
theorem Chip.g_setPc (m : Chip) (x : Fin 8) (n i : Nat) : (m.setPc x n).g x i = m.g x i := by
  apply Chip.get_put_addr
  simp [Fld.addr, ENG_G_G, ENG_PC_PC]
  omega

/-- Writing a general register leaves PC alone. -/
theorem Chip.pc_setG (m : Chip) (x : Fin 8) (i v : Nat) : (m.setG x i v).pc x = m.pc x := by
  apply Chip.get_put_addr
  simp [Fld.addr, ENG_G_G, ENG_PC_PC]
  omega

/-- p0 reads 1 in every state (R363). -/
@[simp] theorem Chip.pred_zero (m : Chip) (x : Fin 8) : m.pred x 0 = true := by
  simp [Chip.pred, bit, Chip.preds, Nat.testBit_zero]

/-- An engine that is not in RUN issues nothing (R374). -/
theorem Chip.issue_of_not_run (m : Chip) (x : Fin 8) (w : Nat) (body : Chip → Chip) (h : m.engState x ≠ 1) :
    m.issue x w body = m := by
  simp [Chip.issue, h]

/-- An engine in its idle cycles issues nothing (R346). -/
theorem Chip.issue_of_idle (m : Chip) (x : Fin 8) (w : Nat) (body : Chip → Chip) (h : m.tim.tick < (m.engSt x).idle) :
    m.issue x w body = m := by
  simp [Chip.issue, h]

/-- A row whose word is not the one at PC changes nothing (R359). -/
theorem Chip.issue_of_other (m : Chip) (x : Fin 8) (w : Nat) (body : Chip → Chip) (v : Nat) (n : Chip)
    (hr : m.read32 (engReq x) (progArr x) (4 * m.pc x) = (some v, n)) (hv : v ≠ w) : m.issue x w body = m := by
  simp [Chip.issue, hr, hv]

/-- An instruction whose fetch succeeds: the throttle's idle cycles are marked (R346), then its body where the guard
holds, else the next word (R359). -/
theorem Chip.issue_of_fetch (m : Chip) (x : Fin 8) (w : Nat) (body : Chip → Chip) (h : m.engState x = 1)
    (hi : (m.engSt x).idle ≤ m.tim.tick) (n : Chip)
    (hr : m.read32 (engReq x) (progArr x) (4 * m.pc x) = (some w, n)) :
    m.issue x w body = if (n.engIdle x).guardHolds x w then body (n.engIdle x) else (n.engIdle x).engNext x := by
  simp [Chip.issue, h, hr, Nat.not_lt.2 hi]

/-- An engine outside ENGMASK, or below throttle level 2, has no idle cycles (R346). -/
theorem Chip.engIdle_of_free (m : Chip) (x : Fin 8)
    (h : bit (m.get 0x22 THM_MASK_ENGMASK) x.val = false ∨ m.get 0x22 THM_STAT_LEVEL < 2) : m.engIdle x = m := by
  rcases h with h | h
  · simp [Chip.engIdle, h]
  · simp [Chip.engIdle, Nat.not_le.2 h]

end Sys2Proof.Machine
end

