-- ==== Sys2Proof/Laws/Memory.lean ====
section
/-! SUPPORT. The laws of the memories: reads after writes, and that every operation on the stored bytes keeps their
canonical form. -/

namespace Sys2Proof.Machine

/-- A byte reads as what was written to it last. -/
@[simp] theorem Memory.read_write_same (l : List Host.Cell) (a : Nat) (v : Byte) :
    Memory.read (Memory.write l a v) a = v := Sparse.get_set_same memDefault l a v

/-- A byte write leaves every other byte alone. -/
theorem Memory.read_write_ne (l : List Host.Cell) {a b : Nat} (v : Byte) (h : b ≠ a) :
    Memory.read (Memory.write l a v) b = Memory.read l b := Sparse.get_set_ne memDefault l v h

/-- A byte write keeps the canonical form. -/
theorem Memory.wf_write (l : List Host.Cell) (a : Nat) (v : Byte) (h : Memory.wf l = true) :
    Memory.wf (Memory.write l a v) = true := Sparse.wf_set memDefault l a v h

/-- A store of one byte keeps the canonical form. -/
theorem Chip.memPut_wf (m : Chip) (arr off v : Nat) (h : Memory.wf m.mem = true) :
    Memory.wf (m.memPut arr off v).mem = true := Memory.wf_write m.mem _ _ h

/-- A store of bytes keeps the canonical form. -/
theorem Chip.memPuts_wf (vs : List Nat) (m : Chip) (arr off : Nat) (h : Memory.wf m.mem = true) :
    Memory.wf (m.memPuts arr off vs).mem = true := by
  induction vs generalizing m off with
  | nil => exact h
  | cons v t ih => exact ih _ _ (Chip.memPut_wf m arr off v h)

/-- A write of a storage word keeps the canonical form. -/
theorem Chip.wordWrite_wf (m : Chip) (arr w : Nat) (data : List Nat) (h : Memory.wf m.mem = true) :
    Memory.wf (m.wordWrite arr w data).mem = true := Chip.memPuts_wf _ m arr _ h

/-- What a full reset keeps of the memories is in canonical form (R503). -/
theorem keptBytes_wf (l : List Host.Cell) (h : Memory.wf l = true) :
    Memory.wf (l.filter (fun e => keptByte e.1)) = true := Sparse.wf_filter memDefault l _ h

/-- The memory at reset release is in canonical form. -/
theorem reset_mem_wf : Memory.wf State.reset.chip.mem = true := rfl

/-- A store of one byte: that byte, and every other. -/
theorem Chip.memByte_memPut (m : Chip) (arr off v arr' off' : Nat) :
    (m.memPut arr off v).memByte arr' off' = if memAddr arr' off' = memAddr arr off then v % 256 else m.memByte arr' off' := by
  unfold Chip.memByte Chip.memPut
  split
  · rename_i h; simp [h]
  · rename_i h; simp [Memory.read_write_ne _ _ h]

end Sys2Proof.Machine
end

