-- ==== Sys2Proof/Laws/Ports.lean ====
section
/-! SUPPORT. The laws of what a happening of a cable port passes before it acts. -/

namespace Sys2Proof.Machine

/-- A port that the member does not carry has no happenings. -/
theorem Chip.onPort_absent (m : Chip) (n : Nat) (f : Chip → Chip) (h : nPorts m.die.part ≤ n) : m.onPort n f = m := by
  simp [Chip.onPort, Nat.not_lt.2 h]

/-- A happening of a port that the member carries. -/
theorem Chip.onPort_present (m : Chip) (n : Nat) (f : Chip → Chip) (h : n < nPorts m.die.part) : m.onPort n f = f m := by
  simp [Chip.onPort, h]

/-- A timer that has not run out changes nothing. -/
theorem Chip.onTimer_early (m : Chip) (n : Nat) (k : PortTimer) (f : Chip → Chip) (h : m.portDue n k = false) :
    m.onTimer n k f = m := by
  simp [Chip.onTimer, Chip.onPort, h]

/-- A timer that has run out on a port that the member carries. -/
theorem Chip.onTimer_due (m : Chip) (n : Nat) (k : PortTimer) (f : Chip → Chip) (hn : n < nPorts m.die.part)
    (h : m.portDue n k = true) : m.onTimer n k f = f m := by
  simp [Chip.onTimer, Chip.onPort, hn, h]

/-- A timer answers what its happening answers, or the machine as it was. -/
theorem Chip.onTimer_cases (m : Chip) (n : Nat) (k : PortTimer) (f : Chip → Chip) :
    m.onTimer n k f = f m ∨ m.onTimer n k f = m := by
  simp only [Chip.onTimer, Chip.onPort]; split <;> try split
  all_goals simp

end Sys2Proof.Machine
end

