-- ==== Sys2Proof/Laws/Step.lean ====
section
/-! SUPPORT. What a step can do: the command at the front of the queue, or the passing of a clock. -/

namespace Sys2Proof.Machine

/-- A step on an empty queue. -/
theorem step_empty (s : State) (h : s.pending = []) : step s = .next s.idle := by
  unfold step; rw [h]

/-- A step on a queue with a command in front. -/
theorem step_front (s : State) (c : Instr) (rest : List Instr) (h : s.pending = c :: rest) :
    step s = exec c { s with pending := rest } := by
  unfold step; rw [h]

/-- The rows give no bits, so no word changes the queue. -/
@[simp] theorem withFetchWord_eq (s : State) (nbits w : Nat) : s.withFetchWord nbits w = s := rfl

end Sys2Proof.Machine
end

