-- ==== Sys2Proof/Tests/Slice0.lean ====
section
/-! SUPPORT. Tests: ill-formed commands that the check refuses, the worked examples of the spec, and for each statement
with hypotheses a concrete state and operands that meet them. -/

open Sys2Proof.Machine

set_option Elab.async false

namespace Sys2Proof.Tests

/-! ### Well-formedness: one ill-formed command for each check -/

/-- Lists of the lengths a waypoint's integrals have. -/
def wpIn : WpInputs :=
  ⟨15625, List.replicate 24 0, List.replicate 16 0, List.replicate 8 0, List.replicate 8 0, List.replicate 8 0,
    List.replicate 24 0⟩

/-- What a tracking update sees of a good 50 Hz mains. -/
def mains : Sense :=
  { freqs := List.replicate 4 0x3200, narrow := 0x3200, phErr := 0, amp := 1000, ampPair := [1000, 1000, 1000]
    peak := [1000, 1000, 1000], rotation := true, mainsAngle := 0, mainsFreq := 0x3200 }

theorem test_wf_addresses :
    (Instr.registerWrite .spi 0x41 0).wf = false ∧ (Instr.rsRegisterRead .spi 0x41).wf = false ∧
    (Instr.rsRegisterRead .spi 0x10000).wf = false ∧ (Instr.nvmWindowWrite .spi 2 0).wf = false := by decide +kernel

theorem test_wf_frames :
    (Instr.spiPartialFrame 0).wf = false ∧ (Instr.i2cWrite []).wf = false ∧ (Instr.i2cRead [0xB0] true).wf = false ∧
    (Instr.uartReadLine [0x77]).wf = false ∧ (Instr.uartWriteLine [0x72]).wf = false ∧
    (Instr.pmbusTransactionEnd (.good (List.replicate 25 0)) 0).wf = false ∧
    (Instr.pmbusSnoopResponse 0 1 0x20 (List.replicate 25 0)).wf = false := by decide +kernel

theorem test_wf_waypoint :
    (Instr.trackingUpdate mains { wpIn with raw := [] }).wf = false ∧
    (Instr.trackingUpdate { mains with freqs := [] } wpIn).wf = false ∧
    (Instr.trackingUpdate { mains with ampPair := [] } wpIn).wf = false ∧
    (Instr.trackingUpdate { mains with peak := [] } wpIn).wf = false ∧
    (Instr.waypointBoundary { wpIn with raw := [] }).wf = false ∧
    (Instr.waypointBoundary { wpIn with cal := [] }).wf = false ∧
    (Instr.waypointBoundary { wpIn with prod := [] }).wf = false ∧
    (Instr.waypointBoundary { wpIn with portI := [] }).wf = false ∧
    (Instr.waypointBoundary { wpIn with portV := [] }).wf = false ∧
    (Instr.waypointBoundary { wpIn with portP := [] }).wf = false ∧
    (Instr.fastSample []).wf = false ∧ (Instr.railFaultClear .spi 1 []).wf = false ∧ (Instr.setpPeriod 2 1).wf = false ∧
    (Instr.pdMessageReceived 0 ⟨false, 0, 0, List.replicate 261 0⟩).wf = false := by decide +kernel

theorem test_wf_coprocessor_functions :
    (Instr.cp0Rd 0 0x10).wf = false ∧ (Instr.cp0Wr 0 0).wf = false ∧ (Instr.cp0Snap 0 0).wf = false ∧
    (Instr.cp0Accum 0 0).wf = false ∧ (Instr.cp1Rd 0 0x30).wf = false ∧ (Instr.cp1Wr 0 0).wf = false ∧
    (Instr.cp1Live 0 0).wf = false ∧ (Instr.cp1Snaprd 0 0).wf = false ∧ (Instr.cp2Rd 0 0x20).wf = false ∧
    (Instr.cp2Wr 0 0).wf = false ∧ (Instr.cp2Go 0 0).wf = false ∧ (Instr.cp2Pop 0 0).wf = false ∧
    (Instr.cp3Rd 0 0x40).wf = false ∧ (Instr.cp3Wr 0 0).wf = false ∧ (Instr.cp3Ldg 0 0).wf = false ∧
    (Instr.cp3Telem 0 0).wf = false ∧ (Instr.cp3Telemb 0 0).wf = false := by decide +kernel

theorem test_wf_accepts :
    (Instr.waypointBoundary wpIn).wf = true ∧ (Instr.trackingUpdate mains wpIn).wf = true ∧ (Instr.cp3Rd 0 0x50).wf = true ∧ (Instr.cp3Telemb 0 0x40).wf = true ∧
    (Instr.registerWrite .spi 0x40 0).wf = true ∧ queueWf [.waypointBoundary wpIn, .cycleBoundary] = true := by
  decide +kernel

/-! ### Worked examples of the spec -/

/-- Chapter 2, reading the part number over SPI: the CRCs of both frames, and the response of the second. -/
theorem test_spi_part_number :
    crc8 0xFF [0x00, 0x00, 0x10, 0x00, 0x00, 0x00, 0x00] = 0x76 ∧ crc8 0xFF [0xC0, 0, 0, 0, 0, 0, 0] = 0x8B ∧
    (match exec (.spiFrame 0x0000100000000076) State.reset with
     | .next t => match exec (.spiFrame 0xC00000000000008B) t with
       | .next u => u.chip.host.spiOut == 0x0000106412100058
       | _ => false
     | _ => false) = true := by decide +kernel

/-- Chapter 12, worked encodings: `(p2) addi g5, g5, -3` and `(!p1) br -6`, each field at its place. -/
theorem test_worked_encodings :
    instrWord 0x10 (BitVec.ofNat 26 (2 * 2 ^ 23 + 5 * 2 ^ 18 + 5 * 2 ^ 14 + 0x3FFD)) = 0x41157FFD ∧
    wOp 0x41157FFD = 0x10 ∧ wPred 0x41157FFD = 2 ∧ wRd 0x41157FFD = 5 ∧ wRa 0x41157FFD = 5 ∧ wImm14 0x41157FFD = 0x3FFD ∧
    instrWord 0x2C (BitVec.ofNat 26 (1 * 2 ^ 23 + 1 * 2 ^ 22 + 0x3FFFFA)) = 0xB0FFFFFA := by decide +kernel

/-- Chapter 12, the same instructions issued: g5 loses 3 where p2 is 1; the branch goes back six words where p1 is 0. -/
theorem test_worked_instructions :
    let m := ((State.reset.chip.put (engPg 0) ENG_STAT_STATE 1).put (engPg 0) ENG_PREG_P 0x2).setPc 0 100
    let m := ((m.write32 1 (progArr 0) 400 0x41157FFD).2.write32 1 (progArr 0) 404 0xB0FFFFFA).2
    (match exec (.addi 0 0x1157FFD) { State.reset with chip := m.setG 0 5 10 } with
     | .next t => t.chip.g 0 5 == 7 && t.chip.pc 0 == 101
     | _ => false) = true ∧
    (match exec (.br 0 0x0FFFFFA) { State.reset with chip := m.setPc 0 101 } with
     | .next t => t.chip.pc 0 == 95
     | _ => false) = true := by decide +kernel

/-- Chapter 15, a word fetched from the wrong index: an error 0x01 at position 12 has these syndromes and is one of the
address. -/
theorem test_wrong_index :
    (List.range 4).map (eccSyn (0x01 * 2 ^ (8 * 12))) = [0x01, 0xCD, 0x8F, 0x25] ∧
    eccDecode (0x01 * 2 ^ (8 * 12)) = .address := by decide +kernel

/-- Chapter 8, a short during the ramp of D3: the levels in converter steps at a scale of 0x0053_E2D6. -/
theorem test_level_steps :
    levelSteps 0x0053E2D6 0x0500 = 102 ∧ levelSteps 0x0053E2D6 0x02D0 = 58 ∧ levelSteps 0x0053E2D6 0x0240 = 46 := by
  decide +kernel

/-- Chapter 9, the reference port's tables: the source table is valid on a stage of 48 V and 5 A, and the sink table
asks for a Fast Role Swap current of 3 A, code 3. -/
theorem test_reference_tables :
    tableBad [0x2881912C, 0x0002D12C, 0x0004B12C, 0x000641F4, 0xC1A42164, 0, 0, 0x0008C1F4, 0x000B41F4, 0x000F01F4,
      0xD3C096F0] 2400 500 = none ∧ pdoFrs 0x3981912C = 3 := by decide +kernel

/-- Chapter 4, the audit on D3: a code of 5 600 000 at a scale of 500 µΩ is 28.0 A, which over a waypoint of 78.125 µs
is 2 187 500 nC, less what SCALE rounds off. -/
theorem test_charge_of_a_waypoint :
    ((State.reset.chip.put 5 CAL_SCALE_SCALE 0x0053E2D6 3).metLatch.metIntegral 3
      { wpIn with raw := [0, 0, 0, 5600000 * 15625] ++ List.replicate 20 0 }).1 / 2 ^ 24 = 2187499 := by decide +kernel

/-- Chapter 13, everything at one boundary: the sources that takes of the global head return. -/
def boundaryDepot : Chip :=
  let put := fun (m : Chip) (e : Nat × Nat) =>
    (m.depAppend { tag := 1, src := e.1, stamp := ⟨2045000, e.2, 1⟩, value := 0 })
  [(8, 0), (9, 0), (10, 0), (19, 0), (21, 0), (16, 2), (11, 5), (3, 20)].reverse.foldl put State.reset.chip

theorem test_order_of_takes :
    ((List.range 8).foldl (fun (a : Chip × List Nat) _ =>
      let x := a.1.depTake 4
      (x.2, a.2 ++ [x.1 / 2 ^ 19 % 32])) (boundaryDepot, [])).2 = [8, 9, 10, 19, 21, 16, 11, 3] := by decide +kernel

/-- R76: the stamp half a turn ahead is not after the present one. -/
theorem test_stamp_half_turn : stampBefore 5 (5 + 2 ^ 47) = false ∧ stampBefore 5 (4 + 2 ^ 47) = true := by decide +kernel

end Sys2Proof.Tests

/-! ### Premises of the statements -/

namespace Sys2Proof.Tests

/-- A chip, an instruction word, and what a statement's premises ask of the two. -/
structure IssueCase where
  chip : Chip → Chip
  word : Nat
  premise : Chip → Nat → Bool

/-- The chip from reset with the word at PC of engine 7, which is in RUN. -/
def IssueCase.state (e : IssueCase) : State :=
  let m := (e.chip State.reset.chip).put (engPg 7) ENG_STAT_STATE 1
  { State.reset with chip := (m.write32 1 (progArr 7) (4 * m.pc 7) e.word).2 }

/-- Engine 7 executes the word, and the premises hold. -/
def IssueCase.Met (e : IssueCase) : Prop :=
  Executes e.state 7 e.word e.state.chip ∧ e.premise e.state.chip e.word = true

/-- The same, as a test that can be evaluated. -/
def IssueCase.holds (e : IssueCase) : Bool :=
  let m := e.state.chip
  decide ((m.held = false ∧ m.clk = {}) ∧ m.engState 7 = 1 ∧ (m.engSt 7).idle ≤ m.tim.tick ∧
    m.read32 (engReq 7) (progArr 7) (4 * m.pc 7) = (some e.word, m) ∧ m = m.engIdle 7 ∧ m.guardHolds 7 e.word = true ∧
    e.premise m e.word = true)

theorem met_of_holds (l : List IssueCase) (h : l.all IssueCase.holds = true) : ∀ e ∈ l, e.Met := by
  intro e he
  obtain ⟨a, b, c, d, f, g, k⟩ := of_decide_eq_true (List.all_eq_true.mp h e he)
  exact ⟨⟨a, b, c, ⟨_, d, f⟩, g⟩, k⟩

/-- A tick late enough for every timer that began at 0. -/
def late (m : Chip) : Chip := { m with tim := { m.tim with tick := 2 ^ 50 } }

/-- The reset state with its chip changed. -/
def mk (f : Chip → Chip) : State := { State.reset with chip := f State.reset.chip }

/-- A pair whose first part is none. -/
theorem pair_none {α β : Type} (x : Option α × β) (h : x.1 = none) : ∃ n, x = (none, n) := by
  obtain ⟨a, b⟩ := x
  exact ⟨b, by simp_all⟩


namespace StepRunsFrontCommand

/-- A state or operand for the premises. -/
def s : State := { State.reset with pending := [.pinReset, .cycleBoundary] }

/-- States and operands that meet the premises of `StepRunsFrontCommand`, clause by clause. -/
theorem test_premises :
    (s.pending = .pinReset :: [.cycleBoundary]) := by decide +kernel

end StepRunsFrontCommand

namespace EmptyQueuePassesOneClock

/-- A state or operand for the premises. -/
def s : State := mk fun m => { m with tim := { m.tim with tick := 2 ^ 64 - 1 } }

/-- A state or operand for the premises. -/
def h : State := mk fun m => { m with held := true }

/-- States and operands that meet the premises of `EmptyQueuePassesOneClock`, clause by clause. -/
theorem test_premises :
    (s.pending = [] ∧ Running s) ∧
    (h.pending = [] ∧ h.chip.held = true) := by decide +kernel

end EmptyQueuePassesOneClock

namespace HeldChipKeepsEverythingButCauses

/-- A state or operand for the premises. -/
def s : State := mk fun m => { m with held := true, causes := 1 }

/-- A held chip that a reset pin meets. -/
theorem test_premises : s.chip.held = true ∧ exec .pinReset s = .next { s with chip := { s.chip with causes := 3 } } ∧
      ∀ straps, Instr.pinReset ≠ .resetRelease straps := ⟨rfl, rfl, fun _ h => Instr.noConfusion h⟩

end HeldChipKeepsEverythingButCauses

namespace DieIdentityInvariant

/-- A state or operand for the premises. -/
def s : State := mk fun m => { m with held := true }

/-- A release takes the strap balls. -/
theorem test_premises : (s.chip.clk = {} ∧ s.chip.die.part = .sv6412 ∧ s.chip.die.uid = 0 ∧ s.chip.die.fnom = List.replicate 24 8000000) ∧
      ∃ t, step { s with pending := [.resetRelease 7] } = .next t ∧ t.chip.die.straps ≠ s.chip.die.straps :=
    ⟨by decide +kernel, _, rfl, by decide +kernel⟩

end DieIdentityInvariant

namespace RegisterWrites

/-- A state or operand for the premises. -/
def s : State := State.reset

/-- A state or operand for the premises. -/
def s4 : State := mk fun m => { m with die := { m.die with part := .sv6404 } }

/-- States and operands that meet the premises of `RegisterWrites`, clause by clause. -/
theorem test_premises :
    (Running s ∧ (0x101 : BitVec 22).toNat % 4 ≠ 0) ∧
    (Running s4 ∧ s4.chip.regAbsent 0x2040 = true ∧ s.chip.regAbsent 0xDC40 = false) ∧
    (0x100000 ≤ (0x100000 : BitVec 22).toNat ∧ (0x17FFFC : BitVec 22).toNat < 0x180000 ∧ (0x17FFFC : BitVec 22).toNat % 4 = 0) ∧
    (s.chip.upsets 0x10 ((0x20FFFC - 0x200000) / 8) = 0 ∧ s.chip.upsets 0x10 0 = 0) ∧
    ¬((0x10000 : BitVec 22).toNat < 0x10000 ∨ 0x100000 ≤ (0x10000 : BitVec 22).toNat ∧ (0x10000 : BitVec 22).toNat < 0x180000 ∨ 0x200000 ≤ (0x10000 : BitVec 22).toNat ∧ (0x10000 : BitVec 22).toNat < 0x210000) :=
  by refine ⟨?_, ?_, ?_, ?_, ?_⟩ <;> decide +kernel

end RegisterWrites

namespace KeySequenceUnlocks

/-- A state or operand for the premises. -/
def s : State := State.reset

/-- States and operands that meet the premises of `KeySequenceUnlocks`, clause by clause. -/
theorem test_premises :
    (Running s ∧ pageAbsent s.chip.die.part 0x0D = false ∧ s.chip.host.barred.contains (reqCode .i2c) = false ∧ s.chip.host.half.contains (reqCode .i2c, 0x0D) = false ∧ s.chip.unlockedFor (reqCode .uart) 0x0D = false) ∧
    ((accMask (fieldsAt 0x0D 0x104) .rwl).testBit 24 = true ∧ (accMask (fieldsAt 0x0D 0x104) .rw).testBit 24 = false ∧ (accMask (fieldsAt 0x0D 0x104) .w1c).testBit 24 = false) := by decide +kernel

end KeySequenceUnlocks

namespace KeyFailuresAndLapses

/-- A state or operand for the premises. -/
def s : State := mk fun m => { m with host := { m.host with fails := [(1, 3)], unlocked := [(1, 13)] } }

/-- A state or operand for the premises. -/
def b : State := mk fun m => { m with host := { m.host with barred := [1] } }

/-- States and operands that meet the premises of `KeyFailuresAndLapses`, clause by clause. -/
theorem test_premises :
    (Running s ∧ b.chip.host.barred.contains (reqCode .i2c) = true ∧ s.chip.host.barred.contains (reqCode .i2c) = false ∧ s.chip.host.half.contains (reqCode .i2c, 13) = false ∧ s.chip.host.failsOf (reqCode .i2c) = 3 ∧ pageAbsent s.chip.die.part 13 = false) ∧
    ((late b.chip).keyBarDue (reqCode .i2c) = true ∧ b.chip.keyBarDue (reqCode .i2c) = false ∧ (late s.chip).unlockDue (reqCode .i2c) 13 = true ∧ s.chip.unlockDue (reqCode .i2c) 13 = false) := by decide +kernel

end KeyFailuresAndLapses

namespace CommonRegisterRows

/-- A state or operand for the premises. -/
def s : State := State.reset

/-- A state or operand for the premises. -/
def u : State := mk fun m => { m with host := { m.host with unlocked := [(1, 35)] } }

/-- A state or operand for the premises. -/
def o : LongOp := { page := 0x27, cmd := 2, arg := 0x10000, req := 1 }

/-- A state or operand for the premises. -/
def p : State := mk fun m => (m.acceptOp 0x27 2 0x10000 1)

/-- A state or operand for the premises. -/
def q : State := mk fun m => ((m.acceptOp 0x24 2 0 1).acceptOp 0x28 1 0 1)

/-- A state or operand for the premises. -/
def e : State := mk fun m => (m.acceptOp 0x26 2 0 1)

/-- States and operands that meet the premises of `CommonRegisterRows`, clause by clause. -/
theorem test_premises :
    (Running s ∧ pageAbsent s.chip.die.part 0x23 = false ∧ u.chip.unlockedFor 1 0x23 = true ∧ s.chip.unlockedFor 1 0x23 = false ∧ s.chip.busy 0x23 = false ∧ hasOps 0x23 = true) ∧
    (p.chip.opOf 0x27 = some o ∧ o.cmd = 2 ∧ p.chip.busy 0x27 = true) ∧
    ((q.chip.opOf 0x24).isSome = true ∧ (q.chip.opOf (engPg 0)).isSome = true ∧ q.chip.opOf 0x27 = none) ∧
    (accMask (fieldsAt 0x36 (HIF_SPISTAT_CRCERR.addr 0x36 % 0x400)) .rs ≠ 0 ∧ accMask (fieldsAt 0x0D 0x104) .rs = 0 ∧ (e.chip.opOf 0x26).map LongOp.cmd = some 2 ∧ hasOps 0x0D = false ∧ pageAbsent .sv6404 0x0F = true) ∧
    ((decide (2 * usTicks ≤ (late s.chip).ticksSince s.chip.host.intAt)) = true ∧ (decide (2 * usTicks ≤ s.chip.ticksSince s.chip.host.intAt)) = false) :=
  by refine ⟨?_, ?_, ?_, ?_, ?_⟩ <;> decide +kernel

end CommonRegisterRows

namespace SpiFrames

/-- A state or operand for the premises. -/
def s : State := mk fun m => { m with host := { m.host with spiHas := true } }

/-- A state or operand for the premises. -/
def c : Chip := { s.chip with host := { s.chip.host with spiOut := s.chip.host.spiResp } }

/-- A state or operand for the premises. -/
def u : State := mk fun m => m.put 0x36 HIF_CFG_SPIEN 0

/-- A state or operand for the premises. -/
def rf : BitVec 64 := 0x0000100000000076

/-- A state or operand for the premises. -/
def wf : BitVec 64 := let b := 0x40371000000005#56; BitVec.ofNat 64 (b.toNat * 256 + crc8 0xFF (bytesHigh 7 b.toNat))

/-- A state or operand for the premises. -/
def res : BitVec 64 := let b := 0x10000000000000#56; BitVec.ofNat 64 (b.toNat * 256 + crc8 0xFF (bytesHigh 7 b.toNat))

/-- A state or operand for the premises. -/
def k : Chip := { c with host := { c.host with unlocked := [(0, 0)] } }

/-- A state or operand for the premises. -/
def wr : BitVec 64 := let b := 0x40001E0000D1E5#56; BitVec.ofNat 64 (b.toNat * 256 + crc8 0xFF (bytesHigh 7 b.toNat))

/-- States and operands that meet the premises of `SpiFrames`, clause by clause. -/
theorem test_premises :
    (Running s ∧ s.chip.get 0x36 HIF_CFG_SPIEN = 1 ∧ s.chip.host.spiHas = true ∧ s.chip.host.spiEffect = none) ∧
    (crc8 0xFF (bytesHigh 7 (rf.toNat / 256)) = rf.toNat % 256 ∧ rf.toNat / 2 ^ 60 = 0 ∧ rf.toNat / 2 ^ 8 % 2 ^ 32 = 0) ∧
    ((c.busRead 0 (4 * 0x10)).refused = false ∧ (c.busRead 0 (4 * 0x10)).notReady = false) ∧
    (crc8 0xFF (bytesHigh 7 (wf.toNat / 256)) = wf.toNat % 256 ∧ wf.toNat / 2 ^ 60 = 4 ∧ (c.busWrite 0 (4 * (wf.toNat / 2 ^ 40 % 2 ^ 20)) (wf.toNat / 2 ^ 8 % 2 ^ 32)).1 = false ∧ (c.busWrite 0 (4 * (wf.toNat / 2 ^ 40 % 2 ^ 20)) (wf.toNat / 2 ^ 8 % 2 ^ 32)).2.held = false ∧ crc8 0xFF (bytesHigh 7 (wr.toNat / 256)) = wr.toNat % 256 ∧ wr.toNat / 2 ^ 60 = 4 ∧ (k.busWrite 0 (4 * (wr.toNat / 2 ^ 40 % 2 ^ 20)) (wr.toNat / 2 ^ 8 % 2 ^ 32)).2.held = true) ∧
    (¬ crc8 0xFF (bytesHigh 7 ((rf + 1).toNat / 256)) = (rf + 1).toNat % 256) ∧
    (crc8 0xFF (bytesHigh 7 (res.toNat / 256)) = res.toNat % 256 ∧ spiReserved res.toNat = true ∧ Running u ∧ u.chip.get 0x36 HIF_CFG_SPIEN = 0) :=
  by refine ⟨?_, ?_, ?_, ?_, ?_, ?_⟩ <;> decide +kernel

end SpiFrames

namespace SerialInterfaces

/-- A state or operand for the premises. -/
def s : State := mk fun m => ((m.put 0x36 HIF_CFG_I2CEN 1).put 0x36 HIF_CFG_UARTWEN 1).put 0x36 HIF_CFG_PECREQ 0

/-- A state or operand for the premises. -/
def wb : List Byte := [0xB0, 0x00, 0xDC, 0x40, 0, 0, 0, 5].map (BitVec.ofNat 8)

/-- A state or operand for the premises. -/
def pec : Nat := crc8 0 (wb.map BitVec.toNat)

/-- A state or operand for the premises. -/
def rb : List Byte := [0xB0, 0x00, 0x00, 0x40, 0xB1].map (BitVec.ofNat 8)

/-- A state or operand for the premises. -/
def rl : List Byte := [114, 32, 48, 48, 48, 48, 52, 48].map (BitVec.ofNat 8)

/-- A state or operand for the premises. -/
def wl : List Byte := [119, 32, 48, 48, 68, 67, 52, 48, 32, 48, 48, 48, 48, 48, 48, 48, 53].map (BitVec.ofNat 8)

/-- A state or operand for the premises. -/
def q : State := mk fun m => (m.put 0x36 HIF_CFG_I2CEN 1).put 0x36 HIF_CFG_PECREQ 1

/-- A state or operand for the premises. -/
def k : Chip := { s.chip with host := { s.chip.host with unlocked := [(2, 0)] } }

/-- A state or operand for the premises. -/
def rs : List Byte := [119, 32, 48, 48, 48, 48, 55, 56, 32, 48, 48, 48, 48, 68, 49, 69, 53].map (BitVec.ofNat 8)

/-- States and operands that meet the premises of `SerialInterfaces`, clause by clause. -/
theorem test_premises :
    (Running s ∧ s.chip.get 0x36 HIF_CFG_I2CEN = 1 ∧ s.chip.get 0x36 HIF_CFG_SPIEN = 1 ∧ s.chip.get 0x36 HIF_CFG_UARTWEN = 1) ∧
    (wb.map BitVec.toNat ++ [pec] = ([2 * s.chip.i2cAddr] ++ bytesHigh 3 0xDC40 ++ bytesHigh 4 5) ++ [crc8 0 ([2 * s.chip.i2cAddr] ++ bytesHigh 3 0xDC40 ++ bytesHigh 4 5)] ∧ (0xDC40 : BitVec 24).toNat % 4 = 0 ∧ pec ≠ 0) ∧
    (rb.map BitVec.toNat = [2 * s.chip.i2cAddr] ++ bytesHigh 3 0x40 ++ [2 * s.chip.i2cAddr + 1] ∧ (s.chip.busRead 1 0x40).refused = false ∧ (s.chip.busRead 1 0x40).notReady = false) ∧
    (uartParse (rl.map BitVec.toNat) = .read 0x40 ∧ rl.length ≤ 24 ∧ (s.chip.busRead 2 0x40).refused = false ∧ (s.chip.busRead 2 0x40).notReady = false) ∧
    (uartParse (wl.map BitVec.toNat) = .write 0xDC40 5 ∧ wl.length ≤ 24 ∧ (s.chip.busWrite 2 0xDC40 5).1 = false ∧ (s.chip.busWrite 2 0xDC40 5).2.held = false ∧ uartParse (rs.map BitVec.toNat) = .write 0x78 0xD1E5 ∧ (k.busWrite 2 0x78 0xD1E5).2.held = true ∧ uartParse [114, 32, 48] = .bad) ∧
    (wb.map BitVec.toNat = [2 * s.chip.i2cAddr] ++ bytesHigh 3 0xDC40 ++ bytesHigh 4 5 ∧ s.chip.get 0x36 HIF_CFG_PECREQ = 0 ∧ q.chip.get 0x36 HIF_CFG_PECREQ = 1 ∧ q.chip.get 0x36 HIF_CFG_I2CEN = 1 ∧ (5 : BitVec 6) ≠ 0) :=
  by refine ⟨?_, ?_, ?_, ?_, ?_, ?_⟩ <;> decide +kernel

end SerialInterfaces

namespace ResetsAndRelease

/-- A state or operand for the premises. -/
def s : State := mk fun m => { m with host := { m.host with unlocked := [(1, 0)] } }

/-- A state or operand for the premises. -/
def h : State := mk fun m => { m with held := true, causes := 4 }

/-- A state or operand for the premises. -/
def hq : State := mk fun m => { m with held := true, causes := 63 }

/-- A state or operand for the premises. -/
def wr : State := mk fun m => { m with nv := { m.nv with inWord := true, cur := some { kind := .commit, todo := [(1, [5, 6])] } } }

/-- States and operands that meet the premises of `ResetsAndRelease`, clause by clause. -/
theorem test_premises :
    (Running s ∧ s.chip.unlockedFor (reqCode .i2c) 0 = true ∧ s.chip.unlockedFor (reqCode .uart) 0 = false ∧ (0 : Word) ≠ 0xD1E5 ∧ (1 : Word) ≠ 0) ∧
    (h.chip.held = true ∧ h.chip.causes < 64 ∧ h.chip.causes % 2 = 0 ∧ hq.chip.held = true ∧ hq.chip.causes < 64 ∧ hq.chip.causes % 2 = 1) ∧
    (s.chip.nv.inWord = false ∧ Running wr ∧ wr.chip.nv.inWord = true ∧ wr.chip.nv.cur.map NvJob.todo = some ((1, 5 :: [6]) :: [])) :=
  by refine ⟨?_, ?_, ?_⟩ <;> decide +kernel

end ResetsAndRelease

namespace StampComparison

/-- States and operands that meet the premises of `StampComparison`, clause by clause. -/
theorem test_premises :
    ((2 ^ 48 - 1) < 2 ^ 48 ∧ (2 ^ 47 - 1) < 2 ^ 47 ∧ 0 < 2 ^ 47) := by decide +kernel

end StampComparison

namespace TimetableCommands

/-- A state or operand for the premises. -/
def s : State := State.reset

/-- A state or operand for the premises. -/
def a : State := mk fun m => { (m.put 2 TTB_STAT_STATE ttbAcquire).put 2 HDR_CTRL_ENABLE 1 with host := { m.host with unlocked := [(1, 2)] } }

/-- A state or operand for the premises. -/
def h : State := mk fun m => { m.put 2 TTB_STAT_STATE ttbHoldover with tim := { m.tim with holdBounds := 2 ^ 24 } }

/-- A state or operand for the premises. -/
def f : State := mk fun m => (m.put 2 TTB_SLOTCFG_EN 1 15).put 2 TTB_SLOTCFG_ANGLE 0 15

/-- A state or operand for the premises. -/
def w : State := mk fun m => { m with tim := { m.tim with angle := 65535, cycle := 2 ^ 32 - 1 } }

/-- A state or operand for the premises. -/
def j : State := mk fun m => { (m.put 2 TTB_STAT_ADJP 1).put 2 TTB_CYCADJ_CYC 77 with tim := { m.tim with angle := 65280 } }

/-- A state or operand for the premises. -/
def g : State := mk fun m => (m.put 2 TTB_SLOTCFG_EN 1 15).put 2 TTB_SLOTCFG_ANGLE 255 15

/-- A state or operand for the premises. -/
def st : State := mk fun m => { m with tim := { m.tim with stopped := true } }

/-- States and operands that meet the premises of `TimetableCommands`, clause by clause. -/
theorem test_premises :
    (Running s ∧ s.chip.ttb = ttbOff ∧ a.chip.ttb ≠ ttbOff ∧ pageAbsent s.chip.die.part 2 = false ∧ a.chip.unlockedFor (reqCode .i2c) 2 = true ∧ s.chip.unlockedFor (reqCode .i2c) 2 = false) ∧
    (h.chip.ttb = ttbHoldover ∧ h.chip.holdCyc + 1 ≤ h.chip.tim.holdBounds ∧ ¬(s.chip.ttb = ttbHoldover)) ∧
    (f.chip.get 2 TTB_SLOTCFG_EN (15 : Fin 16) = 1 ∧ f.chip.slotEligible 15 f.chip.tim.cycle = true ∧ f.chip.tim.stopped = false ∧ f.chip.tim.angle = f.chip.get 2 TTB_SLOTCFG_ANGLE (15 : Fin 16) ∧ (f.chip.tim.lastFired[(15 : Fin 16).val]?).getD none ≠ some f.chip.tim.cycle ∧ f.chip.get 2 TTB_SLOTCFG_EN (0 : Fin 16) = 0) ∧
    (w.chip.tim.wrapDone = false ∧ w.chip.tim.angle / 256 = 255 ∧ w.chip.get 2 TTB_STAT_ADJP = 0 ∧ j.chip.tim.wrapDone = false ∧ j.chip.tim.angle / 256 = 255 ∧ j.chip.get 2 TTB_STAT_ADJP = 1 ∧ s.chip.tim.angle / 256 ≠ 255) ∧
    (g.chip.tim.stopped = false ∧ g.chip.get 2 TTB_SLOTCFG_EN (15 : Fin 16) = 1 ∧ g.chip.slotEligible 15 g.chip.tim.cycle = true ∧ g.chip.tim.angle ≤ g.chip.get 2 TTB_SLOTCFG_ANGLE (15 : Fin 16) ∧ g.chip.get 2 TTB_SLOTCFG_ANGLE (15 : Fin 16) / 256 = g.chip.tim.angle / 256 ∧ (g.chip.tim.lastFired[(15 : Fin 16).val]?).getD none ≠ some g.chip.tim.cycle ∧ g.chip.tim.angle ≠ g.chip.get 2 TTB_SLOTCFG_ANGLE (15 : Fin 16) ∧ w.chip.tim.stopped = false ∧ j.chip.tim.stopped = false) ∧
    st.chip.tim.stopped = true :=
  by refine ⟨?_, ?_, ?_, ?_, ?_, ?_⟩ <;> decide +kernel

end TimetableCommands

namespace TrackingTransitions

/-- A state or operand for the premises. -/
def s (k : Nat) : State := mk fun m => (m.put 2 TTB_STAT_STATE k).put 2 HDR_CTRL_ENABLE 1

/-- States and operands that meet the premises of `TrackingTransitions`, clause by clause. -/
theorem test_premises :
    ((s 0).chip.held = false ∧ (s 0).chip.ttb = ttbOff ∧ (s ttbAcquire).chip.ttb = ttbAcquire ∧ (s ttbLocked).chip.ttb = ttbLocked ∧ (s ttbHoldover).chip.ttb = ttbHoldover ∧ (s ttbFreerun).chip.ttb = ttbFreerun ∧ (s ttbPull).chip.ttb = ttbPull) := by decide +kernel

end TrackingTransitions

namespace WaypointBoundaryStages

/-- A state or operand for the premises. -/
def x : WpInputs := wpIn

/-- A state or operand for the premises. -/
def s : State := State.reset

/-- A state or operand for the premises. -/
def st : State := mk fun m => { m with tim := { m.tim with stopped := true } }

/-- A state or operand for the premises. -/
def rs : State := mk fun m => { ((m.put 0x38 OVL_SWCTL_ARM 1).put 0x38 OVL_SWCTL_PRELOADED 1).put 0x38 OVL_SWCTL_NEXT 1 with ovl := { m.ovl with entries := [(GLB_SWRST_CMD.addr 0, 0xD1E5)] } }

/-- States and operands that meet the premises of `WaypointBoundaryStages`, clause by clause. -/
theorem test_premises :
    (Running s ∧ (s.chip.waypointTicks x.ticks.toNat).ovlStage.held = false ∧ x.wf = true) ∧
    (s.chip.tim.stopped = false ∧ st.chip.tim.stopped = true ∧ rs.chip.tim.stopped = false ∧ (rs.chip.waypointTicks x.ticks.toNat).ovlStage.held = true) := by decide +kernel

end WaypointBoundaryStages

namespace MeasurementCommands

/-- A state or operand for the premises. -/
def s : State := State.reset

/-- A state or operand for the premises. -/
def c : State := mk fun m => m.put 5 HDR_CTRL_ENABLE 1

/-- A state or operand for the premises. -/
def d : State := mk fun m => { m.put 5 HDR_CTRL_ENABLE 1 with cal := { m.cal with round := true } }

/-- A state or operand for the premises. -/
def t : State := mk fun m => { m with die := { m.die with part := .sv6404 } }

/-- A state or operand for the premises. -/
def n : State := mk fun m => m.put 5 CAL_STAT_STALE 0x7FFFFF

/-- A state or operand for the premises. -/
def ag : State := mk fun m => { (m.put 5 CAL_CFG_CALPER 0).put 5 CAL_STAT_STALE 0 with cal := { m.cal with age := List.replicate 24 1000 } }

/-- A state or operand for the premises. -/
def nd : State := mk fun m => { (m.put 5 HDR_CTRL_ENABLE 1) with cal := { m.cal with since := some 0 } }

/-- A state or operand for the premises. -/
def rq : State := mk fun m => ((m.put (marPg 0) MAR_STAT_MODE mdAuto).put 0x0C PHM_ACT_ACTIVE 0x8000 0).put (pwmPg 15) PWM_PHCFG_LOOP 0 7 |>.modPh 15 (fun q => { q with reqs := [0] })

/-- States and operands that meet the premises of `MeasurementCommands`, clause by clause. -/
theorem test_premises :
    (Running s ∧ s.chip.enabled 5 = false ∧ c.chip.enabled 5 = true ∧ c.chip.cal.round = false ∧ d.chip.enabled 5 = true ∧ d.chip.cal.round = true) ∧
    ((n.chip.get 5 CAL_STAT_STALE).testBit (23 : Fin 24) = false ∧ chainPresent n.chip.die.part (23 : Fin 24) = true ∧ (n.chip.get 5 CAL_STAT_STALE).testBit (0 : Fin 24) = true) ∧
    ((3 : Word).toNat.testBit 0 = true ∧ (3 : Word).toNat.testBit 1 = true ∧ (0 : Word).toNat.testBit 0 = false ∧ sarPresent s.chip.die.part 55 = true ∧ sarPresent t.chip.die.part 55 = false ∧ sarPresent s.chip.die.part 0 = true) ∧
    (pageAbsent s.chip.die.part 4 = false ∧ s.chip.busy 4 = false ∧ pageAbsent s.chip.die.part 5 = false ∧ s.chip.busy 5 = false) ∧
    ((c.chip.cal.since = none ∧ d.chip.cal.since = none) ∧ nd.chip.cal.since = some 0 ∧ ¬(nd.chip.calPeriod ≤ 0) ∧ 4 * ag.chip.calPeriod ≤ atN ag.chip.cal.age (23 : Fin 24) ∧ (ag.chip.get 5 CAL_STAT_STALE).testBit (23 : Fin 24) = false ∧ (39 : Fin 56).val < 40 ∧ 24 ≤ (39 : Fin 56).val ∧ (0 : Fin 56).val = s.chip.mea.sarNext ∧ sarPresent s.chip.die.part 39 = true) ∧
    (s.chip.upset = [] ∧ s.chip.sarServes (0 : Fin 56) = true ∧ s.chip.sarServes (39 : Fin 56) = false ∧ (s.chip.ph ((39 : Fin 56).val - 24)).reqs = [] ∧ rq.chip.sarServes (39 : Fin 56) = true) :=
  by refine ⟨?_, ?_, ?_, ?_, ?_, ?_⟩ <;> decide +kernel

end MeasurementCommands

namespace FastSampleCodes

/-- A state or operand for the premises. -/
def m : Chip := ((State.reset.chip.put 3 HDR_CTRL_ENABLE 1).put 3 MEA_CHCFG_EN 1 23).put 3 MEA_CHCFG_INV 1 23

/-- States and operands that meet the premises of `FastSampleCodes`, clause by clause. -/
theorem test_premises :
    (23 < 24 ∧ m.chainOn 23 = true) := by decide +kernel

end FastSampleCodes

namespace LoopCommands

/-- A state or operand for the premises. -/
def s : State := State.reset

/-- A state or operand for the premises. -/
def o : State := mk fun m => (m.put (marPg 3) MAR_STAT_OWNER 1).put (marPg 3) MAR_STAT_MODE mdStandby

/-- A state or operand for the premises. -/
def a : State := mk fun m => (m.put (marPg 0) MAR_STAT_MODE mdAuto).put (marPg 1) MAR_STAT_MODE mdManual

/-- States and operands that meet the premises of `LoopCommands`, clause by clause. -/
theorem test_premises :
    (Running s ∧ (3 : Fin 4).val < nLoops s.chip.die.part ∧ s.chip.owner 3 = 0 ∧ s.chip.mode 3 ≠ mdAuto ∧ s.chip.mode 3 ≠ mdManual ∧ s.chip.mode 3 = mdOff ∧ s.chip.enabled (marPg 3) ≠ true) ∧
    (o.chip.owner 3 ≠ 0 ∧ o.chip.mode 3 ≠ mdAuto ∧ o.chip.mode 3 ≠ mdManual ∧ o.chip.mode 3 ≠ mdOff ∧ o.chip.enabled (marPg 3) ≠ true ∧ o.chip.enabled (marPg 3) = false) ∧
    (a.chip.mode 0 = mdAuto ∧ a.chip.mode 1 = mdManual ∧ pageAbsent s.chip.die.part (marPg 3) = false ∧ s.chip.busy (marPg 3) = false) ∧
    (4096 ≤ (late a.chip).ticksSince (atN (late a.chip).mea.fastTick ((late a.chip).fbch (0 : Fin 4))) ∧ (late a.chip).mode 0 ≠ mdOff ∧ (late s.chip).mode 0 = mdOff ∧ ¬(4096 ≤ s.chip.ticksSince (atN s.chip.mea.fastTick (s.chip.fbch (0 : Fin 4))))) :=
  by refine ⟨?_, ?_, ?_, ?_⟩ <;> decide +kernel

end LoopCommands

namespace SetPointClamp

/-- A state or operand for the premises. -/
def m : Chip := (State.reset.chip.putS (marPg 0) MAR_SPMIN_SP (-5)).putS (marPg 0) MAR_SPMAX_SP 5

/-- States and operands that meet the premises of `SetPointClamp`, clause by clause. -/
theorem test_premises :
    (m.getS (marPg 0) MAR_SPMIN_SP ≤ m.getS (marPg 0) MAR_SPMAX_SP ∧ m.getS (marPg 0) MAR_SPMIN_SP ≤ -5 ∧ (-5 : Int) ≤ m.getS (marPg 0) MAR_SPMAX_SP) := by decide +kernel

end SetPointClamp

namespace PhaseManagerCommands

/-- A state or operand for the premises. -/
def s : State := State.reset

/-- A state or operand for the premises. -/
def u : State := mk fun m => { m with host := { m.host with unlocked := [(1, 0x0C), (1, 0x0A), (1, 0x0B)] } }

/-- A state or operand for the premises. -/
def h : State := mk fun m => (m.put 0x0C PHM_LSTAT_HOLDOFF 8).modPhl 3 (fun q => { q with holdFrames := 256, drRun := 256 }) |>.put 0x0C PHM_DRQ_ASSERTED 1 3

/-- A state or operand for the premises. -/
def p : State := mk fun m => let n := m.put 0x0C PHM_REMOV_OPEN 0x8000; { n with phm := { n.phm with phases := List.replicate 15 {} ++ [{ readmit := true, remPeriod := 8000 }] } } |> late

/-- A state or operand for the premises. -/
def t : State := mk fun m => { m with die := { m.die with part := .sv6404 } }

/-- A state or operand for the premises. -/
def b : State := mk fun m => { m.put (marPg 0) MAR_STAT_MODE mdAuto with host := { m.host with unlocked := [(1, 0x0B), (1, 0x0A)] } } |>.put (pwmPg 15) PWM_PHCFG_LOOP 0 (15 % 8)

/-- A state or operand for the premises. -/
def au : State := mk fun m => { m.put (marPg 3) MAR_STAT_MODE mdAuto with host := { m.host with unlocked := [(1, 0x0C)] } }

/-- States and operands that meet the premises of `PhaseManagerCommands`, clause by clause. -/
theorem test_premises :
    (Running s ∧ (h.chip.get 0x0C PHM_LSTAT_HOLDOFF).testBit (3 : Fin 4) = true ∧ 256 ≤ (h.chip.phl (3 : Fin 4)).holdFrames ∧ h.chip.get 0x0C PHM_DRQ_ASSERTED (3 : Fin 4) = 1 ∧ 256 ≤ (h.chip.phl (3 : Fin 4)).drRun ∧ (s.chip.get 0x0C PHM_LSTAT_HOLDOFF).testBit (3 : Fin 4) = false) ∧
    ((p.chip.ph (15 : Fin 16)).readmit = true ∧ 32768 * (p.chip.ph (15 : Fin 16)).remPeriod ≤ p.chip.ticksSince (p.chip.ph (15 : Fin 16)).remTick ∧ (p.chip.get 0x0C PHM_REMOV_OPEN).testBit (15 : Fin 16) = true ∧ (s.chip.ph (15 : Fin 16)).readmit = false) ∧
    ((3 : Fin 4).val < nLoops u.chip.die.part ∧ u.chip.unlockedFor (reqCode .i2c) 0x0C = true ∧ u.chip.mode 3 = mdOff ∧ nLoops t.chip.die.part ≤ (2 : Fin 4).val) ∧
    ((15 : Fin 16).val < nPhases u.chip.die.part ∧ u.chip.unlockedFor (reqCode .i2c) (pwmPg 15) = true ∧ u.chip.loopIdle (u.chip.get (pwmPg 15) PWM_PHCFG_LOOP (15 % 8)) = true ∧ u.chip.loopIdle 3 = true ∧ 3 < nLoops u.chip.die.part) ∧
    (b.chip.unlockedFor (reqCode .i2c) (pwmPg 15) = true ∧ b.chip.get (pwmPg 15) PWM_PHCFG_LOOP (15 % 8) = 0 ∧ b.chip.loopIdle 0 = false ∧ (3 : Nat) ≠ 0) ∧
    (3 ≤ reqCode (.engine 0) ∧ reqCode .i2c < 3) ∧
    ((u.chip.loop 3).reqOn = false ∧ au.chip.mode 3 ≠ mdOff ∧ au.chip.mode 3 ≠ mdStandby ∧ max 200 (min 8000 ((1 : Word).toNat % 8192)) ≠ au.chip.get 0x0C PHM_LPER_PERIOD (3 : Fin 4)) :=
  by refine ⟨?_, ?_, ?_, ?_, ?_, ?_, ?_⟩ <;> decide +kernel

end PhaseManagerCommands

namespace OverVoltageAndSetPointInputs

/-- A state or operand for the premises. -/
def s : State := mk fun m => { (m.put 0x0C PHM_OVCFG_ANEN 1 3).put (marPg 3) MAR_STAT_MODE mdAuto |>.put (pwmPg 15) PWM_PHCFG_LOOP 3 7 with host := { m.host with unlocked := [(1, 0x0C)] } }

/-- A state or operand for the premises. -/
def z : State := mk fun m => m.put 0x0C PHM_OVCFG_ANEN 0 3

/-- A state or operand for the premises. -/
def l : State := { s with chip := s.chip.put 0x0C PHM_OVSTAT_LATCH 8 }

/-- A state or operand for the premises. -/
def lp : State := { s with chip := ((s.chip.put 0x0C PHM_OVSTAT_LATCH 8).put 0x0C PHM_OVSTAT_PRESENT 8).put 0x0C PHM_OVSTAT_ANALOG 8 }

/-- A state or operand for the premises. -/
def v : State := mk fun m => { m.put 0x0C PHM_VSEL_VALID 1 with phm := { m.phm with setaGood := 3, setpGood := 3 } }

/-- A state or operand for the premises. -/
def vok : State := mk fun m => { m with phm := { m.phm with vselTick := some 0 } }

/-- A state or operand for the premises. -/
def vb : State := { v with chip := late v.chip }

/-- States and operands that meet the premises of `OverVoltageAndSetPointInputs`, clause by clause. -/
theorem test_premises :
    (Running s ∧ (3 : Fin 4).val < nLoops s.chip.die.part ∧ s.chip.get 0x0C PHM_OVCFG_ANEN (3 : Fin 4) = 1 ∧ (s.chip.get 0x0C PHM_OVSTAT_LATCH).testBit (3 : Fin 4) = false ∧ s.chip.assigned 3 ≠ [] ∧ s.chip.mode 3 ≠ mdOff ∧ z.chip.get 0x0C PHM_OVCFG_ANEN (3 : Fin 4) = 0) ∧
    (reqCode .i2c < 3 ∧ l.chip.unlockedFor (reqCode .i2c) 0x0C = true ∧ (l.chip.get 0x0C PHM_OVSTAT_LATCH).testBit (3 : Fin 4) = true ∧ (lp.chip.get 0x0C PHM_OVSTAT_PRESENT).testBit (3 : Fin 4) = true ∧ 3 ≤ reqCode .loader ∧ z.chip.unlockedFor (reqCode .i2c) 0x0C = false ∧ (8 : Word).toNat % 16 ≠ 0) ∧
    (v.chip.get 0x0C PHM_VSEL_VALID = 1 ∧ z.chip.get 0x0C PHM_VSEL_VALID = 0 ∧ 3 ≤ v.chip.phm.setaGood ∧ z.chip.phm.setaGood < 3 ∧ 200 ≤ (200 : BitVec 32).toNat ∧ v.chip.get 0x0C PHM_SETPCFG_MODE = 0 ∧ 3 ≤ v.chip.phm.setpGood) ∧
    (vb.chip.vselBad = true ∧ vok.chip.vselBad = false ∧ (late s.chip).vselBad = true ∧ (late s.chip).get 0x0C PHM_VSEL_VALID = 0 ∧ msTicks ≤ vb.chip.ticksSince vb.chip.phm.setpTick ∧ v.chip.ticksSince v.chip.phm.setpTick < msTicks ∧ 3 ≤ ({ v.chip.phm with setpShort := 3 }).setpShort ∧ (0 : Nat) < (199 : BitVec 32).toNat) :=
  by refine ⟨?_, ?_, ?_, ?_⟩ <;> decide +kernel

end OverVoltageAndSetPointInputs

namespace PmbusAndContextCommands

/-- A state or operand for the premises. -/
def s : State := State.reset

/-- A state or operand for the premises. -/
def l : State := mk fun m => (m.put 0x35 PAIR_STAT_ROLE 2).put 0x33 PMB_CFG_ALERTEN 1 |>.setPm 1 { pollWp := 255 } |>.setCtx 127 { state := 2, bus := 2, addr := 0x7F }

/-- A state or operand for the premises. -/
def tx : PmTx := { ctx := 0, cmd := 0x20, read := true }

/-- A state or operand for the premises. -/
def b : State := { l with chip := l.chip.setPm 1 { polls := [tx], pollWp := 255, served := [0x7F] } }

/-- A state or operand for the premises. -/
def rw : State := mk fun m => (m.acceptOp 0x33 1 0x20 1).setPm 1 { cur := some { tx with kind := 3 } }

/-- A state or operand for the premises. -/
def sel (c : Nat) (x : Ctx) : State := mk fun m => (m.wr (reqKey 1 (CTX_SEL_CTX.addr 0x34)) (BitVec.ofNat 32 c)).setCtx c x

/-- A state or operand for the premises. -/
def sn : State := mk fun m => m.setCtx 127 { state := 2, bus := 2, addr := 0x7F }

/-- States and operands that meet the premises of `PmbusAndContextCommands`, clause by clause. -/
theorem test_premises :
    (Running s ∧ l.chip.leads = true ∧ l.chip.get (0x32 + (1 : Fin 2)) PMB_CFG_POLLDIV ≠ 0 ∧ (l.chip.pm (1 : Fin 2)).polls = [] ∧ (l.chip.pm (1 : Fin 2)).cur = none ∧ (b.chip.pm (1 : Fin 2)).polls ≠ [] ∧ s.chip.leads = false) ∧
    ((rw.chip.pm (1 : Fin 2)).cur = some { tx with kind := 3 } ∧ (rw.chip.opOf (0x32 + 1)).map LongOp.phase = some 0 ∧ rw.chip.ports.length = 2 ∧ (rw.chip.pm (1 : Fin 2)).roundDue = false) ∧
    (l.chip.get (0x32 + (1 : Fin 2)) PMB_CFG_ALERTEN = 1 ∧ (l.chip.pm (1 : Fin 2)).served.contains (0x7F : BitVec 7).toNat = false ∧ (b.chip.pm (1 : Fin 2)).served.contains (0x7F : BitVec 7).toNat = true ∧ (l.chip.pm (1 : Fin 2)).trims = [] ∧ (l.chip.pm (1 : Fin 2)).alerts = [] ∧ l.chip.ctxAt (1 : Fin 2) (0x7F : BitVec 7).toNat = some 127 ∧ l.chip.get (0x32 + (1 : Fin 2)) PMB_CFG_POLLDIV ≤ (l.chip.pm (1 : Fin 2)).pollWp ∧ (l.chip.pm (1 : Fin 2)).polling = false ∧ (b.chip.pm (1 : Fin 2)).polling = true) ∧
    (b.chip.ports.length = 2 ∧ ((rw.chip.pm 1).cur.map PmTx.kind) = some 3) ∧
    (sn.chip.leads = false ∧ (127 : Fin 128).val ≠ 0 ∧ (sn.chip.ctx (127 : Fin 128)).bus = (1 : Fin 2).val + 1 ∧ (s.chip.ctx (127 : Fin 128)).bus ≠ (1 : Fin 2).val + 1) ∧
    ((sel 127 {}).chip.ctxSel (reqCode .i2c) = 127 ∧ ((sel 127 {}).chip.ctx 127).bus ≠ 3 ∧ (0x007F0100 : Word).toNat / 256 % 256 ≠ 3 ∧ (0x007F0100 : Word).toNat % 256 = 0 ∧ (0x007F0105 : Word).toNat % 256 ≠ 0 ∧ ((sel 127 {}).chip.ctx 127).state = 0 ∧ ((sel 127 { state := 3 }).chip.ctx 127).state = 3 ∧ ((sel 127 { bus := 3 }).chip.ctx 127).bus = 3 ∧ s.chip.ctxSel (reqCode .i2c) = 0) ∧
    (((sel 127 { state := 1 }).chip.ctx 127).state = 1 ∧ (sel 127 { state := 1 }).chip.ctxs.length = 128 ∧ s.chip.leads = false) :=
  by refine ⟨?_, ?_, ?_, ?_, ?_, ?_, ?_⟩ <;> decide +kernel

end PmbusAndContextCommands

namespace ContextStates

/-- A state or operand for the premises. -/
def m : Chip := State.reset.chip.setCtx 127 { state := 2, miss := 2, health := 1 }

/-- A state or operand for the premises. -/
def n : Chip := State.reset.chip.setCtx 127 { state := 1, miss := 15 }

/-- States and operands that meet the premises of `ContextStates`, clause by clause. -/
theorem test_premises :
    (127 < m.ctxs.length ∧ (m.ctx 127).state ≠ 0 ∧ (m.ctx 127).miss = 2 ∧ (m.ctx 127).state ∈ [1, 2, 3] ∧ m.batPages 127 = [] ∧ (m.ctx 127).bus ≠ 3 ∧ (n.ctx 127).miss ≠ 2 ∧ (n.ctx 127).state ≠ 0) := by decide +kernel

end ContextStates

namespace CapCommands

/-- A state or operand for the premises. -/
def s : State := State.reset

/-- A state or operand for the premises. -/
def a : State := mk fun m => ((m.put 0x1E HDR_CTRL_ENABLE 1).put 0x1E CAP_LAD_STEPEN 8).putS 0x1E CAP_LGRID_P 0x7FFFFF |>.put 0x1E CAP_CAPW_CAPW 100

/-- A state or operand for the premises. -/
def r (k : Nat) : State := mk fun m => { (m.put 0x1E HDR_CTRL_ENABLE 1).put 0x1E CAP_STAT_STEP k with cap := { m.cap with relRun := 2 ^ 16 } }

/-- A state or operand for the premises. -/
def su : State := mk fun m => { (m.put 0x1E HDR_CTRL_ENABLE 1) with cap := { m.cap with surpRun := 2 ^ 16, relRun := 0 } }

/-- A state or operand for the premises. -/
def dr (e : Nat) : State := mk fun m => let n := (m.put 0x1E HDR_CTRL_ENABLE 1).put 0x1E CAP_LAD_STEPEN e; { n with tim := { n.tim with wpCount := 2 ^ 20 } } |>.setCtx 127 { state := 2, bus := 1, cls := 2, capshare := 1, derateAt := some 0, tel := [(0x97, 0x0064)] }

/-- States and operands that meet the premises of `CapCommands`, clause by clause. -/
theorem test_premises :
    (Running s ∧ s.chip.enabled 0x1E = false ∧ a.chip.enabled 0x1E = true ∧ 0 < a.chip.capOver ∧ a.chip.capAtEnd = true ∧ a.chip.capNext = some 4) ∧
    ((r 2).chip.enabled 0x1E = true ∧ (r 1).chip.capStep = 1 ∧ (r 2).chip.capStep = 2 ∧ (r 3).chip.capStep = 3 ∧ (r 4).chip.capStep = 4 ∧ (r 4).chip.cap.released = false ∧ (r 4).chip.get 0x1E CAP_LAD_RELWP ≤ (r 4).chip.cap.relRun ∧ s.chip.capStep = 0) ∧
    (su.chip.enabled 0x1E = true ∧ max 1 (su.chip.get 0x1E CAP_SURP_SURPWP) ≤ su.chip.cap.surpRun ∧ (su.chip.capGov.any (fun x => match su.chip.strOf x with | some n => !su.chip.strFull n && !su.chip.strInhibited n | none => false)) = false ∧ su.chip.get 0x1E CAP_STAT_SURPLUS = 0) ∧
    (((dr 0).chip.ctx (127 : Fin 128)).derateAt = some 0 ∧ (dr 0).chip.enabled 0x1E = true ∧ (dr 0).chip.isCassette 127 = true ∧ ((dr 0).chip.ctx (127 : Fin 128)).noresp = false ∧ 0 + (dr 0).chip.get 0x1E CAP_LAD_DRESP ≤ (dr 0).chip.tim.wpCount ∧ (dr 0).chip.ctxShare 127 < (dr 0).chip.ctxDraw 127 ∧ (dr 0).chip.capMay 4 = false ∧ (dr 8).chip.capMay 4 = true ∧ (s.chip.ctx (127 : Fin 128)).derateAt = none) :=
  by refine ⟨?_, ?_, ?_, ?_⟩ <;> decide +kernel

end CapCommands

namespace ShareAndHoldupCommands

/-- A state or operand for the premises. -/
def s : State := State.reset

/-- A state or operand for the premises. -/
def l : State := mk fun m => { m.put 0x35 PAIR_STAT_ROLE 1 with shr := { m.shr with due := true } }

/-- A state or operand for the premises. -/
def c : State := mk fun m => { m.put 0x1F HLD_STAT_STATE huCarry with hld := { m.hld with startDue := true, repeatDue := true } }

/-- A state or operand for the premises. -/
def rt : State := mk fun m => { m.put 0x1F HLD_STAT_STATE huReturn with hld := { m.hld with rampDue := true, timeoutDue := true } }

/-- States and operands that meet the premises of `ShareAndHoldupCommands`, clause by clause. -/
theorem test_premises :
    (Running s ∧ s.chip.shr.due = false ∧ l.chip.shr.due = true ∧ s.chip.huState = huOff ∧ l.chip.huState = huOff ∧ l.chip.leads = true ∧ c.chip.huState ≠ huOff) ∧
    (c.chip.huState = huCarry ∧ c.chip.hld.startDue = true ∧ c.chip.hld.repeatDue = true ∧ rt.chip.huState = huReturn ∧ rt.chip.hld.rampDue = true ∧ rt.chip.hld.timeoutDue = true ∧ pageAbsent s.chip.die.part 0x1F = false ∧ s.chip.busy 0x1F = false) := by decide +kernel

end ShareAndHoldupCommands

namespace DomainTripsAndHappenings

/-- A state or operand for the premises. -/
def s : State := State.reset

/-- A state or operand for the premises. -/
def d (st : Nat) (x : DomSt) : State := mk fun m => (m.put (domPg 11) DOM_ST_STATE st 3).modDm 11 (fun _ => x)

/-- A state or operand for the premises. -/
def t : State := mk fun m => { m with die := { m.die with part := .sv6408 } }

/-- A state or operand for the premises. -/
def on : State := d dmOn { limRun := 2 ^ 20, brkRun := 2 ^ 30, onRun := 5000000 }

/-- A state or operand for the premises. -/
def rmp : State := d dmRamp { rampTicks := 2 ^ 40 }

/-- A state or operand for the premises. -/
def ins : State := d dmInsert { insRun := 2 ^ 30 }

/-- A state or operand for the premises. -/
def wai : State := d dmInsert { waiting := true, waitRun := 500 }

/-- A state or operand for the premises. -/
def blk : State := { d dmOn { rdvRun := 4 } with chip := (d dmOn { rdvRun := 4 }).chip.dp DOM_ST_BLOCK 1 11 }

/-- A state or operand for the premises. -/
def rty : State := { d dmRetry {} with chip := (((d dmRetry {}).chip.dp DOM_GCTL_EN 1 11).dp DOM_TJ_TJCOOL 100 11) }

/-- A state or operand for the premises. -/
def dmg : State := d dmRetry { dmgSrc := 64 }

/-- A state or operand for the premises. -/
def dmo : State := d dmStandby { dmgOut := 64, gateLow := true }

/-- States and operands that meet the premises of `DomainTripsAndHappenings`, clause by clause. -/
theorem test_premises :
    (Running s ∧ (11 : Fin 12).val < nDomains s.chip.die.part ∧ on.chip.dst (11 : Fin 12) = dmOn ∧ max 1 (on.chip.dg DOM_TIM_LIMT (11 : Fin 12)) * 500 ≤ (on.chip.dm (11 : Fin 12)).limRun ∧ max 1 (on.chip.dg DOM_TIM_BRKT (11 : Fin 12)) * 5 ≤ (on.chip.dm (11 : Fin 12)).brkRun) ∧
    (rmp.chip.dst (11 : Fin 12) = dmRamp ∧ 2 * rmp.chip.dg DOM_MON2_VBUS (11 : Fin 12) * 20000 ≤ max 1 (min 500 (rmp.chip.dg DOM_DCFG_DVDT (11 : Fin 12))) * (rmp.chip.dm (11 : Fin 12)).rampTicks ∧ s.chip.dst (11 : Fin 12) ≠ dmRamp ∧ s.chip.dst (11 : Fin 12) ≠ dmOn) ∧
    (ins.chip.dst (11 : Fin 12) = dmInsert ∧ max 1 (ins.chip.dg DOM_DCFG_INSDLY (11 : Fin 12)) * 5000 ≤ (ins.chip.dm (11 : Fin 12)).insRun ∧ (wai.chip.dm (11 : Fin 12)).waiting = true ∧ 500 ≤ (wai.chip.dm (11 : Fin 12)).waitRun) ∧
    (rty.chip.dst (11 : Fin 12) = dmRetry ∧ (rty.chip.dm (11 : Fin 12)).offLeft = 0 ∧ rty.chip.dg DOM_GCTL_EN (11 : Fin 12) = 1 ∧ rty.chip.domTj (11 : Fin 12) ≤ (rty.chip.dg DOM_TJ_TJCOOL (11 : Fin 12) : Int) * 16) ∧
    (on.chip.dst (11 : Fin 12) = dmOn ∧ 5000000 ≤ (on.chip.dm (11 : Fin 12)).onRun ∧ on.chip.dg DOM_ST_BLOCK (11 : Fin 12) = 0 ∧ on.chip.dg DOM_GCTL_REVEN (11 : Fin 12) = 0 ∧ (on.chip.dm (11 : Fin 12)).lev.rblk < (9 : BitVec 16).toNat ∧ blk.chip.dg DOM_ST_BLOCK (11 : Fin 12) = 1 ∧ 4 ≤ (blk.chip.dm (11 : Fin 12)).rdvRun) ∧
    (dmg.chip.domTests (11 : Fin 12) = true ∧ 64 ≤ (dmg.chip.dm (11 : Fin 12)).dmgSrc ∧ dmg.chip.dg DOM_ST_DAMAGED (11 : Fin 12) = 0 ∧ dmo.chip.domTests (11 : Fin 12) = true ∧ 64 ≤ (dmo.chip.dm (11 : Fin 12)).dmgOut ∧ on.chip.domTests (11 : Fin 12) = false ∧ nDomains t.chip.die.part ≤ (8 : Fin 12).val) :=
  by refine ⟨?_, ?_, ?_, ?_, ?_, ?_⟩ <;> decide +kernel

end DomainTripsAndHappenings

namespace DomainHostRows

/-- A state or operand for the premises. -/
def s : State := State.reset

/-- A state or operand for the premises. -/
def t : State := mk fun m => { m with die := { m.die with part := .sv6408 } }

/-- A state or operand for the premises. -/
def u : State := mk fun m => { ((m.dp DOM_ST_LATCHED 1 11).dp DOM_ST_DAMAGED 1 11).dp DOM_ST_STATE dmDamaged 11 with host := { m.host with unlocked := [(1, 0x0F)] } }

/-- A state or operand for the premises. -/
def v : State := mk fun m => ((m.put 5 CAL_SCALE_SCALE 0x400000 11))

/-- A state or operand for the premises. -/
def on : State := mk fun m => ((m.put 5 CAL_SCALE_SCALE 0x400000 11).dp DOM_GCTL_EN 1 11).dp DOM_ST_STATE dmOn 11 |>.put 0x0F HDR_CTRL_ENABLE 1

/-- A state or operand for the premises. -/
def cl : State := { v with chip := v.chip.dp DOM_ST_LATCHED 1 11 }

/-- A state or operand for the premises. -/
def ld : State := mk fun m => m.put 0x35 PAIR_STAT_ROLE 1

/-- States and operands that meet the premises of `DomainHostRows`, clause by clause. -/
theorem test_premises :
    (Running s ∧ pageAbsent t.chip.die.part (domPg 11) = true ∧ pageAbsent s.chip.die.part (domPg 11) = false ∧ isHost (reqCode (.engine 7)) = false ∧ isHost (reqCode .i2c) = true ∧ s.chip.unlockedFor (reqCode .i2c) (domPg 11) = false ∧ u.chip.unlockedFor (reqCode .i2c) (domPg 11) = true) ∧
    (u.chip.dg DOM_ST_LATCHED (11 : Fin 12) = 1 ∧ u.chip.dg DOM_ST_DAMAGED (11 : Fin 12) = 1 ∧ u.chip.dst (11 : Fin 12) = dmDamaged ∧ u.chip.dg DOM_GCTL_EN (11 : Fin 12) = 0 ∧ s.chip.dg DOM_ST_LATCHED (11 : Fin 12) = 0 ∧ on.chip.dg DOM_GCTL_EN (11 : Fin 12) = 1) ∧
    (s.chip.domValid (11 : Fin 12) = false ∧ v.chip.domValid (11 : Fin 12) = true ∧ ((v.chip.domTripsDue (11 : Fin 12)).domDamaged (11 : Fin 12)).domClaimed (11 : Fin 12) = false ∧ v.chip.dg DOM_GCTL_EN (11 : Fin 12) = 0 ∧ cl.chip.domValid (11 : Fin 12) = true ∧ ((cl.chip.domTripsDue (11 : Fin 12)).domDamaged (11 : Fin 12)).domClaimed (11 : Fin 12) = true ∧ cl.chip.dg DOM_GCTL_EN (11 : Fin 12) = 0 ∧ ld.chip.leads = true ∧ ld.chip.dg DOM_GCTL_EN (4 * (2 : Fin 3) + 3) = 0 ∧ ld.chip.dg DOM_ST_DAMAGED (4 * (2 : Fin 3) + 3) = 0 ∧ ld.chip.enabled (0x0D + (2 : Fin 3)) = false ∧ pageAbsent t.chip.die.part (0x0D + (2 : Fin 3)) = true ∧ on.chip.enabled (0x0D + (2 : Fin 3)) = true ∧ s.chip.enabled (0x0D + (2 : Fin 3)) = false ∧ s.chip.leads = false) :=
  by refine ⟨?_, ?_, ?_⟩ <;> decide +kernel

end DomainHostRows

namespace PortAttachment

/-- A state or operand for the premises. -/
def s : State := State.reset

/-- A state or operand for the premises. -/
def p (st : Nat) (x : PortSt) : State := mk fun m => ((m.pp PD_TCSTAT_STATE st 7).modPort 7 (fun _ => x)).pp PD_MON_VBUS 400 7

/-- A state or operand for the premises. -/
def rp : PortSt := { cc1 := .rp 3 }

/-- A state or operand for the premises. -/
def rd : PortSt := { cc2 := .rd }

/-- A state or operand for the premises. -/
def wk : State := p tcAttwSnk rp

/-- A state or operand for the premises. -/
def wr : State := mk fun m => ((m.pp PD_TCSTAT_STATE tcAttwSrc 7).modPort 7 (fun _ => rd)).pp PD_MON_VBUS 79 7

/-- A state or operand for the premises. -/
def att : State := p tcAttSnk { rp with seq := .none } |> fun s => { s with chip := s.chip.pp PD_MON_VBUS 366 7 }

/-- A state or operand for the premises. -/
def src : State := p tcAttSrc { insWait := true }

/-- A state or operand for the premises. -/
def pr : State := mk fun m => (m.pp PD_GSTAT_GSTATE 1 7).modPort 7 (fun _ => { dmgRun := 63 })

/-- A state or operand for the premises. -/
def pd : State := mk fun m => ((m.pp PD_GSTAT_GSTATE 1 7).pp PD_TCSTAT_STATE tcAttSrc 7).modPort 7 (fun _ => { dmgRun := 64 })

/-- A state or operand for the premises. -/
def vc : State := mk fun m => m.modPort 7 (fun p => { p with vconnOn := true })

/-- A state or operand for the premises. -/
def dual (st : Nat) : State := mk fun m => ((m.pp PD_TCSTAT_STATE st 7).pp PD_CFG_PWRROLE 2 7).pp PD_STG_VSKV 100 7

/-- A state or operand for the premises. -/
def single : State := mk fun m => (m.pp PD_CFG_PWRROLE 1 7).pp PD_STG_VSKV 100 7

/-- A state or operand for the premises. -/
def lt (st : Nat) (k : PortTimer) : Bool := (late (p st rp).chip).portDue 7 k

/-- A state or operand for the premises. -/
def sh : State := mk fun m => ((m.pp PD_TCSTAT_STATE tcAttSrc 7).pp PD_TCSTAT_PROLE 1 7).modPort 7 (fun _ => {})

/-- States and operands that meet the premises of `PortAttachment`, clause by clause. -/
theorem test_premises :
    (Running s ∧ (7 : Fin 8).val < nPorts s.chip.die.part ∧ wk.chip.tc (7 : Fin 8) = tcAttwSnk ∧ (wk.chip.port (7 : Fin 8)).oneRp = true ∧ 400 ≤ wk.chip.vbus (7 : Fin 8) ∧ wr.chip.tc (7 : Fin 8) = tcAttwSrc ∧ (wr.chip.port (7 : Fin 8)).oneRd = true ∧ wr.chip.vbus (7 : Fin 8) < 80) ∧
    ((p tcTrywSnk rp).chip.tc (7 : Fin 8) = tcTrywSnk ∧ ((p tcTrywSnk rp).chip.port (7 : Fin 8)).oneRp = true ∧ s.chip.tc (7 : Fin 8) ∉ [tcAttwSnk, tcAttwSrc, tcTrywSnk] ∧ ((p tcAttwSnk {}).chip.port (7 : Fin 8)).someRp = false ∧ ((p tcAttwSrc {}).chip.port (7 : Fin 8)).someRd = false ∧ (p tcAttwSrc {}).chip.tc (7 : Fin 8) = tcAttwSrc) ∧
    ((p tcTrySrc rd).chip.tc (7 : Fin 8) ∈ [tcTrySrc, tcTrywSrc] ∧ ((p tcTrySrc rd).chip.port (7 : Fin 8)).someRd = true ∧ (p tcTrySnk { rp with tryDone := true }).chip.tc (7 : Fin 8) = tcTrySnk ∧ ((p tcTrySnk { rp with tryDone := true }).chip.port (7 : Fin 8)).tryDone = true ∧ ((p tcTrySnk rp).chip.port (7 : Fin 8)).someRp = true ∧ s.chip.tc (7 : Fin 8) ∉ [tcTrySrc, tcTrywSrc, tcTrySnk]) ∧
    ((p tcTrySrc {}).chip.tc (7 : Fin 8) = tcTrySrc ∧ ((p tcTrySrc {}).chip.port (7 : Fin 8)).someRd = false ∧ (p tcTrySnk {}).chip.tc (7 : Fin 8) = tcTrySnk ∧ ((p tcTrySnk {}).chip.port (7 : Fin 8)).someRp = false ∧ (p tcTrywSrc {}).chip.tc (7 : Fin 8) = tcTrywSrc) ∧
    ((dual tcUnattSnk).chip.dualRole (7 : Fin 8) = true ∧ (dual tcUnattSnk).chip.tc (7 : Fin 8) = tcUnattSnk ∧ (dual tcUnattSrc).chip.tc (7 : Fin 8) = tcUnattSrc ∧ single.chip.dualRole (7 : Fin 8) = false ∧ (dual tcUnattSnk).chip.sinkOnly (7 : Fin 8) = false ∧ (dual tcUnattSrc).chip.sourceOnly (7 : Fin 8) = false ∧ (p tcTrySrc rp).chip.tc (7 : Fin 8) ∉ [tcUnattSnk, tcUnattSrc] ∧ (dual tcErrRec).chip.tc (7 : Fin 8) = tcErrRec ∧ s.chip.tc (7 : Fin 8) ≠ tcErrRec) ∧
    (src.chip.tc (7 : Fin 8) = tcAttSrc ∧ (src.chip.port (7 : Fin 8)).someRd = false ∧ sh.chip.tc (7 : Fin 8) = tcAttSrc ∧ (sh.chip.port (7 : Fin 8)).someRd = false ∧ sh.chip.showsRp (7 : Fin 8) = true ∧ (late sh.chip).portDue (7 : Fin 8) .disconnect = true ∧ s.chip.showsRp (7 : Fin 8) = false ∧ s.chip.tc (7 : Fin 8) ≠ tcAttSrc ∧ att.chip.tc (7 : Fin 8) = tcAttSnk ∧ (att.chip.port (7 : Fin 8)).seq = .none ∧ att.chip.sinkGone (7 : Fin 8) = true ∧ (src.chip.port (7 : Fin 8)).insWait = true ∧ (s.chip.port (7 : Fin 8)).insWait = false) ∧
    ((vc.chip.port (7 : Fin 8)).vconnOn = true ∧ vc.chip.get 0x18 PDC_VCONN_VCLIM < (255 : BitVec 8).toNat ∧ (s.chip.port (7 : Fin 8)).vconnOn = false ∧ pr.chip.pf PD_GSTAT_GSTATE (7 : Fin 8) = 1 ∧ (pr.chip.port (7 : Fin 8)).dmgRun < 64 ∧ pd.chip.pf PD_GSTAT_GSTATE (7 : Fin 8) = 1 ∧ 64 ≤ (pd.chip.port (7 : Fin 8)).dmgRun) ∧
    (((p tcAttSnk { seq := .srcWait }).chip.port (7 : Fin 8)).seq ≠ .none) ∧
    (s.chip.portDue (7 : Fin 8) .ccDebounce = false ∧ s.chip.portDue (7 : Fin 8) .pdDebounce = false ∧ s.chip.portDue (7 : Fin 8) .tryDebounce = false ∧ s.chip.portDue (7 : Fin 8) .tryEnd = false ∧ s.chip.portDue (7 : Fin 8) .drp = false ∧ s.chip.portDue (7 : Fin 8) .recovery = false ∧ s.chip.portDue (7 : Fin 8) .disconnect = false ∧ s.chip.portDue (7 : Fin 8) .prime = false ∧ lt tcAttwSnk .ccDebounce = true) ∧
    (lt tcAttwSrc .ccDebounce = true ∧ lt tcTrywSnk .ccDebounce = true ∧ lt tcTrywSnk .pdDebounce = true ∧ lt tcAttwSrc .pdDebounce = true ∧ lt tcTrySrc .tryDebounce = true ∧ lt tcTrySnk .tryDebounce = true ∧ lt tcTrySnk .tryEnd = true ∧ lt tcUnattSnk .drp = true ∧ lt tcUnattSrc .drp = true) ∧
    (lt tcErrRec .recovery = true ∧ lt tcAttSrc .disconnect = true ∧ lt tcAttSrc .insertion = true ∧ lt tcAttSrc .prime = true) ∧
    ((s.chip.pp PD_GTIM_PINSDLY 1 7).portDue (7 : Fin 8) .insertion = false) :=
  by refine ⟨?_, ?_, ?_, ?_, ?_, ?_, ?_, ?_, ?_, ?_, ?_, ?_⟩ <;> decide +kernel

end PortAttachment

namespace PortMessages

/-- A state or operand for the premises. -/
def s : State := State.reset

/-- A state or operand for the premises. -/
def p (st : Nat) (x : PortSt) : State := mk fun m => ((m.pp PD_TCSTAT_STATE st 7).modPort 7 (fun _ => x))

/-- A state or operand for the premises. -/
def rx : PdRx := ⟨false, 0x1161, 0, [], {}⟩

/-- A state or operand for the premises. -/
def a : State := p tcAttSnk {}

/-- A state or operand for the premises. -/
def hs (q : PSeq) (v : Nat) : State := mk fun m => (m.modPort 7 (fun p => { p with seq := q })).pp PD_MON_VBUS v 7

/-- A state or operand for the premises. -/
def dc : State := p tcAttSnk { decide := some rx }

/-- A state or operand for the premises. -/
def rt : State := p tcRetry {}

/-- A state or operand for the premises. -/
def frs : State := mk fun m => (((m.pp PD_TCSTAT_STATE tcAttSrc 7).pp PD_TCSTAT_CONTR 2 7).pp PD_CFG_FRSEN 1 7).pp PD_TCSTAT_PROLE 1 7 |>.pp PD_PARTNER_FRSCUR 1 7

/-- A state or operand for the premises. -/
def tx : State := p tcAttSrc { tx := [{ kind := .getStatus, byE2 := true }] }

/-- A state or operand for the premises. -/
def cb : State := mk fun m => ((m.pp PD_TCSTAT_STATE tcAttSrc 7).pp PD_TCSTAT_VCSRC 1 7).modPort 7 (fun p => { p with discDue := true })

/-- A state or operand for the premises. -/
def ep : State := mk fun m => (m.pp PD_TCSTAT_STATE tcAttSnk 7).modPort 7 (fun p => { p with eprMode := true })

/-- A state or operand for the premises. -/
def es : State := mk fun m => ((m.pp PD_TCSTAT_STATE tcAttSrc 7).pp PD_TCSTAT_PROLE 1 7).modPort 7 (fun p => { p with eprMode := true, statusWait := true })

/-- A state or operand for the premises. -/
def po : State := mk fun m => ((m.pp PD_TCSTAT_STATE tcAttSrc 7).pp PD_TCSTAT_CONTR 2 7).pp PD_POL_SPOLL 1 7

/-- A state or operand for the premises. -/
def ok : State := mk fun m => (((m.pp PD_TCSTAT_STATE tcAttSrc 7).pp PD_GSTAT_GSTATE 2 7).pp PD_TCSTAT_PROLE 1 7).pp PD_TCSTAT_VCSRC 1 7

/-- A state or operand for the premises. -/
def tb : State := { ok with chip := (ok.chip.pp PD_TXBUF_HDR 0x1001 7) }

/-- A state or operand for the premises. -/
def msg (sopp : Bool) : PdMsg := ⟨sopp, 0x0668, 0, []⟩

/-- A state or operand for the premises. -/
def y (x : PdMsg) : PdRx := { sopp := x.sopp, hdr := x.hdr.toNat, ext := x.ext.toNat, words := pdWords x.data, stamp := a.chip.stamp }

/-- A state or operand for the premises. -/
def seen (q : PortSt) (x : PdMsg) : Chip × Chip := let m := (((p tcAttSnk q).chip.txDiscard 7).portTimers 7); (m, (m.pp PD_RXCTL_OVF 0 7).lineSeen 7 (y x))

/-- A state or operand for the premises. -/
def at_ (c : Chip) (x : PSeq) : Chip := (c.pp PD_TCSTAT_STATE tcAttSnk 7).modPort 7 (fun p => { p with seq := x, discTries := 1, time := { p.time with safe := some 0 } })

/-- States and operands that meet the premises of `PortMessages`, clause by clause. -/
theorem test_premises :
    (Running s ∧ (7 : Fin 8).val < nPorts s.chip.die.part ∧ s.chip.attached (7 : Fin 8) = false ∧ a.chip.attached (7 : Fin 8) = true ∧ ((hs (.hard true 1) 80).chip.port (7 : Fin 8)).seq = .hard true (0 + 1) ∧ 80 ≤ (hs (.hard true 1) 80).chip.vbus (7 : Fin 8) ∧ ((hs (.hard true 0) 0).chip.port (7 : Fin 8)).seq = .hard true 0 ∧ ((hs (.hard false 0) 400).chip.port (7 : Fin 8)).seq = .hard false 0 ∧ 400 ≤ (hs (.hard false 0) 400).chip.vbus (7 : Fin 8)) ∧
    ((dc.chip.port (7 : Fin 8)).decide = some rx ∧ (s.chip.port (7 : Fin 8)).decide = none ∧ (tx.chip.port (7 : Fin 8)).busy = true ∧ (s.chip.port (7 : Fin 8)).busy = false ∧ (tcRetry ≤ rt.chip.tc (7 : Fin 8) ∧ rt.chip.tc (7 : Fin 8) ≤ tcDamaged) ∧ ¬(tcRetry ≤ s.chip.tc (7 : Fin 8) ∧ s.chip.tc (7 : Fin 8) ≤ tcDamaged) ∧ s.chip.txPermitted (7 : Fin 8) (s.chip.txMessage (7 : Fin 8) false) = false) ∧
    (ok.chip.txPermitted (7 : Fin 8) (ok.chip.txMessage (7 : Fin 8) true) = true ∧ ok.chip.txTableBad (7 : Fin 8) (ok.chip.txMessage (7 : Fin 8) true) = none ∧ tb.chip.txPermitted (7 : Fin 8) (tb.chip.txMessage (7 : Fin 8) false) = true ∧ tb.chip.txTableBad (7 : Fin 8) (tb.chip.txMessage (7 : Fin 8) false) ≠ none ∧ (ok.chip.port (7 : Fin 8)).busy = false ∧ (tb.chip.port (7 : Fin 8)).busy = false) ∧
    (frs.chip.frsArmed (7 : Fin 8) = true ∧ frs.chip.isSource (7 : Fin 8) = true ∧ s.chip.frsArmed (7 : Fin 8) = false ∧ s.chip.txNext (7 : Fin 8) = none ∧ tx.chip.txNext (7 : Fin 8) = some { kind := .getStatus, byE2 := true } ∧ TxEnd.discarded ≠ .sent) ∧
    (cb.chip.attached (7 : Fin 8) = true ∧ cb.chip.pf PD_TCSTAT_VCSRC (7 : Fin 8) = 1 ∧ (cb.chip.port (7 : Fin 8)).discDue = true ∧ (s.chip.port (7 : Fin 8)).discDue = false) ∧
    ((ep.chip.port (7 : Fin 8)).eprMode = true ∧ ep.chip.isSource (7 : Fin 8) = false ∧ ep.chip.portIdle (7 : Fin 8) = true ∧ (es.chip.port (7 : Fin 8)).eprMode = true ∧ es.chip.isSource (7 : Fin 8) = true ∧ po.chip.explicit (7 : Fin 8) = true ∧ po.chip.pf PD_POL_SPOLL (7 : Fin 8) ≠ 0 ∧ po.chip.portIdle (7 : Fin 8) = true ∧ (es.chip.port (7 : Fin 8)).statusWait = true) ∧
    (bitsOf (y (msg true)).hdr 9 3 = 3 ∧ (y (msg true)).kind ≠ .softReset ∧ ((seen { rxIdP := some 3 } (msg true)).1.port (7 : Fin 8)).rxIdP = some 3 ∧ ((seen { rxId := some 3 } (msg false)).1.port (7 : Fin 8)).rxId = some 3 ∧ ((seen {} (msg true)).1.port (7 : Fin 8)).rxIdP ≠ some 3 ∧ (seen {} (msg true)).2.pf PD_RXCTL_OVF (7 : Fin 8) ≠ 1 ∧ (seen { rx := List.replicate 4 rx } (msg true)).2.pf PD_RXCTL_OVF (7 : Fin 8) = 1) ∧
    (((seen { bist := 2 } (msg true)).1.port (7 : Fin 8)).bist ≠ 0 ∧ (7 : Fin 8).val < a.chip.prt.length ∧ ((seen {} (msg true)).1.port (7 : Fin 8)).bist = 0 ∧ ((seen { rx := List.replicate 3 rx } (msg true)).1.port (7 : Fin 8)).rx.length < 4 ∧ 4 ≤ ((seen { rx := List.replicate 4 rx } (msg true)).1.port (7 : Fin 8)).rx.length ∧ ((seen { rx := List.replicate 4 rx } (msg true)).1.port (7 : Fin 8)).bist = 0) ∧
    ((hs (.hard true 0) 0).chip.portDue (7 : Fin 8) .hardStep = false ∧ s.chip.portDue (7 : Fin 8) .policy = false ∧ (at_ s.chip .none).portDue (7 : Fin 8) .discover = false ∧ (late (hs (.hard true 0) 0).chip).portDue (7 : Fin 8) .hardStep = true ∧ (late (at_ s.chip (.hard true 1))).portDue (7 : Fin 8) .hardStep = true ∧ (at_ s.chip (.hard true 1)).vbus (7 : Fin 8) < 80 ∧ (late dc.chip).portDue (7 : Fin 8) .policy = true ∧ (late cb.chip).portDue (7 : Fin 8) .discover = true ∧ (cb.chip.port (7 : Fin 8)).seq ≠ .epr 2) ∧
    ((late ep.chip).portDue (7 : Fin 8) .keepalive = true ∧ ep.chip.portDue (7 : Fin 8) .keepalive = false ∧ (late es.chip).portDue (7 : Fin 8) .keepLost = true ∧ es.chip.portDue (7 : Fin 8) .keepLost = false ∧ (late es.chip).portDue (7 : Fin 8) .pollMiss = true ∧ es.chip.portDue (7 : Fin 8) .pollMiss = false ∧ po.chip.portDue (7 : Fin 8) .poll = false ∧ { po.chip with tim := { po.chip.tim with cycle := 9 } }.portDue (7 : Fin 8) .poll = true ∧ s.chip.attached (7 : Fin 8) = false) ∧
    s.chip.tc (7 : Fin 8) < tcRetry :=
  by refine ⟨?_, ?_, ?_, ?_, ?_, ?_, ?_, ?_, ?_, ?_, ?_⟩ <;> decide +kernel

end PortMessages

namespace PortSequences

/-- A state or operand for the premises. -/
def s : State := State.reset

/-- A state or operand for the premises. -/
def q (x : PSeq) (v : Nat) : State := mk fun m => ((m.modPort 7 (fun p => { p with seq := x, vTarget := 5000, capsDue := true })).pp PD_MON_VBUS v 7)

/-- A state or operand for the premises. -/
def srcd : State := mk fun m => (m.pp PD_TCSTAT_PROLE 1 7).modPort 7 (fun p => { p with capsDue := true })

/-- A state or operand for the premises. -/
def fr : State := mk fun m => (((m.pp PD_TCSTAT_STATE tcAttSnk 7).pp PD_TCSTAT_CONTR 2 7).pp PD_CFG_FRSEN 1 7).put (pdPg 7) PD_SNKPDO_PDO 0x01800000 0

/-- A state or operand for the premises. -/
def b : State := mk fun m => (m.modPort 7 (fun p => { p with seq := .srcMove, vTarget := 5000, time := { p.time with band := some 0 } })).pp PD_MON_VBUS 500 7

/-- A state or operand for the premises. -/
def due (x : PSeq) (v : Nat) (k : PortTimer) : Bool := (late (q x v).chip).portDue 7 k

/-- States and operands that meet the premises of `PortSequences`, clause by clause. -/
theorem test_premises :
    (Running s ∧ (7 : Fin 8).val < nPorts s.chip.die.part ∧ ((q .srcWait 0).chip.port (7 : Fin 8)).seq = .srcWait ∧ (q .srcMove 0).chip.settled (7 : Fin 8) = false ∧ (q .srcMove 500).chip.settled (7 : Fin 8) = true ∧ ((q .srcMove 500).chip.port (7 : Fin 8)).seq = .srcMove ∧ (q (.prSnk 1) 500).chip.settled (7 : Fin 8) = true ∧ ((q (.prSnk 1) 500).chip.port (7 : Fin 8)).seq = .prSnk 1) ∧
    (((q (.prSrc 0) 79).chip.port (7 : Fin 8)).seq = .prSrc 0 ∧ ((q (.prSrc 1) 79).chip.port (7 : Fin 8)).seq = .prSrc 1 ∧ (q (.prSrc 1) 79).chip.vbus (7 : Fin 8) < 80 ∧ 80 ≤ (q (.prSrc 1) 80).chip.vbus (7 : Fin 8) ∧ ((q .vconnOn 0).chip.port (7 : Fin 8)).seq = .vconnOn ∧ ((q (.vconnOff 1) 0).chip.port (7 : Fin 8)).seq = .vconnOff 1 ∧ ((q (.frsSrc 0) 0).chip.port (7 : Fin 8)).seq = .frsSrc 0 ∧ (s.chip.port (7 : Fin 8)).seq = .none) ∧
    ((srcd.chip.port (7 : Fin 8)).capsDue = true ∧ srcd.chip.isSource (7 : Fin 8) = true ∧ ((q (.frsSnk 0) 0).chip.port (7 : Fin 8)).seq = .frsSnk 0 ∧ ((q (.frsSnk 1) 0).chip.port (7 : Fin 8)).seq = .frsSnk 1 ∧ ((q (.frsSrc 1) 0).chip.port (7 : Fin 8)).seq = .frsSrc 1 ∧ (s.chip.port (7 : Fin 8)).seq ≠ .frsSnk 1 ∧ (s.chip.port (7 : Fin 8)).seq ≠ .frsSrc 0 ∧ fr.chip.frsArmed (7 : Fin 8) = true ∧ fr.chip.isSource (7 : Fin 8) = false) ∧
    ((late b.chip).settled (7 : Fin 8) = true ∧ (late b.chip).portDue (7 : Fin 8) .settle = true ∧ ((late b.chip).port (7 : Fin 8)).seq = .srcMove ∧ (late { b.chip with prt := b.chip.prt.map (fun (p : PortSt) => { p with seq := .prSnk 1 }) }).portDue (7 : Fin 8) .settle = true ∧ b.chip.portDue (7 : Fin 8) .settle = false) ∧
    (due .srcWait 0 .transition = true ∧ (q .srcWait 0).chip.portDue (7 : Fin 8) .transition = false ∧ due .srcMove 0 .transLate = true ∧ (q .srcMove 0).chip.portDue (7 : Fin 8) .transLate = false ∧ due (.prSrc 0) 0 .swapStep = true ∧ (q (.prSrc 0) 0).chip.portDue (7 : Fin 8) .swapStep = false ∧ due (.frsSrc 0) 0 .swapStep = true ∧ (q (.frsSrc 0) 0).chip.portDue (7 : Fin 8) .swapStep = false ∧ due (.prSrc 1) 0 .swapLate = true) ∧
    ((q (.prSrc 1) 0).chip.portDue (7 : Fin 8) .swapLate = false ∧ due (.prSnk 0) 0 .swapLate = true ∧ (q (.prSnk 0) 0).chip.portDue (7 : Fin 8) .swapLate = false ∧ due (.frsSnk 1) 0 .frsAccept = true ∧ (q (.frsSnk 1) 0).chip.portDue (7 : Fin 8) .frsAccept = false ∧ due (.frsSrc 1) 0 .frsSwap = true ∧ (q (.frsSrc 1) 0).chip.portDue (7 : Fin 8) .frsSwap = false ∧ due .none 0 .capsDelay = true ∧ (q .none 0).chip.portDue (7 : Fin 8) .capsDelay = false) ∧
    (due (.prSrc 2) 0 .swapLate = true ∧ ((q (.frsSrc 2) 549).chip.port (7 : Fin 8)).seq = .frsSrc 2 ∧ (q (.frsSrc 2) 549).chip.vbus (7 : Fin 8) < 550 ∧ 550 ≤ (q (.frsSrc 2) 550).chip.vbus (7 : Fin 8) ∧ due (.frsSrc 0) 0 .frsSwap = true) :=
  by refine ⟨?_, ?_, ?_, ?_, ?_, ?_, ?_⟩ <;> decide +kernel

end PortSequences

namespace PortGuardAndHostRows

/-- A state or operand for the premises. -/
def s : State := State.reset

/-- A state or operand for the premises. -/
def t : State := mk fun m => { m with die := { m.die with part := .sv6408 } }

/-- A state or operand for the premises. -/
def g (rc : Nat) : State := mk fun m => ((((m.pp PD_TCSTAT_CONTR 1 7 |>.pp PD_TCSTAT_STATE tcAttSrc 7).pp PD_GSTAT_GSTATE 2 7).pp PD_DRIVE_PSDIR 1 7).pp PD_GTIM_GRETRYN 3 7).pp PD_GSTAT_RCNT rc 7

/-- A state or operand for the premises. -/
def rt : State := mk fun m => (m.pp PD_TCSTAT_STATE tcRetry 7)

/-- A state or operand for the premises. -/
def la : State := mk fun m => { (((m.pp PD_TCSTAT_STATE tcLatched 7).pp PD_GSTAT_LATCHED 1 7).pp PD_GSTAT_DAMAGED 1 7).pp PD_GSTAT_VCFLT 1 7 with host := { m.host with unlocked := [(1, pdPg 7)] } } |>.put (pdPg 7) HDR_CTRL_ENABLE 1

/-- A state or operand for the premises. -/
def ex : State := mk fun m => m.pp PD_TCSTAT_CONTR 2 7

/-- A state or operand for the premises. -/
def rp : State := mk fun m => (m.pp PD_TCSTAT_STATE tcRetry 7).modPort 7 (fun p => { p with cc1 := .rp 3 })

/-- A state or operand for the premises. -/
def rd : State := mk fun m => (m.pp PD_TCSTAT_STATE tcRetry 7).modPort 7 (fun p => { p with cc2 := .rd })

/-- A state or operand for the premises. -/
def un (n : Nat) : State := mk fun m => { (m.pp PD_TCSTAT_STATE tcAttSnk 7).pp PD_GSTAT_VCFLT n 7 with host := { m.host with unlocked := [(1, pdPg 7)] } }

/-- States and operands that meet the premises of `PortGuardAndHostRows`, clause by clause. -/
theorem test_premises :
    (Running s ∧ nPorts t.chip.die.part ≤ (7 : Fin 8).val ∧ (7 : Fin 8).val < nPorts s.chip.die.part ∧ (g 3).chip.guardArmed (7 : Fin 8) 3 = true ∧ (g 2).chip.guardArmed (7 : Fin 8) 1 = true ∧ (g 3).chip.pf PD_GTIM_GRETRYN (7 : Fin 8) ≠ 15 ∧ (g 3).chip.pf PD_GSTAT_RCNT (7 : Fin 8) = (g 3).chip.pf PD_GTIM_GRETRYN (7 : Fin 8) ∧ s.chip.guardArmed (7 : Fin 8) 1 = false) ∧
    (rt.chip.tc (7 : Fin 8) = tcRetry ∧ la.chip.tc (7 : Fin 8) = tcLatched ∧ s.chip.tc (7 : Fin 8) ≠ tcRetry ∧ s.chip.tc (7 : Fin 8) ≠ tcLatched ∧ ex.chip.explicit (7 : Fin 8) = true ∧ isHost (reqCode (.engine 0)) = false ∧ isHost (reqCode .i2c) = true ∧ s.chip.unlockedFor (reqCode .i2c) (pdPg 7) = false ∧ la.chip.unlockedFor (reqCode .i2c) (pdPg 7) = true) ∧
    (la.chip.pf PD_GSTAT_LATCHED (7 : Fin 8) = 1 ∧ la.chip.pf PD_GSTAT_DAMAGED (7 : Fin 8) = 1 ∧ la.chip.pf PD_GSTAT_VCFLT (7 : Fin 8) = 1 ∧ la.chip.enabled (pdPg 7) = true ∧ s.chip.enabled (pdPg 7) = false) ∧
    ((g 3).chip.guardTest (7 : Fin 8) 1 6000 0 = true ∧ (g 3).chip.guardTest (7 : Fin 8) 1 5999 0 = false ∧ (g 3).chip.guardTest (7 : Fin 8) 2 0 1000 = true ∧ ((g 3).chip.pp PD_GCFG_OCLVL 600 7).guardTest (7 : Fin 8) 2 0 999 = false ∧ (g 3).chip.guardTest (7 : Fin 8) 3 0 32767 = true ∧ ((g 3).chip.pp PD_GCFG_RCLVL 5 7).guardTest (7 : Fin 8) 3 0 49 = false) ∧
    ((rp.chip.port (7 : Fin 8)).someRp = true ∧ (rd.chip.port (7 : Fin 8)).someRd = true ∧ (rt.chip.port (7 : Fin 8)).someRp = false ∧ (rt.chip.port (7 : Fin 8)).someRd = false ∧ (late rt.chip).portDue (7 : Fin 8) .presence = true ∧ rt.chip.portDue (7 : Fin 8) .presence = false ∧ (late rt.chip).portDue (7 : Fin 8) .retry = true ∧ rt.chip.portDue (7 : Fin 8) .retry = false ∧ (late ex.chip).portDue (7 : Fin 8) .calm = true) ∧
    (ex.chip.portDue (7 : Fin 8) .calm = false ∧ (un 0).chip.pf PD_GSTAT_LATCHED (7 : Fin 8) = 0 ∧ (un 0).chip.pf PD_GSTAT_DAMAGED (7 : Fin 8) = 0 ∧ (un 0).chip.pf PD_GSTAT_VCFLT (7 : Fin 8) = 0 ∧ (un 0).chip.unlockedFor (reqCode .i2c) (pdPg 7) = true ∧ (un 1).chip.attached (7 : Fin 8) = true ∧ (un 1).chip.pf PD_GSTAT_VCFLT (7 : Fin 8) = 1 ∧ (un 1).chip.unlockedFor (reqCode .i2c) (pdPg 7) = true ∧ (g 2).chip.guardArmed (7 : Fin 8) 2 = true) :=
  by refine ⟨?_, ?_, ?_, ?_, ?_, ?_⟩ <;> decide +kernel

end PortGuardAndHostRows

namespace BatteryCommands

/-- A state or operand for the premises. -/
def s : State := State.reset

/-- A state or operand for the premises. -/
def t : State := mk fun m => { m with die := { m.die with part := .sv6404 } }

/-- A state or operand for the premises. -/
def cfg (m : Chip) : Chip := let g := fun (m : Chip) f v => m.put (batPg 3) f v; let m := (List.range 11).foldl (fun m k => m.put (batPg 3) BAT_OCV_V (k + 1) k) (g m BAT_QRATED_Q 100); g (g (g (g (g (g (g (g (g m BAT_VEOD_V 1) BAT_VFCHK_V 2) BAT_VEOC_V 3) BAT_EODW_W1 9) BAT_EODW_W2 8) BAT_EODW_W3 7) BAT_EOCW_W1 1) BAT_EOCW_W2 2) BAT_EOCW_W3 3

/-- A state or operand for the premises. -/
def v : State := mk cfg

/-- A state or operand for the premises. -/
def st (k : Nat) : State := mk fun m => (cfg m).bp BAT_STAT_SVC 3 k

/-- A state or operand for the premises. -/
def w : State := mk fun m => let n := (cfg m).bp BAT_STAT_SVC 3 1; { n with nv := { n.nv with ready := true, vinLow := false } } |>.modBat 3 (fun b => { b with waiting := true, clean := true, restTicks := 720000000000 })

/-- A state or operand for the premises. -/
def lp : State := mk fun m => { m.bp BAT_STAT_LPEND 3 1 with nv := { m.nv with vinLow := false, ready := true } } |>.modBat 3 (fun b => { b with pend := [1, 2, 3] })

/-- States and operands that meet the premises of `BatteryCommands`, clause by clause. -/
theorem test_premises :
    (Running s ∧ nStrings t.chip.die.part ≤ (3 : Fin 4).val ∧ (3 : Fin 4).val < nStrings s.chip.die.part ∧ (st 2).chip.bg BAT_STAT_SVC (3 : Fin 4) ≠ 0 ∧ s.chip.bg BAT_STAT_SVC (3 : Fin 4) = 0 ∧ s.chip.batValid (3 : Fin 4) = false ∧ v.chip.batValid (3 : Fin 4) = true ∧ v.chip.bg BAT_STAT_SVC (3 : Fin 4) = 0) ∧
    ((st 4).chip.bg BAT_STAT_SVC (3 : Fin 4) ∈ [1, 2, 4] ∧ s.chip.bg BAT_STAT_SVC (3 : Fin 4) ∉ [1, 2, 4] ∧ (st 3).chip.bg BAT_STAT_SVC (3 : Fin 4) = 3 ∧ s.chip.bg BAT_STAT_SVC (3 : Fin 4) ≠ 3) ∧
    (w.chip.bg BAT_STAT_SVC (3 : Fin 4) = 1 ∧ (w.chip.batSt (3 : Fin 4)).waiting = true ∧ (w.chip.batSt (3 : Fin 4)).clean = true ∧ w.chip.nvClosed = false ∧ w.chip.bg BAT_STAT_REST (3 : Fin 4) = 0 ∧ max 30 (w.chip.bg BAT_REST_RESTT (3 : Fin 4)) * 12000000000 ≤ (w.chip.batSt (3 : Fin 4)).restTicks ∧ (s.chip.batSt (3 : Fin 4)).restTicks < max 30 (s.chip.bg BAT_REST_RESTT (3 : Fin 4)) * 12000000000) ∧
    (lp.chip.nv.vinLow = false ∧ 100 * msTicks ≤ (late lp.chip).ticksSince (late lp.chip).nv.vinTick ∧ lp.chip.ticksSince lp.chip.nv.vinTick < 100 * msTicks ∧ lp.chip.bg BAT_STAT_LPEND (3 : Fin 4) = 1 ∧ s.chip.bg BAT_STAT_LPEND (3 : Fin 4) = 0 ∧ pageAbsent s.chip.die.part (batPg 3) = false ∧ s.chip.busy (batPg 3) = false) :=
  by refine ⟨?_, ?_, ?_, ?_⟩ <;> decide +kernel

end BatteryCommands

namespace RailFaultsAndThermalCommands

/-- A state or operand for the premises. -/
def s : State := State.reset

/-- A state or operand for the premises. -/
def r : State := mk fun m => ((m.put 0x21 SUP_RCFG_MON 1 23).put 0x21 SUP_RCFG_FACT 2 23).put 0x21 SUP_RCFG_ENEN 1 23 |> fun n => { n with rail := List.replicate 24 { armed := true } } |>.put 0x21 SUP_ENOUT_MASK 0xFFFFFF |>.put 0x21 SUP_PG_MASK 0xFFFFFF

/-- A state or operand for the premises. -/
def l : State := mk fun m => { m.put 0x21 SUP_FUV_MASK 0x800000 with host := { m.host with unlocked := [(1, 0x21)] } }

/-- A state or operand for the premises. -/
def c (n : Nat) (x : Int) : State := mk fun m => { m with thm := { m.thm with count := n, convs := List.replicate 64 x } }

/-- A state or operand for the premises. -/
def lv : State := { r with chip := (r.chip.put 0x21 SUP_LVLA_UVF 50 23).put 0x21 SUP_LVLB_OVF 100 23 }

/-- States and operands that meet the premises of `RailFaultsAndThermalCommands`, clause by clause. -/
theorem test_premises :
    (Running s ∧ r.chip.get 0x21 SUP_RCFG_MON (23 : Fin 24) = 1 ∧ (r.chip.railSt (23 : Fin 24)).armed = true ∧ r.chip.seqState ≠ 4 ∧ (r.chip.get 0x21 SUP_FUV_MASK).testBit (23 : Fin 24) = false ∧ r.chip.fact (23 : Fin 24) = 2 ∧ r.chip.rg SUP_RCFG_ENEN (23 : Fin 24) ≠ 0 ∧ s.chip.get 0x21 SUP_RCFG_MON (23 : Fin 24) ≠ 1 ∧ (l.chip.get 0x21 SUP_FUV_MASK).testBit (23 : Fin 24) = true) ∧
    (isHost (reqCode .loader) = false ∧ isHost (reqCode .i2c) = true ∧ s.chip.unlockedFor (reqCode .i2c) 0x21 = false ∧ l.chip.unlockedFor (reqCode .i2c) 0x21 = true ∧ l.chip.railLatched (23 : Fin 24) = true ∧ (0x7FFFFF : BitVec 24).toNat.testBit (23 : Fin 24) = false) ∧
    ((-880 : Int) ≤ (0xFC90 : BitVec 16).toInt ∧ (0x0AF0 : BitVec 16).toInt ≤ 2800 ∧ (0xFC8F : BitVec 16).toInt < -880 ∧ 2800 < (0x0AF1 : BitVec 16).toInt ∧ (c 63 400).chip.thm.count < 64 ∧ 64 ≤ (c 64 400).chip.thm.count ∧ (c 64 400).chip.get 0x22 THM_STAT_SNSFLT = 0 ∧ (c 64 400).chip.thm.convs ≠ [] ∧ (c 64 (-880)).chip.thm.convs.foldl (· + ·) 0 / ((c 64 (-880)).chip.thm.convs.length : Int) ≥ -880) ∧
    (c 64 2800).chip.thm.convs.foldl (· + ·) 0 / ((c 64 2800).chip.thm.convs.length : Int) ≤ 2800 ∧
    (lv.chip.railBeyond (23 : Fin 24) (101 : BitVec 12).toNat (255 : BitVec 8).toNat = true ∧ lv.chip.railBeyond (23 : Fin 24) (49 : BitVec 12).toNat (255 : BitVec 8).toNat = true ∧ lv.chip.railBeyond (23 : Fin 24) (100 : BitVec 12).toNat (255 : BitVec 8).toNat = false ∧ lv.chip.rg SUP_LVLB_OVF (23 : Fin 24) < (101 : BitVec 12).toNat ∧ ¬(lv.chip.rg SUP_LVLB_OVF (23 : Fin 24) < (49 : BitVec 12).toNat) ∧ lv.chip.get 0x21 SUP_RCFG_MON (23 : Fin 24) = 1 ∧ (lv.chip.get 0x21 SUP_FOV_MASK).testBit (23 : Fin 24) = false ∧ lv.chip.railInside (23 : Fin 24) (49 : BitVec 12).toNat = false ∧ lv.chip.railInside (23 : Fin 24) (50 : BitVec 12).toNat = true ∧ (List.replicate 24 (50 : BitVec 12))[(23 : Fin 24).val]? = some 50) :=
  by refine ⟨?_, ?_, ?_, ?_, ?_⟩ <;> decide +kernel

end RailFaultsAndThermalCommands

namespace SequencerCommands

/-- A state or operand for the premises. -/
def s : State := State.reset

/-- A state or operand for the premises. -/
def l : State := mk fun m => { m.put 0x35 PAIR_STAT_ROLE 1 with seq := { m.seq with lossDue := true, retDue := true } }

/-- A state or operand for the premises. -/
def up (op : Nat) : State := mk fun m => { ((m.put 0x20 SEQ_STAT_STATE 2).put 0x21 SUP_RCFG_ENEN 1 23).put 0x20 SEQ_STAT_STEP 5 with seq := { m.seq with running := true, word := op * 2 ^ 28 + 23 * 2 ^ 16 } } |> fun n => { n with tim := { n.tim with tick := 2 ^ 50 }, rail := List.replicate 24 { code := 4095 } }

/-- A state or operand for the premises. -/
def w (a : Nat) : State := mk fun m => let n := ((m.put 0x20 SEQ_STAT_STATE 5).put 0x20 SEQ_STAT_INGOOD 1).put 0x20 SEQ_STAT_ATTEMPT a; { n with tim := { n.tim with tick := 2 ^ 50 } }

/-- A state or operand for the premises. -/
def eo : State := { w 1 with chip := { (w 1).chip with seq := { (w 1).chip.seq with enOff := true } } }

/-- States and operands that meet the premises of `SequencerCommands`, clause by clause. -/
theorem test_premises :
    (Running s ∧ s.chip.seqState = 0 ∧ s.chip.leads = false ∧ l.chip.leads = true ∧ s.chip.seq.lossDue = false ∧ l.chip.seq.lossDue = true ∧ l.chip.seq.retDue = true ∧ s.chip.seq.retDue = false) ∧
    ((up 1).chip.seq.running = true ∧ (up 1).chip.seqTest.1 = false ∧ (up 1).chip.seq.word / 2 ^ 28 = 1 ∧ (up 1).chip.seqState = 2 ∧ max 1 ((up 1).chip.rg SUP_RTIM_PGTO 23) * 200000 ≤ (up 1).chip.ticksSince (up 1).chip.seq.start) ∧
    ((up 2).chip.seqTest.1 = false ∧ (up 2).chip.seq.word / 2 ^ 28 = 2 ∧ max 1 ((up 2).chip.rg SUP_RTIM_DISTO 23) * 2000000 ≤ (up 2).chip.ticksSince (up 2).chip.seq.start ∧ s.chip.seq.running = false) ∧
    ((w 15).chip.seqState = 5 ∧ (w 15).chip.get 0x20 SEQ_STAT_INGOOD = 1 ∧ max 1 ((w 15).chip.get 0x20 SEQ_CFG_RETRYDLY) * 20000000 ≤ (w 15).chip.ticksSince (w 15).chip.seq.retryFrom ∧ (w 15).chip.get 0x20 SEQ_CFG_RETRYN + 1 ≤ (w 15).chip.get 0x20 SEQ_STAT_ATTEMPT ∧ s.chip.seqState ≠ 5 ∧ eo.chip.seq.enOff = true ∧ (w 1).chip.seqState ≠ 0 ∧ (w 1).chip.seq.enOff = false) :=
  by refine ⟨?_, ?_, ?_, ?_⟩ <;> decide +kernel

end SequencerCommands

namespace EventCommands

/-- A state or operand for the premises. -/
def s : State := mk fun m => (m.put 0x31 EVT_RE_ROUTE 0xFF (8 * 7 + 7)).put 0x31 EVT_RIRQ_ROUTE 0x80 7

/-- A state or operand for the premises. -/
def ab : State := mk fun m => { m with die := { m.die with part := .sv6404 } }

/-- A state or operand for the premises. -/
def gp : State := mk fun m => (m.put 0x37 PIN_GPDIR_OUT 0x80000000).put 0x37 PIN_STAT_OHOLD 0

/-- States and operands that meet the premises of `EventCommands`, clause by clause. -/
theorem test_premises :
    (Running s ∧ lineReserved (0 : BitVec 8).toNat = false ∧ lineAbsent s.chip.die.part (0 : BitVec 8).toNat = false ∧ lineReserved (231 : BitVec 8).toNat = false ∧ lineReserved (255 : BitVec 8).toNat = true ∧ s.chip.routed EVT_RE_ROUTE 231 (8 * 7) = true ∧ s.chip.routed EVT_RIRQ_ROUTE 231 0 = true) ∧
    ((s.chip.get 0x37 PIN_GPIN_LVL).testBit (31 : Fin 32) = false ∧ (0x80 : BitVec 8).toNat.testBit 7 = true) ∧
    (lineAbsent ab.chip.die.part (87 : BitVec 8).toNat = true ∧ ¬((79 : BitVec 8).toNat = 120 ∨ (80 ≤ (79 : BitVec 8).toNat ∧ (79 : BitVec 8).toNat < 88)) ∧ s.chip.gpioCan (31 : Fin 32) true = true ∧ gp.chip.gpioCan (31 : Fin 32) true = false) :=
  by refine ⟨?_, ?_, ?_⟩ <;> decide +kernel

end EventCommands

namespace DepotCommands

/-- A state or operand for the premises. -/
def s : State := State.reset

/-- A state or operand for the premises. -/
def e : DepEntry := { tag := 5, src := 22, stamp := {}, value := 9 }

/-- A state or operand for the premises. -/
def full (k : Nat) : State := mk fun m => { m with dep := { m.dep with queues := setAt m.dep.queues k (List.replicate 4 { e with src := k }) } }

/-- A state or operand for the premises. -/
def off : State := mk fun m => m.put 0x30 DEP_SRCCFG_EN 0 22

/-- A state or operand for the premises. -/
def rs : State := mk fun m => { m with dep := { m.dep with queues := setAt m.dep.queues 23 [{ e with src := 23, reserved := some 1 }] } }

/-- A state or operand for the premises. -/
def run : State := { full 7 with chip := (full 7).chip.put (0x28 + 7) ENG_STAT_STATE 1 }

/-- States and operands that meet the premises of `DepotCommands`, clause by clause. -/
theorem test_premises :
    (Running s ∧ Requester.i2c ≠ .loader ∧ off.chip.get 0x30 DEP_SRCCFG_EN 22 = 0 ∧ 4 ≤ reqCode (.engine 7) ∧ (full 7).chip.get 0x30 DEP_SRCCFG_EN 7 = 1 ∧ 4 ≤ ((full 7).chip.dep.queue 7).length ∧ (full 7).chip.get (0x28 + 7) ENG_STAT_STATE ≠ 1 ∧ run.chip.get (0x28 + 7) ENG_STAT_STATE = 1 ∧ run.chip.get 0x30 DEP_SRCCFG_EN 7 = 1 ∧ 4 ≤ (run.chip.dep.queue 7).length ∧ (full 22).chip.upset = [] ∧ reqCode .i2c < 4 ∧ (s.chip.dep.queue 7).length < 4 ∧ s.chip.get 0x30 DEP_SRCCFG_EN 22 = 1) ∧
    (s.chip.depHead (reqCode .i2c) = none ∧ (full 22).chip.depHead (reqCode .i2c) = some (22, 0, e) ∧ (full 22).chip.depHead (reqCode .spi) = some (22, 0, e) ∧ (full 22).chip.host.spiEffect = none ∧ (∀ n, n < 24 → ∀ x ∈ rs.chip.dep.queue n, x.reserved = some (reqCode .i2c) → rs.chip.ticksSince x.since < 10 * msTicks) ∧ (∃ x ∈ (late rs.chip).dep.queue 23, x.reserved = some (reqCode .i2c) ∧ 10 * msTicks ≤ (late rs.chip).ticksSince x.since)) := by decide +kernel

end DepotCommands

namespace BoundedQueues

/-- A state or operand for the premises. -/
def m : Chip := State.reset.chip

/-- A state or operand for the premises. -/
def e : DepEntry := { tag := 5, src := 23, stamp := {}, value := 9 }

/-- A state or operand for the premises. -/
def f : Chip := { m with dep := { m.dep with queues := setAt m.dep.queues 23 (List.replicate 4 e) } }

/-- A state or operand for the premises. -/
def x : Rec := { code := 1, sev := 0, src := 0, stamp := {}, hours := 0, based := false, pcc := 0, params := [] }

/-- A state or operand for the premises. -/
def q (k : Nat) : Chip := { m with rcd := { m.rcd with queue := List.replicate k x } }

/-- A state or operand for the premises. -/
def w : Chip := m.put 0x24 REC_STAT_FULL 1

/-- States and operands that meet the premises of `BoundedQueues`, clause by clause. -/
theorem test_premises :
    (e.src < 24 ∧ m.dep.queues.length = 24 ∧ (m.dep.queue e.src).length < 4 ∧ f.dep.queues.length = 24 ∧ 4 ≤ (f.dep.queue e.src).length ∧ (q 15).get 0x24 REC_STAT_FULL = 0 ∧ (q 15).rcd.queue.length < 16 ∧ 16 ≤ (q 16).rcd.queue.length ∧ w.get 0x24 REC_STAT_FULL = 1 ∧ w.recClearing = false) := by decide +kernel

end BoundedQueues

namespace InstructionsIssueOnlyInRun

/-- A state or operand for the premises. -/
def s : State := IssueCase.state ⟨id, instrWord 0x00 0x0400000, fun _ _ => true⟩

/-- A state or operand for the premises. -/
def z : State := State.reset

/-- A state or operand for the premises. -/
def i : State := { s with chip := s.chip.setEng 7 { idle := 1 } }

/-- A state or operand for the premises. -/
def u : State := { s with chip := { s.chip with upset := [(memAddr (progArr 7) 0, 2 ^ 120 - 1)] } }

/-- A state or operand for the premises. -/
def l (n : Nat) : Chip := s.chip.put 0x22 THM_STAT_LEVEL n

/-- An engine outside RUN, one in its idle cycles, one with another word at PC, and a word of another function; a
fetch of a word without and with upset symbols, at a guard that does not hold; the throttle levels. -/
theorem test_premises : (Running s ∧ z.chip.engState 7 ≠ 1 ∧ s.chip.engState 7 = 1 ∧
      (s.chip.engSt 7).idle ≤ s.chip.tim.tick ∧ i.chip.engState 7 = 1 ∧ ¬((i.chip.engSt 7).idle ≤ i.chip.tim.tick) ∧
      u.chip.engState 7 = 1 ∧ (u.chip.engSt 7).idle ≤ u.chip.tim.tick ∧ instrWord 0x00 0x0400000 ≠ instrWord 0x01 0x0400000 ∧
      s.chip.read32 (engReq 7) (progArr 7) (4 * s.chip.pc 7) = (some (instrWord 0x00 0x0400000), s.chip) ∧
      s.chip.guardHolds 7 (instrWord 0x00 0x0400000) = false ∧
      issued (.add 7 0x0400000) = some (7, instrWord 0x00 0x0400000) ∧
      issued (.sub 7 0x0400000) = some (7, instrWord 0x01 0x0400000)) ∧
    (¬OwnWord (.cp0Rd 7 0x10) (instrWord 0x3C 0x10) ∧ OwnWord (.add 7 0x0400000) (instrWord 0x00 0x0400000)) ∧
    Fetches s.chip 7 (instrWord 0x00 0x0400000) s.chip ∧
    (∃ n, u.chip.read32 (engReq 7) (progArr 7) (4 * u.chip.pc 7) = (none, n)) ∧
    ((s.chip.get 0x22 THM_MASK_ENGMASK).testBit 0 = false ∧ s.chip.get 0x22 THM_STAT_LEVEL < 2 ∧
      (s.chip.get 0x22 THM_MASK_ENGMASK).testBit 7 = true ∧ (l 2).get 0x22 THM_STAT_LEVEL = 2 ∧
      (l 3).get 0x22 THM_STAT_LEVEL = 3 ∧ (l 3).eng.length = 8 ∧ s.chip.upsets (progArr 7) (4 * s.chip.pc 7 / 8) = 0) :=
  ⟨by decide +kernel, ⟨fun h => absurd (h 0 0 rfl) (by decide), fun _ _ h => by simp [cpRow] at h⟩,
    ⟨s.chip, by decide +kernel, by decide +kernel⟩, pair_none _ (by decide +kernel), by decide +kernel⟩

end InstructionsIssueOnlyInRun

namespace RegisterArithmeticResults

/-- Chips, words and what the premises ask of them. -/
def cases : List IssueCase := (List.range 15).flatMap (fun op =>
    [⟨fun m => (m.setG 7 1 0x80000000).setG 7 2 0xFFFFFFFF, instrWord op 0x00C4800, fun _ w => w &&& 0x3FF == 0⟩,
      ⟨id, instrWord op 0x00C4801, fun _ w => w &&& 0x3FF != 0⟩]) ++
  [⟨id, instrWord 0x0F 0x00C4801, fun _ w => w &&& 0x3FE == 0⟩, ⟨id, instrWord 0x0F 0x00C4802, fun _ w => w &&& 0x3FE != 0⟩]

/-- Engine 7 executes each of the words in a state that meets the premises of `RegisterArithmeticResults`. -/
theorem test_premises : ∀ e ∈ cases, e.Met := met_of_holds cases (by decide +kernel)

end RegisterArithmeticResults

namespace ImmediateArithmeticResults

/-- Chips, words and what the premises ask of them. -/
def cases : List IssueCase := [0x10, 0x11, 0x12, 0x13].map (fun op => ⟨id, instrWord op 0x00C7FFF, fun _ w => w &&& 0 == 0⟩) ++
  [0x14, 0x15, 0x16].flatMap (fun op => [⟨id, instrWord op 0x00C401F, fun _ w => w &&& 0x3FE0 == 0⟩,
    ⟨id, instrWord op 0x00C7FFF, fun _ w => w &&& 0x3FE0 != 0⟩]) ++
  [0x17, 0x18].flatMap (fun op => [⟨id, instrWord op 0x00CFFFF, fun _ w => w &&& 0x30000 == 0⟩,
    ⟨id, instrWord op 0x00DFFFF, fun _ w => w &&& 0x30000 != 0⟩])

/-- Engine 7 executes each of the words in a state that meets the premises of `ImmediateArithmeticResults`. -/
theorem test_premises : ∀ e ∈ cases, e.Met := met_of_holds cases (by decide +kernel)

end ImmediateArithmeticResults

namespace RegisterResultFrame

/-- States and operands that meet the premises of `RegisterResultFrame`, clause by clause. -/
theorem test_premises :
    ((15 : Nat) < 16 ∧ ENG_G_G.addr (engPg 7) 15 ≠ ENG_PC_PC.addr (engPg 7) ∧ (0 : Nat) ≠ ENG_G_G.addr (engPg 7) 15) := by decide +kernel

end RegisterResultFrame

namespace PredicateInstructions

/-- Chips, words and what the premises ask of them. -/
def cases : List IssueCase := [
  ⟨id, instrWord 0x19 0x0384000, fun _ w => w &&& 0x4003F == 0 && w / 1024 % 16 == 0⟩,
  ⟨id, instrWord 0x19 0x0384400, fun _ w => w &&& 0x4003F == 0 && w / 1024 % 16 == 1⟩,
  ⟨id, instrWord 0x19 0x0384800, fun _ w => w &&& 0x4003F == 0 && w / 1024 % 16 == 2⟩,
  ⟨id, instrWord 0x19 0x0384C00, fun _ w => w &&& 0x4003F == 0 && w / 1024 % 16 == 3⟩,
  ⟨id, instrWord 0x19 0x0385000, fun _ w => w &&& 0x4003F == 0 && w / 1024 % 16 == 4⟩,
  ⟨id, instrWord 0x19 0x0385400, fun _ w => w &&& 0x4003F == 0 && w / 1024 % 16 == 5⟩,
  ⟨id, instrWord 0x19 0x0385800, fun _ w => w &&& 0x4003F == 0 && w / 1024 % 16 == 6⟩,
  ⟨id, instrWord 0x19 0x0385C00, fun _ w => w &&& 0x4003F == 0 && w / 1024 % 16 == 7⟩,
  ⟨id, instrWord 0x19 0x0386000, fun _ w => decide (8 ≤ w / 1024 % 16)⟩,
  ⟨id, instrWord 0x19 0x0384001, fun _ w => w &&& 0x4003F != 0⟩,
  ⟨id, instrWord 0x1A 0x03843FF, fun _ w => w &&& 0x40000 == 0 && w / 1024 % 16 == 0⟩,
  ⟨id, instrWord 0x1A 0x03847FF, fun _ w => w &&& 0x40000 == 0 && w / 1024 % 16 == 1⟩,
  ⟨id, instrWord 0x1A 0x0384BFF, fun _ w => w &&& 0x40000 == 0 && w / 1024 % 16 == 2⟩,
  ⟨id, instrWord 0x1A 0x0384FFF, fun _ w => w &&& 0x40000 == 0 && w / 1024 % 16 == 3⟩,
  ⟨id, instrWord 0x1A 0x03853FF, fun _ w => w &&& 0x40000 == 0 && w / 1024 % 16 == 4⟩,
  ⟨id, instrWord 0x1A 0x03857FF, fun _ w => w &&& 0x40000 == 0 && w / 1024 % 16 == 5⟩,
  ⟨id, instrWord 0x1A 0x0385BFF, fun _ w => w &&& 0x40000 == 0 && w / 1024 % 16 == 6⟩,
  ⟨id, instrWord 0x1A 0x0385FFF, fun _ w => w &&& 0x40000 == 0 && w / 1024 % 16 == 7⟩,
  ⟨id, instrWord 0x1A 0x0386000, fun _ w => decide (8 ≤ w / 1024 % 16)⟩,
  ⟨id, instrWord 0x1A 0x03C4000, fun _ w => w &&& 0x40000 != 0⟩,
  ⟨id, instrWord 0x1B 0x0386003, fun _ w => w &&& 0x1FFC == 0⟩,
  ⟨id, instrWord 0x1B 0x0386007, fun _ w => w &&& 0x1FFC != 0⟩,
  ⟨id, instrWord 0x1C 0x03C0000, fun _ w => w &&& 0x3FFFF == 0⟩,
  ⟨id, instrWord 0x1C 0x03C0001, fun _ w => w &&& 0x3FFFF != 0⟩,
  ⟨id, instrWord 0x1D 0x0004000, fun _ w => w &&& 0x3C3FFF == 0⟩,
  ⟨id, instrWord 0x1D 0x0004001, fun _ w => w &&& 0x3C3FFF != 0⟩]

/-- Engine 7 executes each of the words in a state that meets the premises of `PredicateInstructions`. -/
theorem test_premises : ∀ e ∈ cases, e.Met := met_of_holds cases (by decide +kernel)

end PredicateInstructions

namespace ControlAndIndirectInstructions

/-- Chips, words and what the premises ask of them. -/
def cases : List IssueCase := [
  ⟨id, instrWord 0x2C 0x03FFFFF, fun _ _ => true⟩,
  ⟨id, instrWord 0x2D 0x0200000, fun _ _ => true⟩,
  ⟨id, instrWord 0x2E 0x0004000, fun _ w => w &&& 0x3FF == 0⟩,
  ⟨id, instrWord 0x2E 0x0000001, fun _ w => w &&& 0x3FF != 0⟩,
  ⟨id, instrWord 0x37 0, fun _ w => w &&& 0x3FF == 0⟩,
  ⟨id, instrWord 0x37 1, fun _ w => w &&& 0x3FF != 0⟩,
  ⟨id, instrWord 0x35 0, fun _ w => w &&& 0x3FFFFF == 0⟩,
  ⟨id, instrWord 0x35 1, fun _ w => w &&& 0x3FFFFF != 0⟩,
  ⟨id, instrWord 0x2A 0x00C8000, fun _ w => w &&& 0x3FF == 0⟩,
  ⟨id, instrWord 0x2A 0x00C8001, fun _ w => w &&& 0x3FF != 0⟩,
  ⟨id, instrWord 0x2B 0x0008400, fun _ w => w &&& 0x3C03FF == 0⟩,
  ⟨id, instrWord 0x2B 0x0008401, fun _ w => w &&& 0x3C03FF != 0⟩,
  ⟨id, instrWord 0x1E 0x00C000F, fun _ w => w &&& 0x3F0 == 0⟩,
  ⟨id, instrWord 0x1E 0x00C0010, fun _ w => w &&& 0x3F0 != 0⟩,
  ⟨id, instrWord 0x1F 0x0004000, fun _ w => w &&& 0x3F0 == 0⟩,
  ⟨id, instrWord 0x1F 0x0004010, fun _ w => w &&& 0x3F0 != 0⟩]

/-- Engine 7 executes each of the words in a state that meets the premises of `ControlAndIndirectInstructions`. -/
theorem test_premises : ∀ e ∈ cases, e.Met := met_of_holds cases (by decide +kernel)

end ControlAndIndirectInstructions

namespace TrapEntryAndTrappingRows

/-- A state or operand for the premises. -/
def m : Chip := (State.reset.chip.put (engPg 7) ENG_STAT_STATE 1).setPc 7 4095

/-- A state or operand for the premises. -/
def h : Chip := m.put (engPg 7) ENG_STAT_HANDLER 1

/-- Chips, words and what the premises ask of them. -/
def cases : List IssueCase := [
  ⟨id, instrWord 0x36 0x0FF, fun _ w => w &&& 0x300 == 0⟩,
  ⟨id, instrWord 0x36 0x300, fun _ w => w &&& 0x300 != 0⟩,
  ⟨id, instrWord 0x2F 0, fun _ _ => true⟩,
  ⟨id, instrWord (0x38 + (0 : Fin 4).val) 0, fun _ _ => true⟩,
  ⟨id, instrWord (0x38 + (1 : Fin 4).val) 0, fun _ _ => true⟩,
  ⟨id, instrWord (0x38 + (2 : Fin 4).val) 0, fun _ _ => true⟩,
  ⟨id, instrWord (0x38 + (3 : Fin 4).val) 0, fun _ _ => true⟩]

/-- Engine 7 executes each of the words in a state that meets the premises of `TrapEntryAndTrappingRows`. -/
theorem test_premises : ∀ e ∈ cases, e.Met := met_of_holds cases (by decide +kernel)

/-- An engine outside and in a handler. -/
theorem test_premises_entry : (15 : Nat) < 16 ∧ m.get (engPg 7) ENG_STAT_HANDLER = 0 ∧
    h.get (engPg 7) ENG_STAT_HANDLER = 1 := by decide +kernel

end TrapEntryAndTrappingRows

namespace LoadsFromRam

/-- A state or operand for the premises. -/
def base (m : Chip) : Chip :=
  let m := (((m.setG 7 1 0x300000).setG 7 2 0x10000).setG 7 3 0x12345678).setG 7 4 0x200000
  { m with mem := Memory.write m.mem (memAddr (dataArr 7) 4) 0x80 }

/-- A state or operand for the premises. -/
def upset (m : Chip) : Chip := { base m with upset := [(memAddr (dataArr 7) 0, 2 ^ 120 - 1)] }

/-- Chips, words and what the premises ask of them. -/
def cases : List IssueCase := [
  ⟨base, instrWord 0x20 0x00C4004, fun m w => ramAt 7 (m.dataAddr 7 w) == some (dataArr 7, 4) && 4 % 4 == 0 && m.upsets (dataArr 7) 0 == 0⟩,
  ⟨base, instrWord 0x20 0x00C4005, fun m w => ramAt 7 (m.dataAddr 7 w) == some (dataArr 7, 5) && 5 % 4 != 0⟩,
  ⟨base, instrWord 0x20 0x00C8000, fun m w => ramAt 7 (m.dataAddr 7 w) == none && m.dataAddr 7 w == 0x10000⟩,
  ⟨upset, instrWord 0x20 0x00C4004, fun m w => ramAt 7 (m.dataAddr 7 w) == some (dataArr 7, 4) && 4 % 4 == 0 && (m.read32 (engReq 7) (dataArr 7) (4 / 4 * 4)).1 == none⟩,
  ⟨base, instrWord 0x21 0x00C4004, fun m w => ramAt 7 (m.dataAddr 7 w) == some (dataArr 7, 4) && 4 % 2 == 0 && m.upsets (dataArr 7) 0 == 0⟩,
  ⟨base, instrWord 0x21 0x00C4005, fun m w => ramAt 7 (m.dataAddr 7 w) == some (dataArr 7, 5) && 5 % 2 != 0⟩,
  ⟨base, instrWord 0x21 0x00C8000, fun m w => ramAt 7 (m.dataAddr 7 w) == none && m.dataAddr 7 w == 0x10000⟩,
  ⟨upset, instrWord 0x21 0x00C4004, fun m w => ramAt 7 (m.dataAddr 7 w) == some (dataArr 7, 4) && 4 % 2 == 0 && (m.read32 (engReq 7) (dataArr 7) (4 / 4 * 4)).1 == none⟩,
  ⟨base, instrWord 0x22 0x00C4004, fun m w => ramAt 7 (m.dataAddr 7 w) == some (dataArr 7, 4) && 4 % 2 == 0 && m.upsets (dataArr 7) 0 == 0⟩,
  ⟨base, instrWord 0x22 0x00C4005, fun m w => ramAt 7 (m.dataAddr 7 w) == some (dataArr 7, 5) && 5 % 2 != 0⟩,
  ⟨base, instrWord 0x22 0x00C8000, fun m w => ramAt 7 (m.dataAddr 7 w) == none && m.dataAddr 7 w == 0x10000⟩,
  ⟨upset, instrWord 0x22 0x00C4004, fun m w => ramAt 7 (m.dataAddr 7 w) == some (dataArr 7, 4) && 4 % 2 == 0 && (m.read32 (engReq 7) (dataArr 7) (4 / 4 * 4)).1 == none⟩,
  ⟨base, instrWord 0x23 0x00C4004, fun m w => ramAt 7 (m.dataAddr 7 w) == some (dataArr 7, 4) && 4 % 1 == 0 && m.upsets (dataArr 7) 0 == 0⟩,
  ⟨base, instrWord 0x23 0x00C8000, fun m w => ramAt 7 (m.dataAddr 7 w) == none && m.dataAddr 7 w == 0x10000⟩,
  ⟨upset, instrWord 0x23 0x00C4004, fun m w => ramAt 7 (m.dataAddr 7 w) == some (dataArr 7, 4) && 4 % 1 == 0 && (m.read32 (engReq 7) (dataArr 7) (4 / 4 * 4)).1 == none⟩,
  ⟨base, instrWord 0x24 0x00C4004, fun m w => ramAt 7 (m.dataAddr 7 w) == some (dataArr 7, 4) && 4 % 1 == 0 && m.upsets (dataArr 7) 0 == 0⟩,
  ⟨base, instrWord 0x24 0x00C8000, fun m w => ramAt 7 (m.dataAddr 7 w) == none && m.dataAddr 7 w == 0x10000⟩,
  ⟨upset, instrWord 0x24 0x00C4004, fun m w => ramAt 7 (m.dataAddr 7 w) == some (dataArr 7, 4) && 4 % 1 == 0 && (m.read32 (engReq 7) (dataArr 7) (4 / 4 * 4)).1 == none⟩,
  ⟨base, instrWord 0x21 0x00C0000, fun m w => ramAt 7 (m.dataAddr 7 w) == none && m.dataAddr 7 w == 0⟩,
  ⟨base, instrWord 0x24 0x00D0000, fun m w => ramAt 7 (m.dataAddr 7 w) == some (sharedArr, 0) && m.upsets sharedArr 0 == 0⟩]

/-- Engine 7 executes each of the words in a state that meets the premises of `LoadsFromRam`. -/
theorem test_premises : ∀ e ∈ cases, e.Met := met_of_holds cases (by decide +kernel)

end LoadsFromRam

namespace StoresAndExchangesInRam

/-- A state or operand for the premises. -/
def base (m : Chip) : Chip :=
  let m := (((m.setG 7 1 0x300000).setG 7 2 0x10000).setG 7 3 0x12345678).setG 7 4 0x200000 |>.setG 7 5 0x300005 |>.setG 7 6 0x300004
  { m with mem := Memory.write m.mem (memAddr (dataArr 7) 4) 0x80 }

/-- A state or operand for the premises. -/
def upset (m : Chip) : Chip := { base m with upset := [(memAddr (dataArr 7) 0, 2 ^ 120 - 1)] }

/-- Chips, words and what the premises ask of them. -/
def cases : List IssueCase := [
  ⟨base, instrWord 0x25 0x00C4004, fun m w => ramAt 7 (m.dataAddr 7 w) == some (dataArr 7, 4) && 4 % 4 == 0 && m.upsets (dataArr 7) 0 == 0⟩,
  ⟨base, instrWord 0x25 0x00C4005, fun m w => ramAt 7 (m.dataAddr 7 w) == some (dataArr 7, 5) && 5 % 4 != 0⟩,
  ⟨base, instrWord 0x25 0x00C8000, fun m w => ramAt 7 (m.dataAddr 7 w) == none && m.dataAddr 7 w == 0x10000⟩,
  ⟨upset, instrWord 0x25 0x00C4004, fun m w => ramAt 7 (m.dataAddr 7 w) == some (dataArr 7, 4) && (m.narrowWrite (engReq 7) (dataArr 7) 4 (bytesOf 4 (m.g 7 (wRd w)))).1 == none⟩,
  ⟨base, instrWord 0x26 0x00C4004, fun m w => ramAt 7 (m.dataAddr 7 w) == some (dataArr 7, 4) && 4 % 2 == 0 && m.upsets (dataArr 7) 0 == 0⟩,
  ⟨base, instrWord 0x26 0x00C4005, fun m w => ramAt 7 (m.dataAddr 7 w) == some (dataArr 7, 5) && 5 % 2 != 0⟩,
  ⟨base, instrWord 0x26 0x00C8000, fun m w => ramAt 7 (m.dataAddr 7 w) == none && m.dataAddr 7 w == 0x10000⟩,
  ⟨upset, instrWord 0x26 0x00C4004, fun m w => ramAt 7 (m.dataAddr 7 w) == some (dataArr 7, 4) && (m.narrowWrite (engReq 7) (dataArr 7) 4 (bytesOf 2 (m.g 7 (wRd w)))).1 == none⟩,
  ⟨base, instrWord 0x27 0x00C4004, fun m w => ramAt 7 (m.dataAddr 7 w) == some (dataArr 7, 4) && 4 % 1 == 0 && m.upsets (dataArr 7) 0 == 0⟩,
  ⟨base, instrWord 0x27 0x00C8000, fun m w => ramAt 7 (m.dataAddr 7 w) == none && m.dataAddr 7 w == 0x10000⟩,
  ⟨upset, instrWord 0x27 0x00C4004, fun m w => ramAt 7 (m.dataAddr 7 w) == some (dataArr 7, 4) && (m.narrowWrite (engReq 7) (dataArr 7) 4 (bytesOf 1 (m.g 7 (wRd w)))).1 == none⟩,
  ⟨base, instrWord 0x26 0x0100000, fun m w => ramAt 7 (m.dataAddr 7 w) == none && m.dataAddr 7 w == 0⟩,
  ⟨base, instrWord 0x28 0x00D8000, fun m w => w &&& 0x3FFF == 0 && ramAt 7 (m.g 7 (wRa w)) == some (dataArr 7, 4) && m.upsets (dataArr 7) 0 == 0⟩,
  ⟨base, instrWord 0x28 0x00D8001, fun _ w => w &&& 0x3FFF != 0⟩,
  ⟨base, instrWord 0x28 0x00C8000, fun m w => w &&& 0x3FFF == 0 && ramAt 7 (m.g 7 (wRa w)) == none⟩,
  ⟨base, instrWord 0x28 0x00D4000, fun m w => w &&& 0x3FFF == 0 && ramAt 7 (m.g 7 (wRa w)) == some (dataArr 7, 5) && m.g 7 (wRa w) % 4 != 0⟩,
  ⟨base, instrWord 0x29 0x00D8000, fun m w => w &&& 0x3FF == 0 && ramAt 7 (m.g 7 (wRa w)) == some (dataArr 7, 4) && m.upsets (dataArr 7) 0 == 0⟩,
  ⟨base, instrWord 0x29 0x00D8001, fun _ w => w &&& 0x3FF != 0⟩,
  ⟨base, instrWord 0x29 0x00C8000, fun m w => w &&& 0x3FF == 0 && ramAt 7 (m.g 7 (wRa w)) == none⟩,
  ⟨base, instrWord 0x29 0x00D4000, fun m w => w &&& 0x3FF == 0 && ramAt 7 (m.g 7 (wRa w)) == some (dataArr 7, 5) && m.g 7 (wRa w) % 4 != 0⟩]

/-- Engine 7 executes each of the words in a state that meets the premises of `StoresAndExchangesInRam`. -/
theorem test_premises : ∀ e ∈ cases, e.Met := met_of_holds cases (by decide +kernel)

end StoresAndExchangesInRam

namespace StoreThenLoadReturnsTheWord

/-- A state or operand for the premises. -/
def s : State :=
  let e := IssueCase.state ⟨fun m => (m.setG 7 1 0x300004).setG 7 3 0x12345678, instrWord 0x25 0x00C4000, fun _ _ => true⟩
  { e with chip := (e.chip.write32 1 (progArr 7) 4 (instrWord 0x20 0x0144000)).2 }

/-- States and operands that meet the premises of `StoreThenLoadReturnsTheWord`, clause by clause. -/
theorem test_premises :
    ((s.chip.engSt 7).idle ≤ s.chip.tim.tick ∧ s.chip.get 0x22 THM_STAT_LEVEL < 2 ∧ s.chip.ramWord (progArr 7) (4 * s.chip.pc 7) = instrWord 0x25 0x00C4000 ∧ s.chip.ramWord (progArr 7) (4 * ((s.chip.pc 7 + 1) % 4096)) = instrWord 0x20 0x0144000 ∧ Running s ∧ s.chip.engState 7 = 1 ∧ s.chip.upset = [] ∧ s.chip.guardHolds 7 (instrWord 0x25 0x00C4000) = true ∧ s.chip.guardHolds 7 (instrWord 0x20 0x0144000) = true ∧ (ramAt 7 (s.chip.dataAddr 7 (instrWord 0x25 0x00C4000))).isSome = true ∧ s.chip.dataAddr 7 (instrWord 0x25 0x00C4000) % 4 = 0 ∧ s.chip.dataAddr 7 (instrWord 0x20 0x0144000) = s.chip.dataAddr 7 (instrWord 0x25 0x00C4000)) := by decide +kernel

end StoreThenLoadReturnsTheWord

namespace RegisterSpaceAccesses

/-- A state or operand for the premises. -/
def base (m : Chip) : Chip := ((m.setG 7 1 0x40).setG 7 2 0x100000).setG 7 3 0x400

/-- A state or operand for the premises. -/
def small (m : Chip) : Chip := { base m with die := { m.die with part := .sv6404 } }

/-- A state or operand for the premises. -/
def notReady (m : Chip) : Chip :=
  let m := base m
  { m.put 0x23 NVM_CPSTAT_BUSY 1 with nv := { m.nv with ready := true, latch := some ⟨0, []⟩ } }

/-- A state or operand for the premises. -/
def full (m : Chip) : Chip := { m.setG 7 1 (DEP_PUTTAG_TAG.addr 0x30) with
  dep := { m.dep with queues := setAt m.dep.queues 7 (List.replicate 4 { tag := 5, src := 7, stamp := {}, value := 0 }) } }

/-- What an engine's write to a register leaves. -/
def wrote (m : Chip) (a v : Nat) : Chip := ((m.engNext 7).busWrite (engReq 7) a v).2

/-- Chips, words and what the premises ask of them. -/
def cases : List IssueCase := [
  ⟨base, instrWord 0x20 0x00C4000, fun m w => ramAt 7 (m.dataAddr 7 w) == none && m.dataAddr 7 w == 0x40 && !(m.busRead (engReq 7) 0x40).notReady⟩,
  ⟨base, instrWord 0x20 0x00C4001, fun m w => ramAt 7 (m.dataAddr 7 w) == none && m.dataAddr 7 w == 0x41⟩,
  ⟨notReady, instrWord 0x20 0x00C8000, fun m w => ramAt 7 (m.dataAddr 7 w) == none && m.dataAddr 7 w == 0x100000 && (m.busRead (engReq 7) 0x100000).notReady⟩,
  ⟨base, instrWord 0x25 0x00C4000, fun m w => ramAt 7 (m.dataAddr 7 w) == none && m.dataAddr 7 w == 0x40 && !(wrote m 0x40 (m.g 7 3)).held && !(wrote m 0x40 (m.g 7 3)).dep.waiting.any (fun e => e.src == 7)⟩,
  ⟨full, instrWord 0x25 0x00C4000, fun m w => ramAt 7 (m.dataAddr 7 w) == none && m.dataAddr 7 w == DEP_PUTTAG_TAG.addr 0x30 && !(wrote m (m.dataAddr 7 w) (m.g 7 3)).held && (wrote m (m.dataAddr 7 w) (m.g 7 3)).dep.waiting.any (fun e => e.src == 7)⟩,
  ⟨base, instrWord 0x25 0x00C4001, fun m w => ramAt 7 (m.dataAddr 7 w) == none && m.dataAddr 7 w == 0x41⟩] ++
  [0, 1, 2, 3].flatMap (fun k => [
    ⟨base, instrWord (0x3C + k) 0x00C4000, fun m w => !cpAbsent m.die.part k (wUnit w) && wFn w == 0 &&
      decide (wUnit w < cpUnits k) && m.g 7 (wRa w) == 0x40⟩,
    ⟨base, instrWord (0x3C + k) 0x00CC000, fun m w => !cpAbsent m.die.part k (wUnit w) && wFn w == 0 && m.g 7 (wRa w) == 0x400⟩,
    ⟨base, instrWord (0x3C + k) 0x00C4010, fun m w => !cpAbsent m.die.part k (wUnit w) && wFn w == 1 &&
      decide (wUnit w < cpUnits k) && m.g 7 (wRa w) == 0x40 && !(wrote m (cpPage k 0 * 0x400 + 0x40) 0).held &&
      !(wrote m (cpPage k 0 * 0x400 + 0x40) 0).dep.waiting.any (fun e => e.src == 7)⟩,
    ⟨base, instrWord (0x3C + k) 0x00CC010, fun m w => !cpAbsent m.die.part k (wUnit w) && wFn w == 1 && m.g 7 (wRa w) == 0x400⟩]) ++
  [⟨small, instrWord 0x3C 0x00C4003, fun m w => cpAbsent m.die.part 0 (wUnit w) && wFn w == 0⟩,
    ⟨small, instrWord 0x3C 0x00C4013, fun m w => cpAbsent m.die.part 0 (wUnit w) && wFn w == 1⟩]

/-- Engine 7 executes each of the words in a state that meets the premises of `RegisterSpaceAccesses`. -/
theorem test_premises : ∀ e ∈ cases, e.Met := met_of_holds cases (by decide +kernel)

/-- A word that is the row's own, and one that is not. -/
theorem test_premises_own : OwnWord (.cp0Rd 7 0) (instrWord 0x3C 0) ∧ ¬OwnWord (.cp0Rd 7 0x10) (instrWord 0x3C 0x10) ∧
    OwnWord (.cp3Wr 7 0x10) (instrWord 0x3F 0x10) ∧ ¬OwnWord (.cp3Wr 7 0) (instrWord 0x3F 0) :=
  ⟨fun _ _ h => by cases h; decide, fun h => absurd (h 0 0 rfl) (by decide),
    fun _ _ h => by cases h; decide, fun h => absurd (h 3 1 rfl) (by decide)⟩

end RegisterSpaceAccesses

namespace CoprocessorFunctions

/-- A state or operand for the premises. -/
def base (m : Chip) : Chip := ((m.setG 7 1 127).setG 7 2 5).setCtx 127 { state := 1, bus := 4 }

/-- A state or operand for the premises. -/
def small (m : Chip) : Chip := { base m with die := { m.die with part := .sv6404 } }

/-- Chips, words and what the premises ask of them. -/
def cases : List IssueCase := [
  ⟨base, instrWord 0x3C 0x0004820, fun m w => wFn w == 2 && wFn w < cpFns 0 && !cpAbsent m.die.part 0 (wUnit w) && decide (wUnit w < cpUnits 0) && wRd w % 4 == 0⟩,
  ⟨base, instrWord 0x3C 0x0040020, fun m w => wFn w == 2 && !cpAbsent m.die.part 0 (wUnit w) && wRd w % 4 != 0⟩,
  ⟨base, instrWord 0x3C 0x0004830, fun m w => wFn w == 3 && wFn w < cpFns 0 && !cpAbsent m.die.part 0 (wUnit w) && decide (wUnit w < cpUnits 0) && wRd w % 1 == 0⟩,
  ⟨base, instrWord 0x3D 0x0004820, fun m w => wFn w == 2 && wFn w < cpFns 1 && !cpAbsent m.die.part 1 (wUnit w) && decide (wUnit w < cpUnits 1) && wRd w % 2 == 0⟩,
  ⟨base, instrWord 0x3D 0x0040020, fun m w => wFn w == 2 && !cpAbsent m.die.part 1 (wUnit w) && wRd w % 2 != 0⟩,
  ⟨base, instrWord 0x3D 0x0004830, fun m w => wFn w == 3 && wFn w < cpFns 1 && !cpAbsent m.die.part 1 (wUnit w) && decide (wUnit w < cpUnits 1) && wRd w % 2 == 0⟩,
  ⟨base, instrWord 0x3D 0x0040030, fun m w => wFn w == 3 && !cpAbsent m.die.part 1 (wUnit w) && wRd w % 2 != 0⟩,
  ⟨base, instrWord 0x3E 0x0004820, fun m w => wFn w == 2 && wFn w < cpFns 2 && !cpAbsent m.die.part 2 (wUnit w) && decide (wUnit w < cpUnits 2) && wRd w % 1 == 0⟩,
  ⟨base, instrWord 0x3E 0x0004830, fun m w => wFn w == 3 && wFn w < cpFns 2 && !cpAbsent m.die.part 2 (wUnit w) && decide (wUnit w < cpUnits 2) && wRd w % 1 == 0⟩,
  ⟨base, instrWord 0x3F 0x0004C20, fun m w => wFn w == 2 && wFn w < cpFns 3 && !cpAbsent m.die.part 3 (wUnit w) && decide (wUnit w < cpUnits 3) && wRd w % 4 == 0⟩,
  ⟨base, instrWord 0x3F 0x0040020, fun m w => wFn w == 2 && !cpAbsent m.die.part 3 (wUnit w) && wRd w % 4 != 0⟩,
  ⟨base, instrWord 0x3F 0x0004830, fun m w => wFn w == 3 && wFn w < cpFns 3 && !cpAbsent m.die.part 3 (wUnit w) && decide (wUnit w < cpUnits 3) && wRd w % 1 == 0⟩,
  ⟨base, instrWord 0x3F 0x0384840, fun m w => wFn w == 4 && wFn w < cpFns 3 && !cpAbsent m.die.part 3 (wUnit w) && decide (wUnit w < cpUnits 3) && wRd w % 1 == 0⟩,
  ⟨base, instrWord 0x3C 0x00003F0, fun m w => decide (cpFns 0 ≤ wFn w) && !cpAbsent m.die.part 0 (wUnit w)⟩,
  ⟨base, instrWord 0x3D 0x00003F0, fun m w => decide (cpFns 1 ≤ wFn w) && !cpAbsent m.die.part 1 (wUnit w)⟩,
  ⟨base, instrWord 0x3E 0x00003F0, fun m w => decide (cpFns 2 ≤ wFn w) && !cpAbsent m.die.part 2 (wUnit w)⟩,
  ⟨base, instrWord 0x3F 0x00003F0, fun m w => decide (cpFns 3 ≤ wFn w) && !cpAbsent m.die.part 3 (wUnit w)⟩,
  ⟨small, instrWord 0x3C 0x0000023, fun m w => wFn w == 2 && cpAbsent m.die.part 0 (wUnit w)⟩,
  ⟨base, instrWord 0x3F 0x0000820, fun m w => wFn w == 2 && wUnit w == 0 && wRd w % 4 == 0 && decide (m.g 7 (wRb w) % 8 < 6)⟩,
  ⟨base, instrWord 0x3F 0x0000420, fun m w => wFn w == 2 && wUnit w == 0 && wRd w % 4 == 0 && decide (6 ≤ m.g 7 (wRb w) % 8)⟩,
  ⟨base, instrWord 0x3F 0x0004830, fun m w => wFn w == 3 && wRd w == 0 && ((m.ctx (m.g 7 (wRa w) % 128)).bus == 4 && (m.ctx (m.g 7 (wRa w) % 128)).state != 0)⟩,
  ⟨base, instrWord 0x3F 0x0000830, fun m w => wFn w == 3 && wRd w == 0 && !((m.ctx (m.g 7 (wRa w) % 128)).bus == 4 && (m.ctx (m.g 7 (wRa w) % 128)).state != 0)⟩,
  ⟨base, instrWord 0x3F 0x03C4840, fun m w => wFn w == 4 && wRd w == 15 && ((m.ctx (m.g 7 (wRa w) % 128)).bus == 4 && (m.ctx (m.g 7 (wRa w) % 128)).state != 0)⟩,
  ⟨base, instrWord 0x3F 0x0384840, fun m w => wFn w == 4 && wRd w == 14 && ((m.ctx (m.g 7 (wRa w) % 128)).bus == 4 && (m.ctx (m.g 7 (wRa w) % 128)).state != 0)⟩,
  ⟨base, instrWord 0x3F 0x03C0840, fun m w => wFn w == 4 && wRd w == 15 && !((m.ctx (m.g 7 (wRa w) % 128)).bus == 4 && (m.ctx (m.g 7 (wRa w) % 128)).state != 0)⟩,
  ⟨base, instrWord 0x3F 0x0380840, fun m w => wFn w == 4 && wRd w == 14 && !((m.ctx (m.g 7 (wRa w) % 128)).bus == 4 && (m.ctx (m.g 7 (wRa w) % 128)).state != 0)⟩]

/-- Engine 7 executes each of the words in a state that meets the premises of `CoprocessorFunctions`. -/
theorem test_premises : ∀ e ∈ cases, e.Met := met_of_holds cases (by decide +kernel)

/-- A machine without upset symbols. -/
theorem test_premises_read : State.reset.chip.upset = [] := by decide +kernel

/-- A word that is the row's own, one past the block's functions, and one of another function. -/
theorem test_premises_own : OwnWord (.cp3Telemb 7 0x40) (instrWord 0x3F 0x40) ∧
    OwnWord (.cp3Telemb 7 0x3F0) (instrWord 0x3F 0x3F0) ∧ ¬OwnWord (.cp3Telemb 7 0x30) (instrWord 0x3F 0x30) :=
  ⟨fun _ _ h => by cases h; decide, fun _ _ h => by cases h; decide, fun h => absurd (h 3 4 rfl) (by decide)⟩

end CoprocessorFunctions

namespace WaitsAndEvents

/-- A state or operand for the premises. -/
def base (m : Chip) : Chip := m.setG 7 2 5

/-- A state or operand for the premises. -/
def pend (m : Chip) : Chip :=
  ((base m).put (engPg 7) ENG_EVPEND_PEND 0x80000000 7).put (engPg 7) ENG_EVMASK_MASK 0x80000000 7

/-- A state or operand for the premises. -/
def w (x : EngWait) : State := mk fun m => (m.put (engPg 7) ENG_STAT_STATE 2).setEng 7 { wait := x }

/-- A state or operand for the premises. -/
def wl (st : Nat) (l : Bool) : State := mk fun m => ((m.put 2 TTB_STAT_LOCK st).put (engPg 7) ENG_STAT_STATE 2).setEng 7 { wait := .angle 3 0 true true l }

/-- A state or operand for the premises. -/
def we : State := { w (.event 3 255 false (some 0)) with chip := (w (.event 3 255 false (some 0))).chip.put (engPg 7) ENG_EVPEND_PEND 0x80000000 7 }

/-- Chips, words and what the premises ask of them. -/
def cases : List IssueCase := [
  ⟨pend, instrWord 0x30 0x00C08FF, fun m w => m.evTaken 7 (w % 256) (w.testBit 8) == some 255⟩,
  ⟨pend, instrWord 0x30 0x00C0900, fun m w => m.evTaken 7 (w % 256) (w.testBit 8) == some 255⟩,
  ⟨base, instrWord 0x30 0x00C0AFF, fun m w => m.evTaken 7 (w % 256) (w.testBit 8) == none && w.testBit 9 && m.g 7 (wRb w) != 0⟩,
  ⟨base, instrWord 0x30 0x00C02FF, fun m w => m.evTaken 7 (w % 256) (w.testBit 8) == none && w.testBit 9 && m.g 7 (wRb w) == 0⟩,
  ⟨base, instrWord 0x30 0x00C08FF, fun m w => m.evTaken 7 (w % 256) (w.testBit 8) == none && !w.testBit 9⟩,
  ⟨id, instrWord 0x31 0x0000007, fun _ w => w &&& 0x3F8 == 0⟩,
  ⟨id, instrWord 0x31 0x0000008, fun _ w => w &&& 0x3F8 != 0⟩,
  ⟨id, instrWord 0x32 0x00C0801, fun _ w => w &&& 0x3FE == 0⟩,
  ⟨id, instrWord 0x32 0x00C0802, fun _ w => w &&& 0x3FE != 0⟩,
  ⟨id, instrWord 0x33 0x0000801, fun _ w => w &&& 0x3C03FE == 0⟩,
  ⟨id, instrWord 0x33 0x0000802, fun _ w => w &&& 0x3C03FE != 0⟩,
  ⟨id, instrWord 0x34 0x00C0003, fun _ w => w &&& 0x3FC == 0⟩,
  ⟨id, instrWord 0x34 0x00C0004, fun _ w => w &&& 0x3FC != 0⟩]

/-- Engine 7 executes each of the words in a state that meets the premises of `WaitsAndEvents`. -/
theorem test_premises : ∀ e ∈ cases, e.Met := met_of_holds cases (by decide +kernel)

/-- Waits in each form, with their target reached and not. -/
theorem test_premises_waits :
    ((we.chip.engSt 7).wait = .event 3 255 false (some 0) ∧ we.chip.evTaken 7 255 false = some 255 ∧
      (w (.event 3 255 false (some 0))).chip.evTaken 7 255 false = none ∧ we.chip.tickReached 0 = true ∧
      (w (.event 3 255 false (some 1))).chip.tickReached 1 = false ∧ Running we) ∧
    (((w (.angle 3 0 false true false)).chip.engSt 7).wait = .angle 3 0 false true false ∧
      stampReached (w (.angle 3 0 false true false)).chip.stamp.num 0 = true ∧
      stampReached (w (.angle 3 1 false true false)).chip.stamp.num 1 = false) ∧
    (((wl 1 false).chip.engSt 7).wait = .angle 3 0 true true false ∧ (wl 1 false).chip.lockPermitted = true ∧
      (wl 0 false).chip.lockPermitted = false ∧ stampReached (wl 0 false).chip.stamp.num 0 = true ∧
      ((wl 1 true).chip.engSt 7).wait = .angle 3 0 true true true ∧ (wl 1 true).chip.lockPermitted = true ∧
      (wl 1 true).chip.tim.angle % 256 = 0 ∧ (wl 0 true).chip.lockPermitted = false) ∧
    (((w (.tick 0)).chip.engSt 7).wait = .tick 0 ∧ (w (.tick 0)).chip.tickReached 0 = true ∧
      (w (.tick 1)).chip.tickReached 1 = false) := by decide +kernel

end WaitsAndEvents

namespace EngineHostCommands

/-- A state or operand for the premises. -/
def s : State := State.reset

/-- A state or operand for the premises. -/
def b : State := mk fun m => m.acceptOp (engPg 7) 1 0 1

/-- A state or operand for the premises. -/
def r : State := mk fun m => (m.put (engPg 7) ENG_STAT_STATE 1).put (engPg 7) ENG_PADDR_ADDR 4095 |>.put (engPg 7) ENG_DADDR_ADDR 2047

/-- A state or operand for the premises. -/
def a : State := mk fun m => m.put (engPg 7) ENG_PADDR_ADDR 4095

/-- A state or operand for the premises. -/
def st (src : Nat) : State := mk fun m => (m.put (engPg 7) ENG_STAT_STATE 3).put (engPg 7) ENG_STAT_STALLSRC src

/-- A state or operand for the premises. -/
def dw : State := { st 4 with chip := { (st 4).chip with dep := { (st 4).chip.dep with waiting := [{ tag := 5, src := 7, stamp := {}, value := 0 }] } } }

/-- States and operands that meet the premises of `EngineHostCommands`, clause by clause. -/
theorem test_premises :
    (Running s ∧ s.chip.engState 7 = 0 ∧ s.chip.busy (engPg 7) = false ∧ b.chip.engState 7 = 0 ∧ b.chip.busy (engPg 7) = true ∧ r.chip.engState 7 ≠ 3 ∧ r.chip.engState 7 ≠ 0 ∧ a.chip.upsets (progArr 7) (a.chip.get (engPg 7) ENG_PADDR_ADDR / 2) = 0 ∧ r.chip.upsets (dataArr 7) (r.chip.get (engPg 7) ENG_DADDR_ADDR / 2) = 0) ∧
    ((st 4).chip.engState 7 = 3 ∧ (st 4).chip.get (engPg 7) ENG_STAT_STALLSRC = 4 ∧ (st 4).chip.dep.waiting.any (fun e => e.src == 7) = false ∧ (st 2).chip.get (engPg 7) ENG_STAT_STALLSRC ≠ 4 ∧ (st 2).chip.engState 7 = 3 ∧ dw.chip.engState 7 = 3 ∧ dw.chip.get (engPg 7) ENG_STAT_STALLSRC = 4 ∧ dw.chip.dep.waiting.any (fun e => e.src == 7) = true) := by decide +kernel

end EngineHostCommands

namespace StoreCommands

/-- A state or operand for the premises. -/
def s : State := State.reset

/-- A state or operand for the premises. -/
def o (k : Nat) : State := mk fun m => { m with nv := { m.nv with ready := true, vinLow := k == 1 } } |>.put 0x23 NVM_CFG_BOWLVL 200

/-- A state or operand for the premises. -/
def lo : State := mk fun m => m.put 0x23 NVM_CFG_BOWLVL 200

/-- A state or operand for the premises. -/
def op (k : Nat) : LongOp := { page := 0x23, cmd := k, arg := 0, req := 1 }

/-- A state or operand for the premises. -/
def c (k : Nat) (r : Bool) (md : Nat) : Chip := { ((State.reset.chip.acceptOp 0x23 k 0 1).put 0x23 NVM_CFG_MODE md) with nv := { State.reset.chip.nv with ready := r } }

/-- A state or operand for the premises. -/
def pw : State := mk fun m => { m with nv := { m.nv with pwds := (7, 9) :: List.replicate 8 (0, 0), fails := [(1, 3)], barred := [2], barAt := [(2, 0)], ready := true } }

/-- A state or operand for the premises. -/
def cp (b : Nat) : State := mk fun m => { m.put 0x23 NVM_CPSTAT_BUSY b with nv := { m.nv with latch := some ⟨2047, [(0, 1)]⟩, ready := true } }

/-- A state or operand for the premises. -/
def wj (ws : List Nat) : State := mk fun m => { m with nv := { m.nv with ready := true, vinLow := false, cur := some { kind := .commit, todo := [(0, ws)], begun := true, total := 1 }, inWord := true } } |>.put 0x22 THM_STAT_NVMOK 1

/-- A state or operand for the premises. -/
def ps : Chip := { ((wj [1]).chip.put 0x22 THM_STAT_LEVEL 2).put 0x22 THM_MASK_NVMT 1 with nv := { (wj [1]).chip.nv with pause := true } }

/-- A state or operand for the premises. -/
def cm : State := { o 0 with chip := { (o 0).chip with nv := { (o 0).chip.nv with wait := [{ kind := .commit }] } } }

/-- A state or operand for the premises. -/
def bw : State := { wj [1] with chip := { (wj [1]).chip with nv := { (wj [1]).chip.nv with inWord := false } } }

/-- States and operands that meet the premises of `StoreCommands`, clause by clause. -/
theorem test_premises :
    (Running s ∧ pageAbsent s.chip.die.part 0x23 = false ∧ s.chip.busy 0x23 = false ∧ (c 2 true 0).opOf 0x23 = some (op 2) ∧ (c 8 false 0).opOf 0x23 = some (op 8) ∧ (c 8 false 0).nvClosed = true ∧ (c 2 true 1).nvClosed = false ∧ (c 2 true 1).get 0x23 NVM_CFG_MODE = 1 ∧ (c 2 true 0).get 0x23 NVM_CFG_MODE = 0) ∧
    ((o 0).chip.nv.regionOf ((0x77FFC : BitVec 19).toNat / 256) = some 0 ∧ (o 0).chip.nv.regionOf ((0x7FFFC : BitVec 19).toNat / 256) = none ∧ (o 0).chip.nvClosed = false ∧ (o 0).chip.nv.ownerOf 0 = 0 ∧ (o 0).chip.nv.mayAccess (reqCode .i2c) 0 true = true ∧ (o 0).chip.get 0x23 NVM_CFG_MODE = 0 ∧ (o 0).chip.nv.committing = false ∧ cm.chip.nv.committing = true ∧ cm.chip.nv.regionOf ((0x77FFC : BitVec 19).toNat / 256) = some 0 ∧ cm.chip.nvClosed = false ∧ cm.chip.nv.mayAccess (reqCode .i2c) 0 true = true ∧ cm.chip.get 0x23 NVM_CFG_MODE = 0 ∧ s.chip.nvClosed = true ∧ pw.chip.nv.mayAccess (reqCode .i2c) 0 true = false) ∧
    ((o 0).chip.nv.vinLow = false ∧ (1999 : BitVec 16).toNat < 10 * (o 0).chip.get 0x23 NVM_CFG_BOWLVL ∧ 10 * (o 0).chip.get 0x23 NVM_CFG_BOWLVL ≤ (2000 : BitVec 16).toNat ∧ 10 * lo.chip.get 0x23 NVM_CFG_BOWLVL + 5 * lo.chip.get 0x23 NVM_CFG_HYS ≤ (65535 : BitVec 16).toNat) ∧
    (pw.chip.nv.barred.contains (reqCode .uart) = true ∧ pw.chip.nv.barred.contains (reqCode .i2c) = false ∧ (pw.chip.rd (reqKey (reqCode .i2c) (NVM_PWSEL_KIND.addr 0x23))).toNat % 16 < 9 ∧ pw.chip.nv.pwdOf 0 false = (7 : Word).toNat ∧ pw.chip.nv.pwdOf 0 false ≠ (8 : Word).toNat ∧ 3 ≤ (Sparse.find pw.chip.nv.fails (reqCode .i2c)).getD 0) ∧
    (s.chip.nv.latch.map NvSlot.page ≠ some (2047 : BitVec 11).toNat ∧ (cp 1).chip.get 0x23 NVM_CPSTAT_BUSY = 1 ∧ (cp 0).chip.nv.latch = some ⟨2047, [(0, 1)]⟩ ∧ (cp 0).chip.get 0x23 NVM_CPSTAT_BUSY = 0 ∧ s.chip.nv.cur = none ∧ bw.chip.nv.pause = false ∧ bw.chip.nv.inWord = false ∧ bw.chip.nv.cur ≠ none ∧ s.chip.nv.vinLow = true ∧ (wj [1, 2]).chip.nv.pause = false ∧ (wj [1, 2]).chip.nv.inWord = true ∧ (wj [1, 2]).chip.nv.cur.map NvJob.todo = some [(0, 1 :: 2 :: [])] ∧ (wj [1]).chip.nv.cur.map NvJob.todo = some ((0, [1]) :: [])) ∧
    ((late pw.chip).nv.barred.contains (reqCode .uart) = true ∧ secTicks ≤ (late pw.chip).ticksSince ((Sparse.find pw.chip.nv.barAt (reqCode .uart)).getD 0) ∧ pw.chip.ticksSince ((Sparse.find pw.chip.nv.barAt (reqCode .uart)).getD 0) < secTicks ∧ (ps.nv.cur.map NvJob.todo).isSome = true ∧ ps.nv.pause = true ∧ ps.pauseOver = false ∧ (late ps).pauseOver = true) :=
  by refine ⟨?_, ?_, ?_, ?_, ?_, ?_⟩ <;> decide +kernel

end StoreCommands

namespace StartupCommands

/-- A state or operand for the premises. -/
def s : State := State.reset

/-- A state or operand for the premises. -/
def p (k : Nat) (r : Bool) : State := mk fun m => { m with boot := { m.boot with phase := k }, nv := { m.nv with ready := r } }

/-- A state or operand for the premises. -/
def im : State := mk fun m => { m with boot := { phase := 3, startMode := 7 }, nv := { m.nv with ready := true } }

/-- A state or operand for the premises. -/
def cl : State := mk fun m => { m with nv := { m.nv with jkind := 4 } }

/-- A state or operand for the premises. -/
def rc : State := mk fun m => { m with nv := { m.nv with ready := true, recalling := true } }

/-- A state or operand for the premises. -/
def ov : State := mk fun m => { m with ovl := { m.ovl with loading := true }, nv := { m.nv with ready := true } }

/-- A state or operand for the premises. -/
def wt (ph off : Nat) : State := mk fun m => { m.put 0x23 NVM_CPSTAT_BUSY 1 with boot := { phase := ph, startMode := 7 }, nv := { m.nv with ready := true, latch := some ⟨off / 256, []⟩ }, ovl := { m.ovl with loading := true } }

/-- States and operands that meet the premises of `StartupCommands`, clause by clause. -/
theorem test_premises :
    (Running s ∧ s.chip.nv.clean = false ∧ s.chip.nv.ready = false ∧ cl.chip.nv.ready = false ∧ cl.chip.nv.clean = true ∧ (p 2 true).chip.nv.ready = true ∧ (p 2 true).chip.nv.recalling = false ∧ rc.chip.nv.ready = true ∧ rc.chip.nv.recalling = true) ∧
    (s.chip.boot.phase ≠ 2 ∧ (p 2 true).chip.boot.phase = 2 ∧ (p 2 true).chip.nvClosed = false ∧ (p 2 true).chip.get 0x23 NVM_CPSTAT_BUSY = 0 ∧ byteAt ((p 2 true).chip.cfgBytes 0x78000 4).1 0 ≠ 1 ∧ (wt 2 0x78000).chip.cfgWaits 0x78000 4 = true) ∧
    ((p 3 true).chip.boot.phase = 3 ∧ (p 3 true).chip.nvClosed = false ∧ (decide (8 ≤ (p 3 true).chip.boot.startMode) || (p 3 true).chip.get 0x38 OVL_BOOTST_NOIMG == 1 || (p 3 true).chip.get 0x38 OVL_BOOTST_CFGBAD == 1) = true ∧ im.chip.boot.phase = 3 ∧ (decide (8 ≤ im.chip.boot.startMode) || im.chip.get 0x38 OVL_BOOTST_NOIMG == 1 || im.chip.get 0x38 OVL_BOOTST_CFGBAD == 1) = false ∧ im.chip.ovlWaits im.chip.boot.startMode = false ∧ im.chip.nvClosed = false ∧ (wt 3 (ovlOff 7)).chip.ovlWaits (wt 3 (ovlOff 7)).chip.boot.startMode = true ∧ (p 4 true).chip.boot.phase = 4 ∧ ¬(s.chip.boot.phase = 4 ∨ (s.chip.boot.phase = 3 ∧ true = true)) ∧ s.chip.get 0x35 PAIR_CFG_PAIRED = 0) ∧
    (s.chip.ovl.loading = false ∧ ov.chip.ovl.loading = true ∧ ov.chip.nvClosed = false ∧ ov.chip.ovlWaits (ov.chip.get 0x38 OVL_SWCTL_OVL) = false ∧ (ov.chip.ovlCheck (ov.chip.get 0x38 OVL_SWCTL_OVL)).1 = .ok [] ∧ (wt 5 (ovlOff 0)).chip.ovlWaits ((wt 5 (ovlOff 0)).chip.get 0x38 OVL_SWCTL_OVL) = true ∧ pageAbsent s.chip.die.part 0x38 = false) :=
  by refine ⟨?_, ?_, ?_, ?_⟩ <;> decide +kernel

end StartupCommands

namespace IntegrityCommands

/-- A state or operand for the premises. -/
def s : State := State.reset

/-- A state or operand for the premises. -/
def en : State := mk fun m => m.put 0x27 HDR_CTRL_ENABLE 1

/-- A state or operand for the premises. -/
def op : State := mk fun m => (m.acceptOp 0x27 1 0x11 1).acceptOp 0x26 1 0 1

/-- A state or operand for the premises. -/
def se : State := en

/-- States and operands that meet the premises of `IntegrityCommands`, clause by clause. -/
theorem test_premises :
    (Running s ∧ pageAbsent s.chip.die.part 0x26 = false ∧ s.chip.busy 0x26 = false ∧ pageAbsent s.chip.die.part 0x27 = false ∧ s.chip.busy 0x27 = false ∧ s.chip.opOf 0x27 = none ∧ s.chip.enabled 0x27 = false ∧ en.chip.opOf 0x27 = none ∧ en.chip.enabled 0x27 = true ∧ op.chip.opOf 0x26 = some { page := 0x26, cmd := 1, arg := 0, req := 1 } ∧ op.chip.opOf 0x27 = some { page := 0x27, cmd := 1, arg := 0x11, req := 1 }) ∧
    (se.chip.opOf 0x27 = none ∧ se.chip.enabled 0x27 = true ∧ se.chip.scrubDue 0 = false ∧ (scrubFrom se.chip.die.part (se.chip.has 0x27 SCB_CFG_NVMEN) (se.chip.get 0x27 SCB_POS_ARRAY) (se.chip.get 0x27 SCB_POS_WORD)).isSome = true ∧ (late en.chip).scrubDue 0 = true ∧ op.chip.scrubDue (0x11 % 65536) = false) := by decide +kernel

end IntegrityCommands

namespace SingleSymbolErrors

/-- A state or operand for the premises. -/
def m : Chip := State.reset.chip

/-- A state or operand for the premises. -/
def u (p v : Nat) : Chip := { m with upset := [(memAddr 0x10 8, v * 2 ^ (8 * p))] }

/-- States and operands that meet the premises of `SingleSymbolErrors`, clause by clause. -/
theorem test_premises :
    ((14 : Nat) < 15 ∧ m.upsets 0x10 1 = 0 ∧ (u 11 255).upsets 0x10 1 = 255 * 2 ^ (8 * 11) ∧ 11 < 12 ∧ 12 ≤ 14) := by decide +kernel

end SingleSymbolErrors

namespace RecorderCommands

/-- A state or operand for the premises. -/
def s : State := State.reset

/-- A state or operand for the premises. -/
def r (st : Bool) : State := mk fun m => { (m.put 0x24 HDR_CTRL_ENABLE 1).put 0x22 THM_STAT_NVMOK 1 with nv := { m.nv with ready := true, vinLow := false, regions := ⟨0, 100, 0⟩ :: ⟨100, 20, 1⟩ :: List.replicate 6 {} }, rcd := { m.rcd with started := st, buckets := [⟨0xFFFF, 0, 0, 0, 0⟩] } }

/-- A state or operand for the premises. -/
def lk : State := { r true with chip := { (r true).chip with nv := { (r true).chip.nv with pwds := (0, 0) :: (5, 5) :: List.replicate 7 (0, 0) } } }

/-- A state or operand for the premises. -/
def op : State := { r false with chip := { (r false).chip with rcd := { (r false).chip.rcd with opening := true } } }

/-- A state or operand for the premises. -/
def nq : State := { r false with chip := { (r false).chip with nv := { (r false).chip.nv with vinLow := true } } }

/-- States and operands that meet the premises of `RecorderCommands`, clause by clause. -/
theorem test_premises :
    (Running s ∧ (r true).chip.recMay = true ∧ s.chip.recMay = false ∧ (r true).chip.rcd.started = true ∧ (r false).chip.rcd.started = false ∧ (r false).chip.enabled 0x24 = true ∧ (r false).chip.nvClosed = false ∧ (r false).chip.nvPermitted = true ∧ (r false).chip.nv.writing = false) ∧
    ((r false).chip.recRegion ≠ none ∧ (r false).chip.rcd.opening = false ∧ op.chip.rcd.opening = true ∧ nq.chip.rcd.started = false ∧ nq.chip.rcd.opening = false ∧ nq.chip.enabled 0x24 = true ∧ nq.chip.nvClosed = false ∧ nq.chip.recRegion ≠ none ∧ nq.chip.nvPermitted = false ∧ (r true).chip.rcd.hdrDue = false ∧ (r true).chip.upset = []) ∧
    (pageAbsent s.chip.die.part 0x24 = false ∧ s.chip.busy 0x24 = false ∧ lk.chip.recReadable (reqCode .i2c) = false ∧ s.chip.nvClosed = true ∧ (r true).chip.recReadable (reqCode .i2c) = true ∧ (r true).chip.nvClosed = false ∧ (0xF000 : Word).toNat % 4096 = 0 ∧ (0xEFFF : Word).toNat % 65536 / 4096 ≠ 15 ∧ (0xFFFF : Word).toNat % 65536 / 4096 = 15) ∧
    ((0xFFFF : Word).toNat % 4096 ≠ 0 ∧ Requester.i2c ≠ .loader) ∧
    ((r true).chip.rcd.started = true ∧ (r true).chip.enabled 0x24 = true ∧ (r true).chip.nvPermitted = true ∧ headerTicks ≤ (late (r true).chip).ticksSince (late (r true).chip).rcd.headAt ∧ ¬(headerTicks ≤ (r true).chip.ticksSince (r true).chip.rcd.headAt) ∧ (late (r true).chip).nvPermitted = true) :=
  by refine ⟨?_, ?_, ?_, ?_, ?_⟩ <;> decide +kernel

end RecorderCommands

namespace BlackBoxCommands

/-- A state or operand for the premises. -/
def s : State := State.reset

/-- A state or operand for the premises. -/
def t : State := mk fun m => { m with die := { m.die with part := .sv6408 } }

/-- A state or operand for the premises. -/
def b (st : Nat) : State := mk fun m => { ((m.put 0x25 BBX_STAT_STATE st).put 0x25 BBX_STAT_NSLOT 8).put 0x22 THM_STAT_NVMOK 1 with host := { m.host with unlocked := [(1, 0x25)] }, nv := { m.nv with ready := true, vinLow := false, regions := ⟨0, 20, 0⟩ :: ⟨20, 100, 2⟩ :: List.replicate 6 {} }, bbx := { m.bbx with slot := 7 } }

/-- A state or operand for the premises. -/
def na : State := { b 2 with chip := ((b 2).chip.put 0x25 BBX_STAT_NSLOT 0).put 0x25 BBX_CFG_OVRW 0 }

/-- A state or operand for the premises. -/
def rf : State := { b 4 with chip := { (b 4).chip with bbx := { (b 4).chip.bbx with lastRefuse := some (b 4).chip.tim.tick } } }

/-- States and operands that meet the premises of `BlackBoxCommands`, clause by clause. -/
theorem test_premises :
    (Running s ∧ isFull t.chip.die.part = false ∧ isFull s.chip.die.part = true ∧ (b 4).chip.get 0x25 BBX_STAT_STATE = 4 ∧ s.chip.get 0x25 BBX_STAT_STATE = 0 ∧ (b 2).chip.get 0x25 BBX_STAT_STATE ∈ [1, 2] ∧ (b 2).chip.bbxSlotAvail = true ∧ (b 3).chip.get 0x25 BBX_STAT_STATE = 3 ∧ isHost (reqCode .loader) = false) ∧
    (s.chip.unlockedFor (reqCode .i2c) 0x25 = false ∧ (b 4).chip.unlockedFor (reqCode .i2c) 0x25 = true) ∧
    ((b 4).chip.nv.ownedBy 2 = some ⟨20, 100, 2⟩ ∧ (b 4).chip.nvClosed = false ∧ (b 4).chip.nvPermitted = true ∧ (b 4).chip.nv.writing = false ∧ (b 4).chip.nv.betweenPages = true ∧ s.chip.nvClosed = true ∧ (b 4).chip.bbx.slot < (b 4).chip.get 0x25 BBX_STAT_NSLOT ∧ (b 4).chip.bbx.slot < 8 ∧ bbxSource s.chip.die.part (0xFF / 32 % 8) (0xFF % 32) = false) ∧
    (s.chip.get 0x25 BBX_STAT_STATE ≠ 4 ∧ na.chip.get 0x25 BBX_STAT_STATE ∈ [1, 2] ∧ na.chip.bbxSlotAvail = false ∧ na.chip.bbx.lastRefuse ≠ some na.chip.tim.tick ∧ (b 4).chip.bbx.lastRefuse ≠ some (b 4).chip.tim.tick ∧ rf.chip.get 0x25 BBX_STAT_STATE = 4 ∧ rf.chip.bbx.lastRefuse = some rf.chip.tim.tick) ∧
    ((b 3).chip.bbx.lastTrig = (b 3).chip.tim.tick ∧ (late (b 3).chip).bbx.lastTrig ≠ (late (b 3).chip).tim.tick) :=
  by refine ⟨?_, ?_, ?_, ?_, ?_⟩ <;> decide +kernel

end BlackBoxCommands

namespace PairingCommands

/-- A state or operand for the premises. -/
def s : State := State.reset

/-- A state or operand for the premises. -/
def pz (x : PairSt) (role : Nat) : State := mk fun m => { m.put 0x35 PAIR_STAT_ROLE role with pair := { x with released := true, paired := true }, tim := { m.tim with tick := 2 ^ 40 } }

/-- A state or operand for the premises. -/
def hb (f : Chip → Chip) (x : PairSt) (role : Nat) : State := { pz x role with chip := f (pz x role).chip }

/-- A state or operand for the premises. -/
def hbok : State := hb (fun m => (m.put 0x35 PAIR_STAT_HBOK 1).put 0x35 PAIR_STAT_LINK 1) {} 0

/-- A state or operand for the premises. -/
def linked : State := hb (fun m => ((m.put 0x35 PAIR_STAT_HBOK 1).put 0x35 PAIR_STAT_LINK 1).put 0x35 PAIR_STAT_PMCNT 8 |>.put 0x35 PAIR_CFG_AUTOHO 1) { leadSince := some 0 } 1

/-- A state or operand for the premises. -/
def ho : State := hb (fun m => { m.acceptOp 0x35 1 0 1 with ops := [{ page := 0x35, cmd := 1, arg := 0, req := 1, phase := 1, a := 0 }] }) {} 1

/-- A state or operand for the premises. -/
def act : State := hb (fun m => ((m.put (marPg 0) MAR_MDMEAS_MDVALID 1).put (marPg 0) HDR_CTRL_ENABLE 1).put (pwmPg 0) PWM_PHCFG_LOOP 0 0 |>.put (marPg 0) MAR_STAT_MODE mdAuto) { act := some 0 } 0

/-- A state or operand for the premises. -/
def hn : State := hb (fun m => { m.acceptOp 0x35 1 0 1 with ops := [{ page := 0x35, cmd := 1, arg := 0, req := 1, phase := 1, a := 2 ^ 40 - 199999 }] }) {} 1

/-- States and operands that meet the premises of `PairingCommands`, clause by clause. -/
theorem test_premises :
    (Running s ∧ s.chip.pair.released = false ∧ (pz {} 0).chip.pair.released = true ∧ (pz {} 0).chip.pair.paired = true ∧ (pz {} 0).chip.role = 0 ∧ (List.replicate 23 (0 : Byte)).length ≠ 24 ∧ (List.replicate 24 (0 : Byte)).length = 24 ∧ 7 ≤ (pz { run := 7 } 0).chip.pair.run ∧ hbok.chip.linkUp = true) ∧
    (hbok.chip.get 0x35 PAIR_STAT_HBOK = 1 ∧ hbok.chip.hbtoTicks ≤ hbok.chip.ticksSince hbok.chip.pair.hbTick ∧ (pz {} 0).chip.get 0x35 PAIR_STAT_HBOK = 0 ∧ (pz {} 1).chip.role = 1 ∧ (pz {} 1).chip.pair.mirSent = none ∧ (pz {} 0).chip.role ≠ 1 ∧ (pz { mirSent := some (2 ^ 40 - 19999) } 1).chip.ticksSince (2 ^ 40 - 19999) < 20000) ∧
    ((pz {} 0).chip.pair.nextSeq = none ∧ (pz { nextSeq := some 5, mirTick := some 0 } 0).chip.pair.mirTick = some 0 ∧ 30000 ≤ (pz {} 0).chip.ticksSince 0 ∧ (pz {} 0).chip.pair.acked = none ∧ (pz { acked := some (2 ^ 40 - 2000, {}) } 0).chip.pair.acked = some (2 ^ 40 - 2000, {}) ∧ (pz {} 0).chip.ticksSince (2 ^ 40 - 2000) = 2000) ∧
    ((pz {} 0).chip.pair.hbSeen = false ∧ (if (pz {} 0).chip.get 0x35 PAIR_STAT_POS = 1 then 6000 else 2000) * 200 ≤ (pz {} 0).chip.ticksSince (pz {} 0).chip.pair.since ∧ (pz { hbSeen := true } 0).chip.pair.hbSeen = true ∧ (pz {} 1).chip.linkUp = false ∧ (pz {} 0).chip.pair.act = none ∧ (pz { act := some 0 } 0).chip.actTicks ≤ (pz { act := some 0 } 0).chip.ticksSince 0 ∧ (pz { act := some 0 } 0).chip.activeLoops = []) ∧
    (act.chip.pair.act = some 0 ∧ act.chip.actTicks ≤ act.chip.ticksSince 0 ∧ act.chip.activeLoops ≠ [] ∧ linked.chip.pair.leadSince = some 0 ∧ linked.chip.get 0x35 PAIR_CFG_AUTOHO = 1 ∧ 200000000 ≤ linked.chip.ticksSince 0 ∧ linked.chip.handoverBar = none ∧ linked.chip.busy 0x35 = false ∧ (pz {} 0).chip.pair.leadSince = none) ∧
    (ho.chip.opOf 0x35 = some { page := 0x35, cmd := 1, arg := 0, req := 1, phase := 1, a := 0 } ∧ ho.chip.role = 1 ∧ 200000 ≤ ho.chip.ticksSince 0 ∧ (pz {} 0).chip.opOf 0x35 = none ∧ (List.replicate 72 (0 : Byte)).length = 72 ∧ pageAbsent s.chip.die.part 0x35 = false ∧ s.chip.busy 0x35 = false) ∧
    ((hb (fun m => m.put 0x35 PAIR_STAT_PMSI 1) {} 0).chip.get 0x35 PAIR_STAT_PMSI = 1 ∧ (pz {} 0).chip.get 0x35 PAIR_STAT_PMSI = 0 ∧ hn.chip.opOf 0x35 = some { page := 0x35, cmd := 1, arg := 0, req := 1, phase := 1, a := 2 ^ 40 - 199999 } ∧ hn.chip.role = 1 ∧ hn.chip.ticksSince (2 ^ 40 - 199999) < 200000) :=
  by refine ⟨?_, ?_, ?_, ?_, ?_, ?_, ?_⟩ <;> decide +kernel

end PairingCommands

end Sys2Proof.Tests
end

section
/-! PROOFS. KEY sequences (R40–R43): what each word of a sequence leaves in the host interfaces, and what a plain write
by a requester that has not unlocked the page leaves in its registers. -/

namespace Sys2Proof.Machine

/-! ### Requesters and lists without repetition -/

/-- No two requesters share a code. -/
theorem reqCode_injective : Function.Injective reqCode := by
  intro a b h
  cases a <;> cases b <;> grind [reqCode]

/-- Code 3 is the loader's alone. -/
theorem reqCode_eq_three (r : Requester) : reqCode r = 3 ↔ r = .loader := reqCode_injective.eq_iff (b := .loader)

@[simp] theorem mem_addOnce {α : Type} [BEq α] [LawfulBEq α] (l : List α) (x y : α) :
    y ∈ addOnce l x ↔ y ∈ l ∨ y = x := by
  unfold addOnce
  split
  · rename_i hx
    have hx : x ∈ l := List.contains_iff_mem.mp hx
    exact ⟨.inl, fun h => h.elim id (fun e => e ▸ hx)⟩
  · simp

@[simp] theorem mem_dropAll {α : Type} [BEq α] [LawfulBEq α] (l : List α) (x y : α) :
    y ∈ dropAll l x ↔ y ∈ l ∧ y ≠ x := by
  simp [dropAll]

/-! ### The words of a sequence -/

/-- The machine with other host interfaces. -/
def State.withHost (s : State) (h : HostSt) : State := { s with chip := { s.chip with host := h } }

@[simp] theorem State.withHost_host (s : State) (h : HostSt) : (s.withHost h).chip.host = h := rfl

/-- The host interfaces after the good first word of a sequence. -/
def HostSt.halfOpen (h : HostSt) (r pg : Nat) : HostSt := { h with half := addOnce h.half (r, pg) }

/-- The host interfaces after the good second word of a sequence, at a clock. -/
def HostSt.unlock (h : HostSt) (r pg tick : Nat) : HostSt :=
  { h with half := dropAll h.half (r, pg), unlocked := addOnce h.unlocked (r, pg), fails := Sparse.drop h.fails r,
           unlockAt := Sparse.put h.unlockAt (unlockKey r pg) tick }

/-- The host interfaces after a word of 0. -/
def HostSt.lock (h : HostSt) (r pg : Nat) : HostSt :=
  { h with unlocked := dropAll h.unlocked (r, pg), half := dropAll h.half (r, pg) }

theorem HostSt.mem_half_halfOpen (h : HostSt) (r pg : Nat) : (r, pg) ∈ (h.halfOpen r pg).half :=
  (mem_addOnce _ _ _).mpr (.inr rfl)

/-- The second word unlocks the page for the requester, and leaves every other page and requester as they were. -/
theorem State.unlockedFor_unlock (s : State) (r pg tick q p : Nat) :
    (s.withHost (s.chip.host.unlock r pg tick)).chip.unlockedFor q p =
      (s.chip.unlockedFor q p || decide ((q, p) = (r, pg))) := by
  simp [Chip.unlockedFor, HostSt.unlock, Bool.or_assoc]

/-- After a word of 0 the loader alone, whose unlock is on every page (R43), holds one of the page. -/
theorem State.unlockedFor_lock (s : State) (r pg : Nat) :
    (s.withHost (s.chip.host.lock r pg)).chip.unlockedFor r pg = (r == 3) := by
  simp [Chip.unlockedFor, HostSt.lock]

theorem Chip.keyWrite_first (m : Chip) (r pg : Nat) (hb : r ∉ m.host.barred) (hh : (r, pg) ∉ m.host.half) :
    m.keyWrite r pg 0x5E64 = { m with host := m.host.halfOpen r pg } := by
  simp [Chip.keyWrite, hb, hh, HostSt.halfOpen]

theorem Chip.keyWrite_second (m : Chip) (r pg : Nat) (hb : r ∉ m.host.barred) (hh : (r, pg) ∈ m.host.half) :
    m.keyWrite r pg 0xA19B = { m with host := m.host.unlock r pg m.tim.tick } := by
  simp [Chip.keyWrite, hb, hh, Chip.rwlSeen, HostSt.unlock]

theorem Chip.keyWrite_zero (m : Chip) (r pg : Nat) (hb : r ∉ m.host.barred) :
    m.keyWrite r pg 0 = { m with host := m.host.lock r pg } := by
  simp [Chip.keyWrite, hb, HostSt.lock]

/-- The command KEY_WRITE on a present page, where the word changes the host interfaces alone. -/
theorem exec_keyWrite_of_host (r : Requester) (page : Fin 64) (v : Word) (s : State) (h : HostSt) (hs : Running s)
    (hpin : page.val ≠ 0x3F) (hpage : pageAbsent s.chip.die.part page.val = false)
    (hkey : s.chip.keyWrite (reqCode r) page.val v.toNat = { s.chip with host := h }) :
    exec (.keyWrite r page v) s = .next (s.withHost h) := by
  obtain ⟨hheld, hclk⟩ := hs
  have heff : s.chip.onPage (reqCode r) page.val
      (fun m => if page.val = 0x3F then m else m.keyWrite (reqCode r) page.val v.toNat) =
        (s.withHost h).chip := by
    simp only [Chip.onPage, hpage, hpin, Bool.false_eq_true, if_false]
    exact hkey
  calc exec (.keyWrite r page v) s
      = .next (s.act _) := State.run_of_not_held s _ hheld
    _ = .next { s with chip := _ } := congrArg _
        (State.act_of_clear s _ ((congrArg Chip.clk heff).trans hclk) ((congrArg Chip.die heff).trans rfl))
    _ = .next (s.withHost h) := by rw [heff]; rfl

/-! ### A plain write to a locked page (R43) -/

/-- On a locked page a bit that is neither RW nor W1C keeps its value. -/
theorem testBit_plainValue_locked (fs : List Fld) (old v i : Nat) (hrw : (accMask fs .rw).testBit i = false)
    (hw1c : (accMask fs .w1c).testBit i = false) : (plainValue fs old v false).testBit i = old.testBit i := by
  simp [plainValue, hrw, hw1c]

/-- A register holds the low 32 bits of what is stored, so a bit that agrees with a word's agrees after the store. -/
theorem testBit_ofNat_of_eq (w : Word) (x i : Nat) (h : x.testBit i = w.toNat.testBit i) :
    (BitVec.ofNat 32 x).toNat.testBit i = w.toNat.testBit i := by
  have hw : w.toNat % 2 ^ 32 = w.toNat := Nat.mod_eq_of_lt w.isLt
  rw [BitVec.toNat_ofNat, Nat.testBit_mod_two_pow, h, ← Nat.testBit_mod_two_pow, hw]

/-- GLB's registers that tell of a locked write, ERRS and IRQ_RAW, hold no RWL bit. -/
theorem ne_lockErr_of_rwl {a i : Nat} (h : (accMask (fieldsAt (a / 0x400) (a % 0x400)) .rwl).testBit i = true) :
    a ≠ GLB_ERRS_LOCKWR.addr 0 ∧ a ≠ HDR_IRQ_RAW_BITS.addr 0 := by
  have herrs : accMask (fieldsAt 0 0x54) .rwl = 0 := by decide
  have hraw : accMask (fieldsAt 0 0x10) .rwl = 0 := by decide
  constructor <;> rintro rfl
  · exact absurd (herrs ▸ h) (by simp)
  · exact absurd (hraw ▸ h) (by simp)

/-- A locked write is told of in ERRS and IRQ_RAW of GLB only. -/
theorem Chip.rd_lockErr_ne (m : Chip) (k : Nat) (herrs : k ≠ GLB_ERRS_LOCKWR.addr 0)
    (hraw : k ≠ HDR_IRQ_RAW_BITS.addr 0) : m.lockErr.rd k = m.rd k :=
  (Chip.rd_put_ne _ 0 HDR_IRQ_RAW_BITS _ 0 k hraw).trans (Chip.rd_put_ne m 0 GLB_ERRS_LOCKWR 1 0 k herrs)

/-- The re-arm pulse of INT# changes no register. -/
@[simp] theorem Chip.rd_rearm (m : Chip) (w : Bool) (k : Nat) : (m.rearm w).rd k = m.rd k := by
  unfold Chip.rearm
  split <;> rfl

/-- A plain write by a requester that has not unlocked the page changes no bit that is RWL alone (R43). -/
theorem Chip.testBit_rd_plainWrite_locked (m : Chip) (r a v i : Nat) (hl : m.unlockedFor r (a / 0x400) = false)
    (hrwl : (accMask (fieldsAt (a / 0x400) (a % 0x400)) .rwl).testBit i = true)
    (hrw : (accMask (fieldsAt (a / 0x400) (a % 0x400)) .rw).testBit i = false)
    (hw1c : (accMask (fieldsAt (a / 0x400) (a % 0x400)) .w1c).testBit i = false) :
    ((m.plainWrite r a v).rd a).toNat.testBit i = (m.rd a).toNat.testBit i := by
  obtain ⟨herrs, hraw⟩ := ne_lockErr_of_rwl hrwl
  have hval := testBit_ofNat_of_eq (m.rd a) _ i
    (testBit_plainValue_locked _ (m.rd a).toNat (clampWord (a / 0x400) (a % 0x400) v) i hrw hw1c)
  simp only [Chip.plainWrite, Chip.rd_rearm, hl]
  split
  · rw [Chip.rd_lockErr_ne _ a herrs hraw, Chip.rd_wr_same, hval]
  · rw [Chip.rd_wr_same, hval]

/-! ### The obligation -/

/-- Settles O8: the first word leaves the sequence half open, the second unlocks for its requester alone, and the RWL
bits of the page stay out of reach of every requester that held no unlock. -/
theorem keySequenceUnlocks : Obligations.KeySequenceUnlocks := by
  intro r q page p s hs hpin hpage hb hh
  have hb : reqCode r ∉ s.chip.host.barred := by simpa using hb
  have hh : (reqCode r, page.val) ∉ s.chip.host.half := by simpa using hh
  let t := s.withHost (s.chip.host.halfOpen (reqCode r) page.val)
  let u := t.withHost (t.chip.host.unlock (reqCode r) page.val t.chip.tim.tick)
  have hfirst : exec (.keyWrite r page 0x5E64) s = .next t :=
    exec_keyWrite_of_host r page _ s _ hs hpin hpage (s.chip.keyWrite_first _ _ hb hh)
  have hsecond : exec (.keyWrite r page 0xA19B) t = .next u :=
    exec_keyWrite_of_host r page _ t _ hs hpin hpage (t.chip.keyWrite_second _ _ hb (HostSt.mem_half_halfOpen _ _ _))
  have hzero := exec_keyWrite_of_host r page 0 s _ hs hpin hpage (s.chip.keyWrite_zero _ _ hb)
  have hself : u.chip.unlockedFor (reqCode r) page.val = true := by simp [u, State.unlockedFor_unlock]
  have hother (p : Fin 64) (hne : q ≠ r ∨ p ≠ page) :
      u.chip.unlockedFor (reqCode q) p.val = s.chip.unlockedFor (reqCode q) p.val := by
    have hpair : (reqCode q, p.val) ≠ (reqCode r, page.val) := by
      intro e
      obtain ⟨hreq, hpg⟩ := Prod.mk.inj e
      exact hne.elim (fun h => h (reqCode_injective hreq)) (fun h => h (Fin.ext hpg))
    have ht : t.chip.unlockedFor (reqCode q) p.val = s.chip.unlockedFor (reqCode q) p.val := rfl
    simp only [u, State.unlockedFor_unlock, hpair, ht, decide_false, Bool.or_false]
  refine ⟨⟨t, u, hfirst, hsecond, hself, hother p, ?_, rfl, rfl⟩, _, hzero, ?_, rfl⟩
  · intro hqr hlock a v i ha fs hrwl hrw hw1c
    have hlocked := (hother page (.inl hqr)).trans hlock
    rw [← ha] at hlocked
    simp only [fs, ← ha] at hrwl hrw hw1c
    exact u.chip.testBit_rd_plainWrite_locked _ a v i hlocked hrwl hrw hw1c
  · rw [State.unlockedFor_lock, Bool.eq_iff_iff, beq_iff_eq, decide_eq_true_eq]
    exact reqCode_eq_three r

end Sys2Proof.Machine
end

section
/-! PROOFS. Telling of a happening (R381–R383): on the pages of the engines and of the event fabric it only sets bits, and
it leaves the routes; a line that rises sets the bits that its routes name. -/

namespace Sys2Proof.Machine

/-! ### Single bits of a field -/

theorem testBit_setBit (n i j : Nat) : (setBit n i).testBit j = (decide (i = j) || n.testBit j) := by
  rw [setBit, Nat.one_shiftLeft, Nat.testBit_or, Nat.testBit_two_pow, Bool.or_comm]

/-- To clear a bit is to replace a field of one bit by 0. -/
theorem clearBit_eq_setBits (n i : Nat) : clearBit n i = setBits n i 1 0 := by
  have hbit : n >>> i % 2 = (n.testBit i).toNat := by rw [Nat.toNat_testBit, Nat.shiftRight_eq_div_pow]
  cases h : n.testBit i <;> simp [clearBit, setBits, bitsOf, hbit, h]

theorem testBit_clearBit (n i j : Nat) : (clearBit n i).testBit j = (decide (i ≠ j) && n.testBit j) := by
  rw [clearBit_eq_setBits, testBit_setBits]
  rcases Nat.lt_trichotomy j i with h | rfl | h
  · simp [h, Nat.ne_of_gt h]
  · simp
  · have hlo : ¬ j < i := by omega
    have hhi : ¬ j < i + 1 := by omega
    have hne : i ≠ j := by omega
    simp [hlo, hhi, hne]

/-- The bits of a mask after one of them is set. -/
theorem Chip.testBit_get_maskSet (m : Chip) (pg : Nat) (f : Fld) (b i j : Nat) (hw : f.lo + f.wd ≤ 32) (hj : j < f.wd) :
    ((m.maskSet pg f b i).get pg f i).testBit j = (decide (b = j) || (m.get pg f i).testBit j) := by
  rw [Chip.maskSet, Chip.get_put_same m pg f _ i hw, Nat.testBit_mod_two_pow, testBit_setBit]
  simp [hj]

theorem Chip.testBit_get_maskSet_same (m : Chip) (pg : Nat) (f : Fld) (b i : Nat) (hw : f.lo + f.wd ≤ 32)
    (hb : b < f.wd) : ((m.maskSet pg f b i).get pg f i).testBit b = true := by
  rw [Chip.testBit_get_maskSet m pg f b i b hw hb]
  simp

/-- The bits of a mask after one of them is cleared. -/
theorem Chip.testBit_get_maskClr (m : Chip) (pg : Nat) (f : Fld) (b i j : Nat) (hw : f.lo + f.wd ≤ 32) (hj : j < f.wd) :
    ((m.maskClr pg f b i).get pg f i).testBit j = (decide (b ≠ j) && (m.get pg f i).testBit j) := by
  rw [Chip.maskClr, Chip.get_put_same m pg f _ i hw, Nat.testBit_mod_two_pow, testBit_clearBit]
  simp [hj]

/-! ### Fields that count -/

theorem satInc_lt (wd n : Nat) : satInc wd n < 2 ^ wd := by
  have := Nat.two_pow_pos wd
  unfold satInc
  split <;> omega

/-- A field that counts reads as one more, saturating. -/
theorem Chip.get_count_same (m : Chip) (pg : Nat) (f : Fld) (i : Nat) (hw : f.lo + f.wd ≤ 32) :
    (m.count pg f i).get pg f i = satInc f.wd (m.get pg f i) := by
  rw [Chip.count, Chip.get_put_same _ _ _ _ _ hw, Nat.mod_eq_of_lt (satInc_lt _ _)]

/-! ### What telling keeps -/

/-- The pages of the engines and of the event fabric. -/
def latchPage (p : Nat) : Bool := (decide (0x28 ≤ p) && decide (p < 0x30)) || p == 0x31

/-- The registers of the routing matrix (R381). -/
def RouteKey (k : Nat) : Prop := EVT_RE_ROUTE.addr 0x31 ≤ k ∧ k < 0x32 * 0x400

/-- The second machine holds every bit that the first holds on the pages of the engines and of the event fabric, and the
same routes. -/
structure Chip.Latches (m n : Chip) : Prop where
  bits : ∀ k i, latchPage (k / 0x400) = true → (m.rd k).toNat.testBit i = true → (n.rd k).toNat.testBit i = true
  routes : ∀ k, RouteKey k → n.rd k = m.rd k

theorem Chip.Latches.refl (m : Chip) : m.Latches m := ⟨fun _ _ _ h => h, fun _ _ => rfl⟩

theorem Chip.Latches.trans {a b c : Chip} (x : a.Latches b) (y : b.Latches c) : a.Latches c :=
  ⟨fun k i hk h => y.bits k i hk (x.bits k i hk h), fun k hk => (y.routes k hk).trans (x.routes k hk)⟩

/-- A machine whose registers on these pages are those of another. -/
theorem Chip.Latches.of_rd {m n : Chip} (h : ∀ k, latchPage (k / 0x400) = true → n.rd k = m.rd k) : m.Latches n := by
  refine ⟨fun k i hk hi => (h k hk).symm ▸ hi, fun k hk => h k ?_⟩
  obtain ⟨hlo, hhi⟩ := hk
  have hpg : k / 0x400 = 0x31 := by simp only [Fld.addr, EVT_RE_ROUTE] at hlo; omega
  rw [hpg]
  rfl

/-- What leaves the registers alone. -/
theorem Chip.Latches.of_regs {m n : Chip} (h : n.regs = m.regs) : m.Latches n :=
  .of_rd (fun k _ => congrArg (fun l => Sparse.get regDefault l k) h)

theorem Chip.Latches.foldl {α : Type} {f : Chip → α → Chip} (hf : ∀ (n : Chip) b, n.Latches (f n b)) (l : List α) (m : Chip) :
    m.Latches (l.foldl f m) := by
  induction l generalizing m with
  | nil => exact .refl m
  | cons a t ih => exact (hf m a).trans (ih (f m a))

/-- A field of another page. -/
theorem Chip.put_latches (m : Chip) (pg : Nat) (f : Fld) (v i : Nat) (hp : latchPage pg = false)
    (hi : f.off + f.stride * i < 0x400) : m.Latches (m.put pg f v i) := by
  refine .of_rd (fun k hk => Chip.rd_put_ne m pg f v i k (fun e => ?_))
  have hpg : k / 0x400 = pg := by subst e; simp only [Fld.addr]; omega
  rw [hpg, hp] at hk
  cases hk

/-- A bit that is set in a register that holds no route. -/
theorem Chip.maskSet_latches (m : Chip) (pg : Nat) (f : Fld) (b i : Nat) (hw : f.lo + f.wd ≤ 32)
    (hr : ¬ RouteKey (f.addr pg i)) : m.Latches (m.maskSet pg f b i) := by
  refine ⟨fun k j _ hj => ?_, fun k hk => Chip.rd_put_ne m pg f _ i k (fun e => hr (e ▸ hk))⟩
  by_cases hk : k = f.addr pg i
  · subst hk
    rw [Chip.maskSet, Chip.put, Chip.rd_wr_same, BitVec.toNat_ofNat,
      Nat.mod_eq_of_lt (setBits_lt _ _ _ _ (m.rd (f.addr pg i)).isLt hw), testBit_setBits]
    split
    · exact hj
    · split
      · rename_i hlo hhi
        have hsum : f.lo + (j - f.lo) = j := by omega
        have hwd : j - f.lo < f.wd := by omega
        rw [testBit_setBit, Chip.get, testBit_bitsOf, hsum, hj]
        simp [hwd]
      · exact hj
  · rw [Chip.maskSet, Chip.rd_put_ne m pg f _ i k hk]
    exact hj

/-- A bit of a field on these pages stays set. -/
theorem Chip.Latches.get {m n : Chip} (h : m.Latches n) {pg : Nat} {f : Fld} {i b : Nat} (hp : latchPage pg = true)
    (hi : f.off + f.stride * i < 0x400) (hb : (m.get pg f i).testBit b = true) : (n.get pg f i).testBit b = true := by
  have hpg : latchPage (f.addr pg i / 0x400) = true := by
    rw [show f.addr pg i / 0x400 = pg by simp only [Fld.addr]; omega]
    exact hp
  rw [Chip.get, testBit_bitsOf, Bool.and_eq_true] at hb ⊢
  exact ⟨hb.1, h.bits _ _ hpg hb.2⟩

/-- The routes stay. -/
theorem Chip.Latches.routed {m n : Chip} (h : m.Latches n) (f : Fld) (l base : Nat)
    (hr : RouteKey (f.addr 0x31 (base + l / 32))) : n.routed f l base = m.routed f l base := by
  rw [Chip.routed, Chip.routed, Chip.get, Chip.get, h.routes _ hr]

/-- The words of the routing matrix that hold a line's routes to engine `x` and to INT#. -/
theorem routeKey_engine {n x : Nat} (hn : n / 32 < 8) (hx : x < 8) : RouteKey (EVT_RE_ROUTE.addr 0x31 (8 * x + n / 32)) := by
  simp only [RouteKey, Fld.addr, EVT_RE_ROUTE]
  omega

theorem routeKey_int {n : Nat} (hn : n / 32 < 8) : RouteKey (EVT_RIRQ_ROUTE.addr 0x31 (0 + n / 32)) := by
  simp only [RouteKey, Fld.addr, EVT_RIRQ_ROUTE, EVT_RE_ROUTE]
  omega

/-- The IRQ register of a page holds no route. -/
theorem not_routeKey_irq (pg : Nat) : ¬ RouteKey (HDR_IRQ_RAW_BITS.addr pg) := by
  simp only [RouteKey, Fld.addr, HDR_IRQ_RAW_BITS, EVT_RE_ROUTE]
  omega

theorem Chip.irq_latches (m : Chip) (pg b : Nat) : m.Latches (m.irq pg b) :=
  m.maskSet_latches pg _ b 0 (by decide) (not_routeKey_irq pg)

/-! ### A line that rises -/

/-- A line that does not rise: reserved, of an absent unit, or risen in this clock already (R379, R380). -/
def Chip.silent (m : Chip) (n : Nat) : Bool := lineReserved n || lineAbsent m.die.part n || m.clk.seen.contains n

/-- The edge of a line and its latch. -/
def Chip.edgeSeen (m : Chip) (n : Nat) : Chip :=
  let e : Edge := ⟨n, m.stamp, m.tim.tick⟩
  let m := { m with clk := { m.clk with edges := m.clk.edges ++ [e], seen := m.clk.seen ++ [n] } }
  m.maskSet 0x31 EVT_LATCH_SEEN (n % 32) (n / 32)

/-- Sequencing sees the line that it awaits. -/
def Chip.awaited (m : Chip) (n : Nat) : Chip :=
  if m.seq.evLine = some n then { m with seq := { m.seq with evSeen := true } } else m

/-- The pending bit of one engine, where its mask routes the line. -/
def Chip.pend (n : Nat) (m : Chip) (x : Nat) : Chip :=
  if m.routed EVT_RE_ROUTE n (8 * x) then m.maskSet (0x28 + x) ENG_EVPEND_PEND (n % 32) (n / 32) else m

/-- IRQ bit LINE, where the line is routed to INT#. -/
def Chip.lineIrq (m : Chip) (n : Nat) : Chip := if m.routed EVT_RIRQ_ROUTE n 0 then m.irq 0x31 4 else m

theorem Chip.raise_eq (m : Chip) (n : Nat) :
    m.raise n = if m.silent n then m else
      ((List.range 8).foldl (Chip.pend n) ((m.edgeSeen n).awaited n)).lineIrq n := rfl

theorem Chip.raise_of_silent {m : Chip} {n : Nat} (h : m.silent n = true) : m.raise n = m := by
  rw [Chip.raise_eq, if_pos h]

theorem Chip.raise_of_rises {m : Chip} {n : Nat} (h : m.silent n = false) :
    m.raise n = ((List.range 8).foldl (Chip.pend n) ((m.edgeSeen n).awaited n)).lineIrq n := by
  rw [Chip.raise_eq, h, if_neg Bool.false_ne_true]

/-- A line that rises is one of those that LATCH, EVPEND and the masks have a bit for. -/
theorem line_word_lt_of_not_reserved {n : Nat} (h : lineReserved n = false) : n / 32 < 8 := by
  simp only [lineReserved, Bool.or_eq_false_iff, decide_eq_false_iff_not] at h
  omega

theorem Chip.line_word_lt_of_rises {m : Chip} {n : Nat} (h : m.silent n = false) : n / 32 < 8 := by
  rw [Chip.silent, Bool.or_eq_false_iff, Bool.or_eq_false_iff] at h
  exact line_word_lt_of_not_reserved h.1.1

theorem Chip.edgeSeen_latches (m : Chip) {n : Nat} (h : n / 32 < 8) : m.Latches (m.edgeSeen n) := by
  have hset (a : Chip) (ha : a.regs = m.regs) : m.Latches (a.maskSet 0x31 EVT_LATCH_SEEN (n % 32) (n / 32)) :=
    (Chip.Latches.of_regs ha).trans (a.maskSet_latches _ _ _ _ (by decide) (by
      simp only [RouteKey, Fld.addr, EVT_LATCH_SEEN, EVT_RE_ROUTE]; omega))
  exact hset _ rfl

theorem Chip.awaited_latches (m : Chip) (n : Nat) : m.Latches (m.awaited n) := by
  unfold Chip.awaited
  split
  · exact .of_regs rfl
  · exact .refl m

theorem Chip.pend_latches (n : Nat) (m : Chip) (x : Nat) (h : n / 32 < 8) : m.Latches (Chip.pend n m x) := by
  unfold Chip.pend
  split
  · refine m.maskSet_latches _ _ _ _ (by decide) ?_
    simp only [RouteKey, Fld.addr, ENG_EVPEND_PEND, EVT_RE_ROUTE]
    omega
  · exact .refl m

theorem Chip.lineIrq_latches (m : Chip) (n : Nat) : m.Latches (m.lineIrq n) := by
  unfold Chip.lineIrq
  split
  · exact m.irq_latches _ _
  · exact .refl m

theorem Chip.raise_latches (m : Chip) (n : Nat) : m.Latches (m.raise n) := by
  cases h : m.silent n with
  | true => rw [Chip.raise_of_silent h]; exact .refl m
  | false =>
    have hn := Chip.line_word_lt_of_rises h
    rw [Chip.raise_of_rises h]
    exact (((m.edgeSeen_latches hn).trans (Chip.awaited_latches _ n)).trans
      (.foldl (fun a x => a.pend_latches n x hn) _ _)).trans (Chip.lineIrq_latches _ n)

/-- What a rising line leaves by the routes of a machine (R381, R383): its latch, the pending bit of every engine it is
routed to, and IRQ bit LINE if it is routed to INT#. -/
structure Chip.Pulsed (m t : Chip) (n : Nat) : Prop where
  latch : (t.get 0x31 EVT_LATCH_SEEN (n / 32)).testBit (n % 32) = true
  pend : ∀ x, x < 8 → m.routed EVT_RE_ROUTE n (8 * x) = true →
    (t.get (0x28 + x) ENG_EVPEND_PEND (n / 32)).testBit (n % 32) = true
  irq : m.routed EVT_RIRQ_ROUTE n 0 = true → (t.get 0x31 HDR_IRQ_RAW_BITS).testBit 4 = true

theorem latchPage_engine {x : Nat} (h : x < 8) : latchPage (0x28 + x) = true := by
  simp [latchPage]
  omega

/-- What a line has set stays set while happenings are told. -/
theorem Chip.Pulsed.mono {m t u : Chip} {n : Nat} (h : m.Pulsed t n) (hn : n / 32 < 8) (hu : t.Latches u) :
    m.Pulsed u n where
  latch := hu.get rfl (by simp only [EVT_LATCH_SEEN]; omega) h.latch
  pend x hx hr := hu.get (latchPage_engine hx) (by simp only [ENG_EVPEND_PEND]; omega) (h.pend x hx hr)
  irq hr := hu.get rfl (by decide) (h.irq hr)

/-- Lines that rose by the routes of one machine rose by those of another with the same. -/
theorem Chip.Pulsed.of_routes {m a t : Chip} {n : Nat} (h : a.Pulsed t n) (hn : n / 32 < 8) (ha : m.Latches a) :
    m.Pulsed t n where
  latch := h.latch
  pend x hx hr := h.pend x hx ((ha.routed EVT_RE_ROUTE n (8 * x) (routeKey_engine hn hx)).trans hr)
  irq hr := h.irq ((ha.routed EVT_RIRQ_ROUTE n 0 (routeKey_int hn)).trans hr)

/-- The engine's turn sets its pending bit, and the turns after it leave it. -/
theorem Chip.foldl_pend_sets (m : Chip) {n x : Nat} (hn : n / 32 < 8) (hx : x < 8)
    (hr : m.routed EVT_RE_ROUTE n (8 * x) = true) :
    (((List.range 8).foldl (Chip.pend n) m).get (0x28 + x) ENG_EVPEND_PEND (n / 32)).testBit (n % 32) = true := by
  obtain ⟨before, after, hl⟩ := List.append_of_mem (List.mem_range.mpr hx)
  have hb : m.Latches (before.foldl (Chip.pend n) m) := .foldl (fun a x => a.pend_latches n x hn) _ _
  have hrb := (hb.routed EVT_RE_ROUTE n (8 * x) (routeKey_engine hn hx)).trans hr
  rw [hl, List.foldl_append, List.foldl_cons]
  refine (Chip.Latches.foldl (fun a x => a.pend_latches n x hn) after _).get (latchPage_engine hx)
    (by simp only [ENG_EVPEND_PEND]; omega) ?_
  rw [Chip.pend, if_pos hrb]
  exact Chip.testBit_get_maskSet_same _ _ ENG_EVPEND_PEND _ _ (by decide) (Nat.mod_lt _ (by decide))

/-- A line that rises sets all its bits. -/
theorem Chip.raise_pulsed (m : Chip) (n : Nat) (h : m.silent n = false) : m.Pulsed (m.raise n) n := by
  have hn := Chip.line_word_lt_of_rises h
  have hseen : m.Latches ((m.edgeSeen n).awaited n) := (m.edgeSeen_latches hn).trans (Chip.awaited_latches _ n)
  have hpend := Chip.Latches.foldl (fun a x => a.pend_latches n x hn) (List.range 8) ((m.edgeSeen n).awaited n)
  rw [Chip.raise_of_rises h]
  refine ⟨?_, fun x hx hr => ?_, fun hr => ?_⟩
  · have hlatch : ((m.edgeSeen n).get 0x31 EVT_LATCH_SEEN (n / 32)).testBit (n % 32) = true :=
      Chip.testBit_get_maskSet_same _ 0x31 EVT_LATCH_SEEN _ _ (by decide) (Nat.mod_lt _ (by decide))
    exact (((Chip.awaited_latches _ n).trans hpend).trans (Chip.lineIrq_latches _ n)).get rfl
      (by simp only [EVT_LATCH_SEEN]; omega) hlatch
  · have hrs := (hseen.routed EVT_RE_ROUTE n (8 * x) (routeKey_engine hn hx)).trans hr
    exact (Chip.lineIrq_latches _ n).get (latchPage_engine hx) (by simp only [ENG_EVPEND_PEND]; omega)
      (Chip.foldl_pend_sets _ hn hx hrs)
  · have hrs := ((hseen.trans hpend).routed EVT_RIRQ_ROUTE n 0 (routeKey_int hn)).trans hr
    rw [Chip.lineIrq, if_pos hrs]
    exact Chip.testBit_get_maskSet_same _ 0x31 HDR_IRQ_RAW_BITS 4 0 (by decide) (by decide)

/-! ### The lines of a clock -/

@[simp] theorem Chip.maskSet_clk (m : Chip) (pg : Nat) (f : Fld) (b i : Nat) : (m.maskSet pg f b i).clk = m.clk := rfl

theorem Chip.foldl_pend_clk (n : Nat) (l : List Nat) (m : Chip) : (l.foldl (Chip.pend n) m).clk = m.clk := by
  induction l generalizing m with
  | nil => rfl
  | cons x t ih =>
    rw [List.foldl_cons, ih, Chip.pend]
    split <;> rfl

/-- A line has had its edge after it rose; no other has through it. -/
theorem Chip.mem_seen_raise {m : Chip} {n k : Nat} (h : k ∈ (m.raise n).clk.seen) : k ∈ m.clk.seen ∨ k = n := by
  cases hs : m.silent n with
  | true => rw [Chip.raise_of_silent hs] at h; exact .inl h
  | false =>
    have hirq : ∀ a : Chip, (a.lineIrq n).clk = a.clk := fun a => by unfold Chip.lineIrq; split <;> rfl
    have hseq : ∀ a : Chip, (a.awaited n).clk = a.clk := fun a => by unfold Chip.awaited; split <;> rfl
    rw [Chip.raise_of_rises hs, hirq, Chip.foldl_pend_clk, hseq] at h
    simpa [Chip.edgeSeen] using h

theorem Chip.mem_seen_foldl_raise {l : List Nat} {m : Chip} {k : Nat} (h : k ∈ (l.foldl Chip.raise m).clk.seen) :
    k ∈ m.clk.seen ∨ k ∈ l := by
  induction l generalizing m with
  | nil => exact .inl h
  | cons a t ih =>
    rcases ih h with h | h
    · exact (Chip.mem_seen_raise h).imp_right (fun e => by simp [e])
    · exact .inr (List.mem_cons_of_mem _ h)

theorem Chip.foldl_raise_latches (l : List Nat) (m : Chip) : m.Latches (l.foldl Chip.raise m) :=
  .foldl Chip.raise_latches l m

/-- What the die fixes stays while lines rise. -/
theorem Chip.foldl_raise_die (l : List Nat) (m : Chip) : (l.foldl Chip.raise m).die = m.die :=
  (Chip.Told.foldl _ l (fun x _ n => n.raise_told x) m).keeps Chip.die

/-- Of several lines that rise in a clock, each sets its bits by the routes of before. -/
theorem Chip.foldl_raise_pulsed {l : List Nat} {m : Chip} {n : Nat} (hl : n ∈ l) (h : m.silent n = false) :
    m.Pulsed (l.foldl Chip.raise m) n := by
  have hn := Chip.line_word_lt_of_rises h
  obtain ⟨before, after, rfl, hfirst⟩ := List.eq_append_cons_of_mem hl
  have hrises : (before.foldl Chip.raise m).silent n = false := by
    simp only [Chip.silent, Bool.or_eq_false_iff, List.contains_eq_mem, decide_eq_false_iff_not, Chip.foldl_raise_die] at h ⊢
    exact ⟨h.1, fun hs => (Chip.mem_seen_foldl_raise hs).elim h.2 hfirst⟩
  rw [List.foldl_append, List.foldl_cons]
  exact ((Chip.raise_pulsed _ n hrises).mono hn (Chip.foldl_raise_latches after _)).of_routes hn
    (Chip.foldl_raise_latches before m)

/-! ### The end of a clock -/

/-- The second machine differs from the first in no register outside a page. -/
def Chip.StoresIn (pg : Nat) (m n : Chip) : Prop := ∀ k, k / 0x400 ≠ pg → n.rd k = m.rd k

theorem Chip.StoresIn.refl (pg : Nat) (m : Chip) : m.StoresIn pg m := fun _ _ => rfl

theorem Chip.StoresIn.trans {pg : Nat} {a b c : Chip} (x : a.StoresIn pg b) (y : b.StoresIn pg c) : a.StoresIn pg c :=
  fun k h => (y k h).trans (x k h)

/-- What leaves the registers alone stores in no page. -/
theorem Chip.StoresIn.of_regs {pg : Nat} {m n : Chip} (h : n.regs = m.regs) : m.StoresIn pg n :=
  fun k _ => congrArg (fun l => Sparse.get regDefault l k) h

theorem Chip.put_storesIn (m : Chip) (pg : Nat) (f : Fld) (v i : Nat) (hi : f.off + f.stride * i < 0x400) :
    m.StoresIn pg (m.put pg f v i) :=
  fun k hk => Chip.rd_put_ne m pg f v i k (fun h => hk (by subst h; simp only [Fld.addr]; omega))

/-- A happening that is told in another page alone. -/
theorem Chip.StoresIn.latches {pg : Nat} {m n : Chip} (h : m.StoresIn pg n) (hp : latchPage pg = false) : m.Latches n :=
  .of_rd (fun k hk => h k (fun e => by rw [e, hp] at hk; cases hk))

/-- A record that passes its stages stores in the recorder's page. -/
theorem Chip.recPass_storesIn (m : Chip) (e : Rec) : m.StoresIn 0x24 (m.recPass e) := by
  have hrcd (a : Chip) (c : RecSt) : a.StoresIn 0x24 { a with rcd := c } := .of_regs rfl
  have hrate : m.StoresIn 0x24 (m.rateLimit e.code).2.2 := by
    unfold Chip.rateLimit
    split
    · exact .refl _ m
    · split <;> exact hrcd m _
  have hqueue (a : Chip) (x : Rec) : a.StoresIn 0x24 (a.enqueueRec x) := by
    unfold Chip.enqueueRec
    split
    · exact (a.put_storesIn _ _ _ _ (by decide)).trans (hrcd _ _)
    · split
      · exact ((a.put_storesIn _ _ _ _ (by decide)).trans (Chip.put_storesIn _ _ _ _ _ (by decide))).trans (hrcd _ _)
      · exact hrcd a _
  unfold Chip.recPass
  split <;> rename_i heq <;> rw [heq] at hrate
  · exact hrate.trans (hqueue _ _)
  · exact hrate.trans (Chip.put_storesIn _ _ _ _ _ (by decide))

theorem Chip.foldl_recPass_storesIn (l : List Rec) (m : Chip) : m.StoresIn 0x24 (l.foldl Chip.recPass m) := by
  induction l generalizing m with
  | nil => exact .refl _ m
  | cons e t ih => exact (m.recPass_storesIn e).trans (ih _)

/-- At the end of a clock without edges only the recorder stores. -/
theorem Chip.settle_storesIn (m : Chip) (he : m.clk.edges = []) : m.StoresIn 0x24 m.settle := by
  have hclk (a : Chip) (c : ClockSt) : a.StoresIn 0x24 { a with clk := c } := .of_regs rfl
  have hs : Chip.settleEdges 4 m = m := by simp [Chip.settleEdges, he]
  rw [Chip.settle, hs]
  exact (hclk m _).trans (Chip.foldl_recPass_storesIn _ _)

/-- A trigger of the black box stores in its page. -/
theorem Chip.bbxTrigger_storesIn (m : Chip) (line : Nat) (st : Stamp) (tick : Nat) :
    m.StoresIn 0x25 (m.bbxTrigger line st tick) := by
  have hbbx (a : Chip) (b : BbxSt) : a.StoresIn 0x25 { a with bbx := b } := .of_regs rfl
  have hrec (a : Chip) (ps : List Nat) : a.StoresIn 0x25 (a.emit 0x8034 ps) := .of_regs rfl
  have hrefuse (c : Nat) : m.StoresIn 0x25 (m.bbxRefuse c line tick) := by
    unfold Chip.bbxRefuse
    split
    · exact .refl _ m
    · exact (((hbbx m _).trans (Chip.put_storesIn _ _ _ _ _ (by decide))).trans
        (Chip.put_storesIn _ _ _ _ _ (by decide))).trans (hrec _ _)
  unfold Chip.bbxTrigger
  simp only
  split
  · exact hrefuse 1
  · split
    · exact hrefuse 3
    · split
      · split
        · exact hbbx m _
        · exact .refl _ m
      · split
        · exact hbbx m _
        · split
          · exact hrefuse 2
          · exact (m.put_storesIn _ _ _ _ (by decide)).trans (hbbx _ _)

theorem Chip.depLose_latches (m : Chip) (n : Nat) (h : n < 24) : m.Latches (m.depLose n) := by
  have hcount (a : Chip) : a.Latches
      (if n % 2 = 0 then a.count 0x30 DEP_LOSTP_LO (n / 2) else a.count 0x30 DEP_LOSTP_HI (n / 2)) := by
    split
    · exact a.put_latches _ _ _ _ rfl (by simp only [DEP_LOSTP_LO]; omega)
    · exact a.put_latches _ _ _ _ rfl (by simp only [DEP_LOSTP_HI]; omega)
  have htell (a : Chip) : a.Latches (((a.maskSet 0x30 DEP_LOSTM_LOST n).irq 0x30 5).raise 121) :=
    ((a.put_latches _ _ _ _ rfl (by decide)).trans (Chip.irq_latches _ _ _)).trans (Chip.raise_latches _ _)
  have hrec (a : Chip) (b : Bool) (c : Nat) : a.Latches (if b then a else a.emit 0xA030 [n, c]) := by
    split
    · exact .refl a
    · exact .of_regs rfl
  exact ((hcount m).trans (htell _)).trans (hrec _ _ _)

theorem Chip.depAppend_latches (m : Chip) (e : DepEntry) (h : e.src < 24) : m.Latches (m.depAppend e) := by
  unfold Chip.depAppend
  split
  · exact m.depLose_latches _ h
  · have hput (a : Chip) (d : DepotSt) : a.Latches { a with dep := d } := .of_regs rfl
    have hupset (a : Chip) (w : Nat) : a.Latches (a.setUpsets 0x14 w 0) := .of_regs rfl
    have hword (a : Chip) (p : Nat → Bool) : a.Latches (a.unitWrite 0x14 p) := .foldl hupset _ a
    have hrose (a : Chip) (b : Bool) : a.Latches (if b then (a.irq 0x30 4).raise 120 else a) := by
      split
      · exact (a.irq_latches _ _).trans (Chip.raise_latches _ _)
      · exact .refl a
    exact ((hput m _).trans (hword _ _)).trans (hrose _ _)

theorem Chip.deliver_latches (m : Chip) (e : Edge) : m.Latches (m.deliver e) := by
  have hdepot (a : Chip) : a.Latches (if a.routed EVT_RDEP_ROUTE e.line 0 && a.depWants 8 e.line then
      a.depAppend { tag := e.line, src := 8, stamp := e.stamp, value := e.tick } else a) := by
    split
    · exact a.depAppend_latches _ (show (8 : Nat) < 24 by decide)
    · exact .refl a
  have hrec (a : Chip) : a.Latches (if a.routed EVT_RREC_ROUTE e.line 0 then
      a.record 0xA031 (codeSev 0xA031) (codeSrc 0xA031) e.stamp [e.line] else a) := by
    split
    · exact .of_regs rfl
    · exact .refl a
  have hclk (a : Chip) (c : ClockSt) : a.Latches { a with clk := c } := .of_regs rfl
  have hbbx (a : Chip) : a.Latches (if isFull a.die.part && a.routed EVT_RBBX_ROUTE e.line 0 && !a.clk.trig then
      { a.bbxTrigger e.line e.stamp e.tick with clk := { (a.bbxTrigger e.line e.stamp e.tick).clk with trig := true } }
      else a) := by
    split
    · exact ((a.bbxTrigger_storesIn _ _ _).latches rfl).trans (hclk _ _)
    · exact .refl a
  exact ((hdepot m).trans (hrec _)).trans (hbbx _)

theorem Chip.settleEdges_latches (k : Nat) (m : Chip) : m.Latches (Chip.settleEdges k m) := by
  induction k generalizing m with
  | zero => exact .refl m
  | succ k ih =>
    unfold Chip.settleEdges
    split
    · exact .refl m
    · have hclk (a : Chip) (c : ClockSt) : a.Latches { a with clk := c } := .of_regs rfl
      exact ((hclk m _).trans (.foldl Chip.deliver_latches _ _)).trans (ih _)

/-- The end of a clock keeps the bits that its lines have set. -/
theorem Chip.settle_latches (m : Chip) : m.Latches m.settle := by
  have hclk (a : Chip) (c : ClockSt) : a.Latches { a with clk := c } := .of_regs rfl
  exact ((m.settleEdges_latches 4).trans (hclk _ _)).trans ((Chip.foldl_recPass_storesIn _ _).latches rfl)

/-- So does a whole command, after its effect. -/
theorem State.act_latches (s : State) (f : Chip → Chip) : (f s.chip).Latches (s.act f).chip := by
  have hdie (a : Chip) (d : Die) : a.Latches { a with die := d } := .of_regs rfl
  exact (hdie _ _).trans (Chip.settle_latches _)

/-- A field that only the recorder could have stored over reads after a command as after its effect, where that brought
no edge. -/
theorem State.act_get_of_no_edges (s : State) (f : Chip → Chip) (pg : Nat) (g : Fld) (i : Nat)
    (he : (f s.chip).clk.edges = []) (hp : pg ≠ 0x24) (hi : g.off + g.stride * i < 0x400) :
    (s.act f).chip.get pg g i = (f s.chip).get pg g i := by
  have hk : g.addr pg i / 0x400 ≠ 0x24 := by simp only [Fld.addr]; omega
  have hrd := Chip.settle_storesIn { f s.chip with die := s.chip.die } he _ hk
  rw [Chip.get, Chip.get, show (s.act f).chip = Chip.settle { f s.chip with die := s.chip.die } from rfl, hrd]
  rfl

end Sys2Proof.Machine
end

section
/-! PROOFS. The commands of the event fabric (R380–R385). -/

namespace Sys2Proof.Machine

/-! ### Commands by what they leave of the chip -/

/-- A command without an effect on the chip leaves the machine as it is. -/
theorem State.run_of_same {s : State} (hs : Running s) {f : Chip → Chip} (h : f s.chip = s.chip) : s.run f = .next s := by
  rw [State.run_of_not_held s f hs.1, State.act_of_clear s f (h.symm ▸ hs.2) (by rw [h]), h]

/-- A command's effect is what it makes of the chip. -/
theorem State.run_of_eq {s : State} (hs : Running s) {f g : Chip → Chip} (h : f s.chip = g s.chip) :
    s.run f = .next (s.act g) := by
  rw [State.run_of_not_held s f hs.1]
  simp only [State.act, h]

/-- An access to a page that the member carries. -/
theorem Chip.onPage_present {m : Chip} {pg : Nat} (h : pageAbsent m.die.part pg = false) (r : Nat) (f : Chip → Chip) :
    m.onPage r pg f = f m := by
  simp [Chip.onPage, h]

/-- The pages of the Depot and the event fabric are present on every member (R3). -/
theorem pageAbsent_depot (p : Part) : pageAbsent p 0x30 = false := by cases p <;> rfl

theorem pageAbsent_fabric (p : Part) : pageAbsent p 0x31 = false := by cases p <;> rfl

theorem exec_eventLineEdge (n : BitVec 8) (s : State) :
    exec (.eventLineEdge n) s = s.run (fun m => m.lineEdge n.toNat) := rfl

theorem exec_gpioLevelChange (k : Fin 32) (lvl : Level) (s : State) :
    exec (.gpioLevelChange k lvl) s = s.run (fun m => m.gpioLevel k.val lvl) := rfl

theorem exec_hsevWrite (r : Requester) (v : BitVec 8) (s : State) :
    exec (.hsevWrite r v) s = s.run (fun m => m.onPage (reqCode r) 0x31 (fun m => m.hsevWrite v.toNat)) := rfl

/-! ### Edges of lines -/

/-- The lines that show a level (R380). -/
def LevelLine (n : Nat) : Prop := n = 120 ∨ (80 ≤ n ∧ n < 88)

theorem Chip.lineEdge_of_level (m : Chip) {n : Nat} (h : LevelLine n) : m.lineEdge n = m := by
  simp only [LevelLine] at h
  simp [Chip.lineEdge, h]

theorem Chip.lineEdge_of_pulse (m : Chip) {n : Nat} (h : ¬ LevelLine n) : m.lineEdge n = m.raise n := by
  simp only [LevelLine] at h
  simp [Chip.lineEdge, h]

/-- In a clock that has had no edge yet, a line that the member has rises. -/
theorem Chip.silent_eq_false {m : Chip} {n : Nat} (hclk : m.clk = {}) (hres : lineReserved n = false)
    (habs : lineAbsent m.die.part n = false) : m.silent n = false := by
  simp [Chip.silent, hclk, hres, habs]

/-- The rising edge that no line brings: one of a level line, a reserved line or an absent one. -/
theorem Chip.lineEdge_of_none (m : Chip) {n : Nat}
    (h : LevelLine n ∨ lineReserved n = true ∨ lineAbsent m.die.part n = true) : m.lineEdge n = m := by
  by_cases hl : LevelLine n
  · exact m.lineEdge_of_level hl
  · rw [m.lineEdge_of_pulse hl]
    exact Chip.raise_of_silent (by simp [Chip.silent, h.resolve_left hl])

/-! ### Levels of balls -/

theorem Chip.gpioLevel_of_same (m : Chip) {k : Nat} {lvl : Bool}
    (h : (m.get 0x37 PIN_GPIN_LVL).testBit k = lvl ∨ m.gpioCan k lvl = false) : m.gpioLevel k lvl = m := by
  simp only [Chip.gpioLevel, bit, Bool.not_eq_true']
  exact if_pos h

/-- GPIN with the level of one ball. -/
def Chip.ballAt (m : Chip) (k : Nat) (lvl : Bool) : Chip :=
  if lvl then m.maskSet 0x37 PIN_GPIN_LVL k else m.maskClr 0x37 PIN_GPIN_LVL k

/-- A new level shows in GPIN, and may pulse the ball's line (R384). -/
theorem Chip.gpioLevel_of_new (m : Chip) {k : Nat} {lvl : Bool} (hnew : (m.get 0x37 PIN_GPIN_LVL).testBit k ≠ lvl)
    (hcan : m.gpioCan k lvl = true) : m.gpioLevel k lvl = m.ballAt k lvl ∨
      m.gpioLevel k lvl = (m.ballAt k lvl).raise (192 + k) := by
  have hchange : ¬ (bit (m.get 0x37 PIN_GPIN_LVL) k = lvl ∨ (!m.gpioCan k lvl) = true) := by simp [bit, hnew, hcan]
  have hpulse (a : Chip) (b : Bool) (n : Nat) :
      (if b then a.raise n else a) = a ∨ (if b then a.raise n else a) = a.raise n := by
    cases b
    · exact .inl rfl
    · exact .inr rfl
  rw [show m.gpioLevel k lvl = _ from if_neg hchange]
  exact hpulse (m.ballAt k lvl) _ _

theorem Chip.testBit_gpin_ballAt (m : Chip) (k : Nat) (lvl : Bool) {j : Nat} (hj : j < 32) :
    ((m.ballAt k lvl).get 0x37 PIN_GPIN_LVL).testBit j =
      if k = j then lvl else (m.get 0x37 PIN_GPIN_LVL).testBit j := by
  cases lvl with
  | true =>
    rw [Chip.ballAt, if_pos rfl, Chip.testBit_get_maskSet m 0x37 PIN_GPIN_LVL k 0 j (by decide) hj]
    by_cases hk : k = j <;> simp [hk]
  | false =>
    rw [Chip.ballAt, if_neg Bool.false_ne_true, Chip.testBit_get_maskClr m 0x37 PIN_GPIN_LVL k 0 j (by decide) hj]
    by_cases hk : k = j <;> simp [hk]

/-- What a new level of a ball leaves to read of GPIN. -/
theorem Chip.testBit_gpin_gpioLevel (m : Chip) {k : Nat} {lvl : Bool}
    (hnew : (m.get 0x37 PIN_GPIN_LVL).testBit k ≠ lvl) (hcan : m.gpioCan k lvl = true) {j : Nat} (hj : j < 32) :
    ((m.gpioLevel k lvl).get 0x37 PIN_GPIN_LVL).testBit j =
      if k = j then lvl else (m.get 0x37 PIN_GPIN_LVL).testBit j := by
  rw [← m.testBit_gpin_ballAt k lvl hj]
  rcases m.gpioLevel_of_new hnew hcan with h | h
  · rw [h]
  · rw [h, Chip.get, ((m.ballAt k lvl).raise_told (192 + k)).rd _ rfl, ← Chip.get]

/-! ### Software events -/

theorem Chip.hsevWrite_eq (m : Chip) (v : Nat) :
    m.hsevWrite v = ((bitsUp v 8).map (224 + ·)).foldl Chip.raise m := by
  rw [Chip.hsevWrite, List.foldl_map]

/-- Every member has the lines of HSEV (R380). -/
theorem softwareLine_present (p : Part) {k : Nat} (h : k < 8) :
    lineReserved (224 + k) = false ∧ lineAbsent p (224 + k) = false := by
  constructor
  · simp [lineReserved]; omega
  · simp [lineAbsent]; omega

/-- A line whose bit is 1 rises. -/
theorem Chip.hsevWrite_pulsed (m : Chip) (v : Nat) {k : Nat} (hclk : m.clk = {}) (hk : k < 8) (hv : v.testBit k = true) :
    m.Pulsed (m.hsevWrite v) (224 + k) := by
  obtain ⟨hres, habs⟩ := softwareLine_present m.die.part hk
  rw [Chip.hsevWrite_eq]
  exact Chip.foldl_raise_pulsed (List.mem_map_of_mem (by simp [bitsUp, hk, hv])) (Chip.silent_eq_false hclk hres habs)

/-! ### The obligation -/

/-- Settles O37: telling of a happening never clears what a line has set, so the bits that a rising line sets stand at the
end of its clock. -/
theorem eventCommands : Obligations.EventCommands := by
  intro r s hs
  refine ⟨fun n h => ?_, fun n hres habs hl => ?_, fun k lvl h => ?_, fun k lvl _ h => ?_, fun k lvl hnew hcan => ?_,
    fun v => ?_⟩
  · exact (exec_eventLineEdge n s).trans (State.run_of_same hs (s.chip.lineEdge_of_none h))
  · have hn := line_word_lt_of_not_reserved hres
    have hp := s.chip.raise_pulsed n.toNat (Chip.silent_eq_false hs.2 hres habs)
    have ht := hp.mono hn (s.act_latches (fun m => m.raise n.toNat))
    have hexec := (exec_eventLineEdge n s).trans (State.run_of_eq (g := fun m => m.raise n.toNat) hs
      (s.chip.lineEdge_of_pulse hl))
    exact ⟨_, hexec, ht.latch, ht.pend, ht.irq⟩
  · exact (exec_gpioLevelChange k lvl s).trans (State.run_of_same hs (s.chip.gpioLevel_of_same (.inl h)))
  · exact (exec_gpioLevelChange k lvl s).trans (State.run_of_same hs (s.chip.gpioLevel_of_same (.inr h)))
  · have hbit (j : Nat) (hj : j < 32) := s.chip.testBit_gpin_gpioLevel hnew hcan hj
    have hact := s.act_get (fun m => m.gpioLevel k lvl) 0x37 PIN_GPIN_LVL 0 rfl (by decide)
    refine ⟨_, (exec_gpioLevelChange k lvl s).trans (State.run_of_not_held s _ hs.1), ?_, fun j hj hjk => ?_⟩
    · rw [hact, hbit k k.isLt, if_pos rfl]
    · rw [hact, hbit j hj, if_neg hjk.symm]
  · have hexec := (exec_hsevWrite r v s).trans (State.run_of_eq (g := fun m => m.hsevWrite v.toNat) hs
      (Chip.onPage_present (pageAbsent_fabric s.chip.die.part) (reqCode r) _))
    refine ⟨_, hexec, fun k hk hv => ?_⟩
    have hword : (224 + k) / 32 = 7 ∧ (224 + k) % 32 = k := by omega
    have hp := s.chip.hsevWrite_pulsed v.toNat hs.2 hk hv
    obtain ⟨hlatch, hpend, hirq⟩ := hp.mono (by omega) (s.act_latches (fun m => m.hsevWrite v.toNat))
    rw [hword.1, hword.2] at hlatch hpend
    exact ⟨hlatch, hirq, hpend⟩

end Sys2Proof.Machine
end

section
/-! PROOFS. The commands of the Depot (R390–R396). -/

namespace Sys2Proof.Machine

theorem exec_puttagWrite (r : Requester) (tag : BitVec 8) (s : State) :
    exec (.puttagWrite r tag) s = s.run (fun m => m.onPage (reqCode r) 0x30 (fun m => m.depPut (reqCode r) tag.toNat)) :=
  rfl

theorem exec_take0Read (r : Requester) (s : State) :
    exec (.take0Read r) s = s.run (fun m => m.onPage (reqCode r) 0x30 (fun m =>
      ((if reqCode r = 0 then m.spiCommit else m).depTake (reqCode r)).2)) := rfl

theorem exec_takeReservationLapse (r : Requester) (s : State) :
    exec (.takeReservationLapse r) s = s.run (fun m => m.depLapse (reqCode r)) := rfl

theorem exec_depotFlush (r : Requester) (arg : Word) (s : State) :
    exec (.depotFlush r arg) s =
      s.run (fun m => (m.wr (0x30 * 0x400 + 0x24) arg).startOp 0x30 1 (reqCode r) Chip.depFlush) := rfl

/-! ### Puts (R390–R392) -/

/-- The source of a requester's puts. -/
def putSource (r : Nat) : Nat := if 4 ≤ r then r - 4 else 22

/-- The entry of a requester's put. -/
def Chip.putEntry (m : Chip) (r tag : Nat) : DepEntry :=
  { tag := tag, src := putSource r, stamp := m.stamp,
    value := (m.rd (reqKey r (DEP_PUTLO_VALUE.addr 0x30))).toNat +
      (m.rd (reqKey r (DEP_PUTHI_VALUE.addr 0x30))).toNat * 2 ^ 32 }

theorem Chip.depPut_loader (m : Chip) (tag : Nat) : m.depPut 3 tag = m := rfl

/-- A put of a requester that is not the loader. -/
theorem Chip.depPut_eq (m : Chip) {r : Nat} (tag : Nat) (h : r ≠ 3) :
    m.depPut r tag = if !m.has 0x30 DEP_SRCCFG_EN (putSource r) then m.depLose (putSource r)
      else if 4 ≤ r ∧ 4 ≤ (m.dep.queue (putSource r)).length then m.depWait (putSource r) (m.putEntry r tag)
      else m.depAppend (m.putEntry r tag) := if_neg h

theorem Chip.depPut_disabled (m : Chip) {r : Nat} (tag : Nat) (h : r ≠ 3)
    (hen : m.get 0x30 DEP_SRCCFG_EN (putSource r) = 0) : m.depPut r tag = m.depLose (putSource r) := by
  rw [m.depPut_eq tag h]
  exact if_pos (by simp [Chip.has, hen])

theorem Chip.depPut_enabled (m : Chip) {r : Nat} (tag : Nat) (h : r ≠ 3)
    (hen : m.get 0x30 DEP_SRCCFG_EN (putSource r) = 1) :
    m.depPut r tag = if 4 ≤ r ∧ 4 ≤ (m.dep.queue (putSource r)).length then m.depWait (putSource r) (m.putEntry r tag)
      else m.depAppend (m.putEntry r tag) := by
  rw [m.depPut_eq tag h]
  exact if_neg (by simp [Chip.has, hen])

theorem Chip.depPut_full (m : Chip) {r : Nat} (tag : Nat) (h : 4 ≤ r)
    (hen : m.get 0x30 DEP_SRCCFG_EN (putSource r) = 1) (hfull : 4 ≤ (m.dep.queue (putSource r)).length) :
    m.depPut r tag = m.depWait (putSource r) (m.putEntry r tag) := by
  rw [m.depPut_enabled tag (by omega) hen, if_pos ⟨h, hfull⟩]

theorem Chip.depPut_append (m : Chip) {r : Nat} (tag : Nat) (h : r ≠ 3)
    (hen : m.get 0x30 DEP_SRCCFG_EN (putSource r) = 1) (hroom : r < 4 ∨ (m.dep.queue (putSource r)).length < 4) :
    m.depPut r tag = m.depAppend (m.putEntry r tag) := by
  rw [m.depPut_enabled tag h hen, if_neg (by omega)]

/-- A put has the effect that its source's state gives it. -/
theorem exec_puttagWrite_of_eq {s : State} (hs : Running s) (r : Requester) (tag : BitVec 8) {g : Chip → Chip}
    (h : s.chip.depPut (reqCode r) tag.toNat = g s.chip) : Effect (.puttagWrite r tag) s g :=
  (exec_puttagWrite r tag s).trans <| State.run_of_eq hs ((Chip.onPage_present (pageAbsent_depot _) _ _).trans h)

theorem exec_puttagWrite_of_same {s : State} (hs : Running s) (r : Requester) (tag : BitVec 8)
    (h : s.chip.depPut (reqCode r) tag.toNat = s.chip) : exec (.puttagWrite r tag) s = .next s :=
  (exec_puttagWrite r tag s).trans <| State.run_of_same hs ((Chip.onPage_present (pageAbsent_depot _) _ _).trans h)

/-! ### Takes (R393–R395) -/

/-- The visible head of a queue stands at its place. -/
theorem getElem?_of_visibleHead {q : List DepEntry} {i : Nat} {e : DepEntry} (h : visibleHead q = some (i, e)) :
    q[i]? = some e := by
  obtain ⟨⟨x, j⟩, hmem, hx⟩ := List.exists_of_findSome?_eq_some h
  obtain ⟨k, hk⟩ := List.mem_iff_getElem?.mp hmem
  obtain ⟨hxk, hjk⟩ := List.getElem?_zip_eq_some.mp hk
  obtain ⟨_, rfl⟩ := List.getElem?_eq_some_iff.mp hjk
  simp only [List.getElem_range] at hx
  split at hx
  · cases hx
    exact hxk
  · cases hx

/-- A head, as source, place and entry, stands where it says. -/
def Chip.HeadStands (m : Chip) (h : Nat × Nat × DepEntry) : Prop := (m.dep.queue h.1)[h.2.1]? = some h.2.2

theorem Chip.headStands_of_queue {m : Chip} {n : Nat} {h : Nat × Nat × DepEntry}
    (hh : (visibleHead (m.dep.queue n)).map (fun h => (n, h.1, h.2)) = some h) : m.HeadStands h := by
  obtain ⟨x, hx, rfl⟩ := Option.map_eq_some_iff.mp hh
  exact getElem?_of_visibleHead hx

/-- The head that a requester selects is the visible head of one queue, whichever is compared the earliest. -/
theorem Chip.headStands_of_depHead {m : Chip} {r : Nat} {h : Nat × Nat × DepEntry} (hh : m.depHead r = some h) :
    m.HeadStands h := by
  unfold Chip.depHead at hh
  simp only at hh
  split at hh
  · split at hh
    · exact Chip.headStands_of_queue hh
    · cases hh
  · refine List.foldlRecOn (motive := fun best => ∀ h, best = some h → m.HeadStands h) (List.range 24) _
      (fun _ h0 => by cases h0) (fun best ih n _ h hbest => ?_) h hh
    split at hbest
    · exact Chip.headStands_of_queue hbest
    · rename_i heq
      split at hbest
      · exact Chip.headStands_of_queue (heq.trans hbest)
      · exact ih h hbest
    · exact ih h hbest

theorem Chip.getElem?_of_depHead {m : Chip} {r n i : Nat} {e : DepEntry} (h : m.depHead r = some (n, i, e)) :
    (m.dep.queue n)[i]? = some e := Chip.headStands_of_depHead h

/-- A machine without upset symbols reads its arrays as they are (R437). -/
theorem Chip.unitRead_of_no_upset (m : Chip) (arr : Nat) (p : Nat → Bool) (h : m.upset = []) : m.unitRead arr p = m := by
  simp [Chip.unitRead, Chip.unitWords, h]

theorem Chip.shadowOf_setShadow (m : Chip) (r a b : Nat) (v : Word) :
    (m.setShadow r a v).shadowOf r b = if b = a then some v else m.shadowOf r b := by
  split
  · rename_i h
    subst h
    exact Sparse.find_put_same _ _ _
  · exact Sparse.find_put_ne _ _ (by simp only [reqKey]; omega)

/-- Words 1–3 of a take in the shadow. -/
theorem Chip.shadowOf_depShadow (m : Chip) (r : Nat) (w : Nat → Nat) {k : Nat} (hlo : 1 ≤ k) (hhi : k < 4) :
    (m.depShadow r w).shadowOf r (take0Addr + 4 * k) = some (BitVec.ofNat 32 (w k)) := by
  simp only [Chip.depShadow, List.foldl_cons, List.foldl_nil, Chip.shadowOf_setShadow]
  have hk : k = 1 ∨ k = 2 ∨ k = 3 := by omega
  rcases hk with rfl | rfl | rfl <;> simp

theorem Chip.depTake_empty (m : Chip) (r : Nat) (h : m.depHead r = none) :
    m.depTake r = (0x00F80000, m.depShadow r (fun _ => 0)) := by
  simp only [Chip.depTake, h]

/-- The entry that a take finds once its words have passed the decoder (R437). -/
def Chip.takenEntry (m : Chip) (n i : Nat) (e : DepEntry) : DepEntry :=
  (((m.unitRead 0x14 (fun k => k / 2 == 4 * n + e.place)).dep.queue n)[i]?).getD e

theorem Chip.depTake_removes (m : Chip) {r n i : Nat} {e : DepEntry} (hr : r ≠ 0) (h : m.depHead r = some (n, i, e)) :
    m.depTake r = ((m.takenEntry n i e).word 0,
      ((m.unitRead 0x14 (fun k => k / 2 == 4 * n + e.place)).depShadow r (m.takenEntry n i e).word).depRemove n i) := by
  simp only [Chip.depTake, h, if_neg hr]
  rfl

theorem Chip.takenEntry_of_no_upset {m : Chip} {r n i : Nat} {e : DepEntry} (hu : m.upset = [])
    (h : m.depHead r = some (n, i, e)) : m.takenEntry n i e = e := by
  rw [Chip.takenEntry, m.unitRead_of_no_upset _ _ hu, Chip.getElem?_of_depHead h, Option.getD_some]

/-- A take over SPI reserves its entry until the read's side effect (R395). -/
theorem Chip.depTake_reserves (m : Chip) {n i : Nat} {e : DepEntry} (hu : m.upset = [])
    (h : m.depHead 0 = some (n, i, e)) :
    (m.depTake 0).2 = { m.depShadow 0 e.word with
      dep := { m.dep with
        queues := setAt m.dep.queues n (setAt (m.dep.queue n) i { e with reserved := some 0, since := m.tim.tick }) }
      host := { m.host with spiEffect := some { req := 0, addr := take0Addr, returned := e.word 0 } } } := by
  simp only [Chip.depTake, h, m.unitRead_of_no_upset _ _ hu, Chip.getElem?_of_depHead h, Option.getD_some, if_true]
  rfl

/-- A take over another interface than SPI. -/
theorem exec_take0Read_of_eq {s : State} (hs : Running s) {r : Requester} (hr : reqCode r ≠ 0) {g : Chip → Chip}
    (h : (s.chip.depTake (reqCode r)).2 = g s.chip) : Effect (.take0Read r) s g := by
  refine (exec_take0Read _ s).trans (State.run_of_eq hs ((Chip.onPage_present (pageAbsent_depot _) _ _).trans ?_))
  rw [if_neg hr, h]

theorem reqCode_eq_zero (r : Requester) : reqCode r = 0 ↔ r = .spi := reqCode_injective.eq_iff (b := .spi)

/-- A take over SPI where no read's side effect waits. -/
theorem exec_take0Read_spi {s : State} (hs : Running s) (he : s.chip.host.spiEffect = none) :
    exec (.take0Read .spi) s = .next (s.act (fun m => (m.depTake 0).2)) := by
  refine (exec_take0Read _ s).trans (State.run_of_eq hs ((Chip.onPage_present (pageAbsent_depot _) _ _).trans ?_))
  have hcommit : s.chip.spiCommit = s.chip := by simp only [Chip.spiCommit, he]
  simp only [reqCode, if_true, hcommit]

/-! ### Lapses (R395) -/

theorem Chip.depStale_iff (m : Chip) (r : Nat) (e : DepEntry) :
    m.depStale r e = true ↔ e.reserved = some r ∧ 10 * msTicks ≤ m.ticksSince e.since := by
  rw [Chip.depStale, Bool.and_eq_true, beq_iff_eq, decide_eq_true_eq]
  rfl

theorem Chip.depLapse_of_none (m : Chip) (r : Nat) (h : ∀ n, n < 24 → ∀ e ∈ m.dep.queue n, m.depStale r e = false) :
    m.depLapse r = m := by
  have hfind : (List.range 24).find? (fun n => (m.dep.queue n).any (m.depStale r)) = none := by
    simpa using h
  simp only [Chip.depLapse, hfind]

/-- A lapse of a requester's reservation in a source's queue is counted, and told by IRQ bit LAPSE and code 0xA032. -/
def Chip.lapseTold (m : Chip) (r n : Nat) : Chip :=
  ((m.count 0x30 DEP_LAPSE_COUNT).irq 0x30 6).emit 0xA032 [r, n]

/-- A lapse is counted and told; beside that it touches the queues and the waiting SPI read only. -/
theorem Chip.depLapse_of_stale (m : Chip) (r : Nat) {n : Nat} (hn : n < 24)
    (h : ∃ e ∈ m.dep.queue n, m.depStale r e = true) :
    ∃ (a : Chip) (k : Nat), a.regs = m.regs ∧ a.clk = m.clk ∧ m.depLapse r = a.lapseTold r k := by
  cases hfind : (List.range 24).find? (fun n => (m.dep.queue n).any (m.depStale r)) with
  | none =>
    rw [List.find?_eq_none] at hfind
    exact absurd (List.any_eq_true.mpr h) (hfind n (List.mem_range.mpr hn))
  | some k =>
    simp only [Chip.depLapse, hfind]
    refine ⟨_, k, ?_, ?_, rfl⟩
    · split
      · split <;> rfl
      · rfl
    · split
      · split <;> rfl
      · rfl

/-- A record that is made changes no field. -/
@[simp] theorem Chip.get_emit (m : Chip) (code : Nat) (ps : List Nat) (pg : Nat) (f : Fld) (i : Nat) :
    (m.emit code ps).get pg f i = m.get pg f i := rfl

theorem Chip.get_lapseTold (m : Chip) (r n : Nat) :
    (m.lapseTold r n).get 0x30 DEP_LAPSE_COUNT = satInc DEP_LAPSE_COUNT.wd (m.get 0x30 DEP_LAPSE_COUNT) := by
  rw [Chip.lapseTold, Chip.get_emit, Chip.irq, Chip.maskSet, Chip.get_put_addr _ _ _ _ _ _ _ _ (by decide)]
  exact m.get_count_same _ _ _ (by decide)

theorem Chip.irq_lapseTold (m : Chip) (r n : Nat) :
    ((m.lapseTold r n).get 0x30 HDR_IRQ_RAW_BITS).testBit 6 = true := by
  rw [Chip.lapseTold, Chip.get_emit, Chip.irq]
  exact Chip.testBit_get_maskSet_same _ _ _ _ _ (by decide) (by decide)

/-! ### The flush (R396) -/

/-- Storing OPARG leaves BUSY. -/
theorem Chip.busy_wr_oparg (m : Chip) (pg : Nat) (arg : Word) : (m.wr (pg * 0x400 + 0x24) arg).busy pg = m.busy pg := by
  have haddr : HDR_STATUS_BUSY.addr pg ≠ pg * 0x400 + 0x24 := by simp only [Fld.addr, HDR_STATUS_BUSY]; omega
  rw [Chip.busy, Chip.busy, Chip.has, Chip.has, Chip.get, Chip.get, Chip.rd_wr_ne _ _ haddr]

/-- The row of a long operation stores its argument first, and the operation that is accepted takes it (R35). -/
theorem Chip.startOp_of_idle (m : Chip) {pg cmd req : Nat} {arg : Word} {unit_ : Chip → Chip} (hb : m.busy pg = false) :
    (m.wr (pg * 0x400 + 0x24) arg).startOp pg cmd req unit_ =
      unit_ ((m.wr (pg * 0x400 + 0x24) arg).acceptOp pg cmd arg.toNat req) := by
  rw [Chip.startOp, Chip.busy_wr_oparg, hb, Chip.rd_wr_same, if_neg Bool.false_ne_true]

theorem Chip.startOp_of_busy (m : Chip) {pg cmd req : Nat} {arg : Word} {unit_ : Chip → Chip} (hb : m.busy pg = true) :
    (m.wr (pg * 0x400 + 0x24) arg).startOp pg cmd req unit_ = (m.wr (pg * 0x400 + 0x24) arg).irq pg 2 := by
  rw [Chip.startOp, Chip.busy_wr_oparg, hb, if_pos rfl]

/-! ### The obligation -/

/-- Settles O38, command by command: a put by the state of its source, a take by the head that the requester selects, a
lapse by the first queue that holds a reservation of 10 ms, and the flush as any long operation. -/
theorem depotCommands : Obligations.DepotCommands := by
  intro r s hs m q src value
  have hspi : r ≠ .spi → q ≠ 0 := fun h e => h ((reqCode_eq_zero r).mp e)
  have hloader : r ≠ .loader → q ≠ 3 := fun h e => h ((reqCode_eq_three r).mp e)
  refine ⟨?_, ?_, ?_, ?_, ?_, ?_, ?_, ?_, ?_, ?_⟩
  · rintro tag rfl
    exact exec_puttagWrite_of_same hs .loader tag (m.depPut_loader _)
  · intro tag hr hen
    exact exec_puttagWrite_of_eq hs r tag (m.depPut_disabled _ (hloader hr) hen)
  · intro tag hq hen hfull
    have hput := m.depPut_full tag.toNat hq hen hfull
    exact ⟨fun hrun => exec_puttagWrite_of_eq hs r tag (hput.trans (if_neg (fun hstop => hstop hrun))),
      fun hstop => exec_puttagWrite_of_same hs r tag (hput.trans (if_pos hstop))⟩
  · intro tag hr hen hroom
    exact exec_puttagWrite_of_eq hs r tag (m.depPut_append _ (hloader hr) hen hroom)
  · intro hr hnone
    have htake := m.depTake_empty q hnone
    have hexec : Effect (.take0Read r) s (fun m => m.depShadow q (fun _ => 0)) :=
      exec_take0Read_of_eq hs (hspi hr) (congrArg Prod.snd htake)
    have hact := s.act_of_clear (fun m => m.depShadow q (fun _ => 0)) hs.2 rfl
    refine ⟨_, hexec.trans (congrArg _ hact), rfl, rfl, congrArg Prod.fst htake, fun k hlo hhi => ?_⟩
    exact m.shadowOf_depShadow q (fun _ => 0) hlo hhi
  · intro n i e hr hhead
    have htake := m.depTake_removes (hspi hr) hhead
    refine ⟨fun hu => ⟨m.unitRead_of_no_upset _ _ hu, Chip.takenEntry_of_no_upset hu hhead⟩, congrArg Prod.fst htake, ?_⟩
    exact exec_take0Read_of_eq hs (hspi hr) (congrArg Prod.snd htake)
  · rintro n i e rfl heff hu hhead
    have htake := m.depTake_reserves hu hhead
    have hact := (s.act_of_clear (fun m => (m.depTake 0).2) (htake ▸ hs.2) (htake ▸ rfl)).trans
      (congrArg (fun c => ({ s with chip := c } : State)) htake)
    exact ⟨_, (exec_take0Read_spi hs heff).trans (congrArg _ hact), rfl, rfl, rfl⟩
  · intro h
    rw [exec_takeReservationLapse]
    refine State.run_of_same hs (m.depLapse_of_none q (fun n hn e he => ?_))
    rw [Bool.eq_false_iff, Ne, Chip.depStale_iff]
    exact fun ⟨hres, hdue⟩ => absurd (h n hn e he hres) (Nat.not_lt.mpr hdue)
  · rintro n hn ⟨e, he, hstale⟩
    obtain ⟨a, k, hregs, hclk, hlapse⟩ := m.depLapse_of_stale q hn ⟨e, he, (m.depStale_iff q e).mpr hstale⟩
    have hclock : (m.depLapse q).clk.edges = [] := by
      rw [hlapse, show (a.lapseTold q k).clk.edges = a.clk.edges from rfl, hclk, hs.2]
    have hcount : a.get 0x30 DEP_LAPSE_COUNT = m.get 0x30 DEP_LAPSE_COUNT := by
      rw [Chip.get, Chip.get, Chip.rd, Chip.rd, hregs]
    rw [exec_takeReservationLapse]
    refine ⟨_, State.run_of_not_held s _ hs.1, ?_, ?_⟩
    · rw [State.act_get_of_no_edges s _ _ _ _ hclock (by decide) (by decide), hlapse, a.get_lapseTold, hcount]
    · rw [State.act_get_of_no_edges s _ _ _ _ hclock (by decide) (by decide), hlapse]
      exact a.irq_lapseTold q k
  · intro arg
    have hexec := exec_depotFlush r arg s
    exact ⟨fun _ hb => hexec.trans (State.run_of_eq hs (m.startOp_of_idle hb)),
      fun _ hb => hexec.trans (State.run_of_eq hs (m.startOp_of_busy hb)),
      fun habs => absurd habs (by simp [pageAbsent_depot])⟩

end Sys2Proof.Machine
end
